-- ==== Sys2Proof/Word.lean ====
section
/-!
DEFINITION. Sys2Proof/Word.lean: the word types of the M8 and nothing else.
Bytes are 8 bits (R15, R53), a Reel register is 64 bits (R179), a package address is 48 bits (R37) and is
held as a Nat because it is the key of the memory.
-/
namespace Sys2Proof

/-- One byte, as every structure the M8 defines is made of (R15). -/
abbrev Byte := BitVec 8

/-- A byte string: a message, a record, a frame, a part of memory read in address order. -/
abbrev Bytes := List Byte

/-- A 64-bit word: a Reel register (R179), a sync-object field, a timestamp (R14). -/
abbrev Word64 := BitVec 64

end Sys2Proof
end

