-- ==== Sys2Proof/Syntax.lean ====
section
/-!
DEFINITION. Sys2Proof/Syntax.lean: the commands of the block, one constructor per row of spec/opcode_table.json in
the table's order, and the operand records they share. The table gives no bits, so no command has an encoding.
-/
namespace Sys2Proof

/-- A dictionary message (R74), or an access of resident firmware or of the safety controller, which carries neither
session, key, tag nor SEQ (R92). path is the master number of R89: 0 safety controller, 1 firmware, 2 fabric,
3 PCIe mailbox, 4 management port; addr is the sender's fabric address on path 2. rsv is header byte 11. OP is the
row's own; the LENGTH field is the length of data. -/
structure DictMsg where
  path : Nat := 1
  addr : Nat := 0
  flags : Nat := 0
  seq : Nat := 0
  session : Nat := 0
  index : Nat := 0
  sub : Nat := 0
  rsv : Nat := 0
  data : Bytes := []
  tag : Bytes := []
deriving DecidableEq, Repr

/-- The fields of a Reel instruction below OP (R184, R185): ND mark, registers, FUNC and the 32-bit immediate. -/
structure RFields where
  nd : Bool := false
  sd : Nat := 0
  sa : Nat := 0
  sb : Nat := 0
  func : Nat := 0
  imm : Nat := 0
deriving DecidableEq, Repr

/-- The commands of the block. -/

inductive Instr where
  /-- CELL_SELF_CHECK_FAIL (R31). A cell fails a self-check (residue or parity) during an item; it is retired, and its item is discarded and queued again. -/
  | cellSelfCheckFail (tile : Nat) (cell : Nat)
  /-- STEP_LATCH_FIRE (R100). A step latch fires within 4 hclk of the timebase reaching its target, and its waiters are released. -/
  | stepLatchFire (tile : Nat) (obj : Nat)
  /-- PKG_FENCE_START (R61). A write of 1 to START in PKG_FENCE starts a package fence for the writing master, or extends the pending fence. -/
  | pkgFenceStart (agent : Nat)
  /-- PKG_FENCE_DONE (R62). Every side effect covered by a master's package fence is complete, and PEND returns to 0. -/
  | pkgFenceDone (agent : Nat)
  /-- REMOTE_FENCE_COMPLETE (R206). Every write covered by a remote fence is acknowledged; the fence completes and performs its NOTIFY additions. -/
  | remoteFenceComplete (tile : Nat) (seq : Nat)
  /-- FLAGGED_WRITE_ISSUE (R56). A flagged write is issued once every remote fence in its fence set has completed. -/
  | flaggedWriteIssue (id : Nat)
  /-- REG_WRITE (R16). A write to a register that has no row of its own takes effect per the register's Access codes. -/
  | regWrite (agent : Nat) (addr : Nat) (size : Nat) (value : Nat)
  /-- DICT_READ (R70). A READ message returns the value of an entry, or the first DOMAIN segment. -/
  | dictRead (m : DictMsg)
  /-- DICT_WRITE (R91). A WRITE message sets an entry or sends the first DOMAIN segment; it is applied in arrival order after the checks of R98. -/
  | dictWrite (m : DictMsg) (rivals : List DictMsg)
  /-- READ_NEXT (R75). READ_NEXT returns the next segment of the DOMAIN transfer that the session holds. -/
  | readNext (m : DictMsg)
  /-- WRITE_NEXT (R75). WRITE_NEXT delivers the next DOMAIN segment; the LAST segment commits the new value. -/
  | writeNext (m : DictMsg)
  /-- DESCRIBE (R77). DESCRIBE returns the type, levels, persistence, range and default of an entry. -/
  | describe (m : DictMsg)
  /-- HELLO (R87). HELLO requests a session at a level; the device replies with a session identifier and a nonce, or refuses. -/
  | hello (m : DictMsg)
  /-- PROOF (R87). PROOF completes session opening when the client proof matches; otherwise it counts a failure. -/
  | proof (m : DictMsg)
  /-- CLOSE (R88). CLOSE ends a session and releases any DOMAIN transfer it holds. -/
  | close (m : DictMsg)
  /-- DICT_STORE_COMPLETE (R67). The persistent store of a Y, YR or key-slot write completes; the write is acknowledged and the next waiting write is stored. -/
  | dictStoreComplete (key : Nat) (ok : Bool)
  /-- DOMAIN_HOLD_TIMEOUT (R75). No segment arrives within 1 s, and the DOMAIN hold is released. -/
  | domainHoldTimeout (key : Nat)
  /-- SESSION_IDLE_TIMEOUT (R88). A session with no accepted request for IDLE_TIMEOUT closes. -/
  | sessionIdleTimeout (sid : Nat)
  /-- HELLO_LAPSE (R87). A HELLO with no PROOF within 5 s lapses and frees its session place. -/
  | helloLapse (sid : Nat)
  /-- AUTH_LOCKOUT_END (R87). The lockout of a level ends, and its failure count returns to 0. -/
  | authLockoutEnd (level : Nat)
  /-- MBX_GO (R82). A write of GO in MBX_CTL submits the mailbox message, or is refused and sets ERR. -/
  | mbxGo (value : Nat)
  /-- KEY_SLOT_WRITE (R73). A write to a key slot sets or empties the key and closes every other session of that level. -/
  | keySlotWrite (m : DictMsg)
  /-- RESTORE_DEFAULTS (R72). Writing 0x0000_0DEF arranges the return of Y and YR entries to their defaults at the next reset. -/
  | restoreDefaults (m : DictMsg)
  /-- TIMING_PACKET (R109). A timing packet is checked, projected and used for qualification, period measurement and phase correction. -/
  | timingPacket (src : Nat) (payload : Bytes)
  /-- STEP_IN_EDGE (R111). A STEP_IN rising edge is timestamped and, in pulse mode, used as a step-boundary event. -/
  | stepInEdge
  /-- STEP_IN_CODED_WORD (R113). A coded STEP_IN word is received whole and checked, and its edge is used as a numbered event. -/
  | stepInCodedWord (word : Nat)
  /-- SRC_LOST (R106). LOSS_STEPS expected boundaries pass without an accepted event, and the source is lost. -/
  | srcLost (src : Nat)
  /-- HOLDOVER_WARN (R124). Holdover has lasted HOLDOVER_WARN_STEPS, and HOLDOVER_WARN is set once. -/
  | holdoverWarn
  /-- SLEW_DONE (R116). SLEW_LEFT reaches 0, and the adjusted phase rate ends. -/
  | slewDone
  /-- HARD_JUMP (R120). At the next local step boundary, a pending jump sets the timebase to the source value. -/
  | hardJump
  /-- WINDOW_OPEN (R128). The timebase reaches a window's open point, and the window opens for its target step. -/
  | windowOpen (idx : Nat) (target : Nat)
  /-- WINDOW_CLOSE (R128). The timebase reaches a window's close point, and the window closes. -/
  | windowClose (idx : Nat) (target : Nat)
  /-- COMMIT_DEADLINE (R129). A commit deadline is reached with the batch incomplete; the commit is held and DEADLINE_MISS is set. -/
  | commitDeadline (idx : Nat) (target : Nat)
  /-- TRANSFER_ADMIT (R130). A step-locked transfer is admitted in a window whose time left covers its duration. -/
  | transferAdmit (tile : Nat) (thread : Nat) (idx : Nat) (target : Nat)
  /-- LATE_SUBST_START (R132). The deadline plus LATE_SUBST_GRACE passes, and the owner sends CANCEL for each missing slot. -/
  | lateSubstStart (target : Nat)
  /-- START_TIMEOUT (R126). No source qualifies within START_TIMEOUT, and the job fails with code 0x000A. -/
  | startTimeout
  /-- JOB_LOAD (R141). JOB_LOAD reads the image and job record, checks them, and loads the tiles and the job into Armed, or refuses it. -/
  | jobLoad (cmd : Option (Nat × Nat)) (image : Bytes) (record_ : Bytes) (hostErr : Option Nat)
  /-- AUDIT_LOAD (R291). JOB_LOAD with AUDIT loads an image and an audit record and runs the audit. -/
  | auditLoad (cmd : Option (Nat × Nat)) (image : Bytes) (record_ : Bytes) (hostErr : Option Nat)
  /-- AUDIT_COMPLETE (R294). The audit finishes and its result record is written to AUDIT_OUT. -/
  | auditComplete
  /-- JOB_STOP (R144). JOB_STOP moves a Running job to Draining. -/
  | jobStop (cmd : Option (Nat × Nat))
  /-- DRAIN_COMPLETE (R144). Every target whose fetch window has opened is committed, and the job leaves Draining. -/
  | drainComplete
  /-- JOB_UNLOAD (R428). JOB_UNLOAD unloads the tiles and returns the job to Idle. -/
  | jobUnload (cmd : Option (Nat × Nat))
  /-- SLOT_WRITE_ISSUE (R160). A packed slot is written once its window is open, its buffer is released and its transport admits it. -/
  | slotWriteIssue (id : Nat)
  /-- BUFFER_RELEASE (R161). Under implicit release, a buffer is released when its step boundary is reached and the earlier seal has been issued. -/
  | bufferRelease (rank : Nat) (step : Nat)
  /-- CREDIT_WRITE (R162). A consumer's credit word releases buffers up to its step and sets NEXT_KEY. -/
  | creditWrite (rank : Nat) (word : Nat)
  /-- CREDIT_STALL (R163). CREDIT_STALL_STEPS steps pass without a new credit; a credit wait is counted and the stall event is set. -/
  | creditStall (rank : Nat)
  /-- SLOT_DONE_RECEIVE (R166). The owner records a SLOT_DONE notice in its bitmap and digest sum, or discards it as a duplicate. -/
  | slotDoneReceive (src : Nat) (payload : Bytes)
  /-- COMMIT_ISSUE (R168). The owner writes the exception entries and the body of a commit, and fences them. -/
  | commitIssue (step : Nat) (rank : Nat)
  /-- SEAL_ISSUE (R169). The seal is written as the flagged write once its fence set has completed and the gates allow it. -/
  | sealIssue (step : Nat) (rank : Nat)
  /-- CANCEL_RECEIVE (R173). A home member answers CANCEL with CANCEL_ACK, stating whether the slot write is in flight. -/
  | cancelReceive (src : Nat) (payload : Bytes)
  /-- CANCEL_ACK_RECEIVE (R173). The owner substitutes slots acknowledged with IN_FLIGHT 0, using its own packed sample or a fill. -/
  | cancelAckReceive (src : Nat) (payload : Bytes)
  /-- NOP (R186). The instruction does nothing. -/
  | nop (tile : Nat) (thread : Nat) (f : RFields)
  /-- ADD (R186). SD := S[SA] + op2. -/
  | add (tile : Nat) (thread : Nat) (f : RFields)
  /-- SUB (R186). SD := S[SA] - op2. -/
  | sub (tile : Nat) (thread : Nat) (f : RFields)
  /-- AND (R186). SD := S[SA] and op2. -/
  | and (tile : Nat) (thread : Nat) (f : RFields)
  /-- OR (R186). SD := S[SA] or op2. -/
  | or (tile : Nat) (thread : Nat) (f : RFields)
  /-- XOR (R186). SD := S[SA] xor op2. -/
  | xor (tile : Nat) (thread : Nat) (f : RFields)
  /-- SHL (R186). Left shift. -/
  | shl (tile : Nat) (thread : Nat) (f : RFields)
  /-- SHR (R186). Logical right shift. -/
  | shr (tile : Nat) (thread : Nat) (f : RFields)
  /-- SAR (R186). Arithmetic right shift. -/
  | sar (tile : Nat) (thread : Nat) (f : RFields)
  /-- MUL (R186). Low 64 bits of the product. -/
  | mul (tile : Nat) (thread : Nat) (f : RFields)
  /-- MULHU (R186). High 64 bits of the unsigned product. -/
  | mulhu (tile : Nat) (thread : Nat) (f : RFields)
  /-- DIVU (R186). Unsigned division; traps 0x05 on a divisor of zero. -/
  | divu (tile : Nat) (thread : Nat) (f : RFields)
  /-- REMU (R186). Unsigned remainder; traps 0x05 on a divisor of zero. -/
  | remu (tile : Nat) (thread : Nat) (f : RFields)
  /-- SLTU (R186). Unsigned set-less-than. -/
  | sltu (tile : Nat) (thread : Nat) (f : RFields)
  /-- SLT (R186). Signed set-less-than. -/
  | slt (tile : Nat) (thread : Nat) (f : RFields)
  /-- MINU (R186). Unsigned minimum. -/
  | minu (tile : Nat) (thread : Nat) (f : RFields)
  /-- MAXU (R186). Unsigned maximum. -/
  | maxu (tile : Nat) (thread : Nat) (f : RFields)
  /-- LUI (R186). Loads IMM into the upper 32 bits of SD. -/
  | lui (tile : Nat) (thread : Nat) (f : RFields)
  /-- RDTIME_CYCLE (R186). RDTIME FUNC 0 reads the cycle counter. -/
  | rdtimeCycle (tile : Nat) (thread : Nat) (f : RFields)
  /-- RDTIME_PAV (R186). RDTIME FUNC 1 reads PAV_NOW; a free-class thread traps 0x0D. -/
  | rdtimePav (tile : Nat) (thread : Nat) (f : RFields)
  /-- RDTIME_TILE (R186). RDTIME FUNC 2 reads the tile number. -/
  | rdtimeTile (tile : Nat) (thread : Nat) (f : RFields)
  /-- RDTIME_CHANNEL (R186). RDTIME FUNC 3 reads the thread's channel. -/
  | rdtimeChannel (tile : Nat) (thread : Nat) (f : RFields)
  /-- LD (R186). Loads memory into SD; a misaligned access traps 0x03. -/
  | ld (tile : Nat) (thread : Nat) (f : RFields)
  /-- ST (R186). Stores to memory; a store to a sync object traps 0x08. -/
  | st (tile : Nat) (thread : Nat) (f : RFields)
  /-- BEQ (R186). Branch if equal. -/
  | beq (tile : Nat) (thread : Nat) (f : RFields)
  /-- BNE (R186). Branch if not equal. -/
  | bne (tile : Nat) (thread : Nat) (f : RFields)
  /-- BLT (R186). Signed branch if less. -/
  | blt (tile : Nat) (thread : Nat) (f : RFields)
  /-- BGE (R186). Signed branch if greater or equal. -/
  | bge (tile : Nat) (thread : Nat) (f : RFields)
  /-- BLTU (R186). Unsigned branch if less. -/
  | bltu (tile : Nat) (thread : Nat) (f : RFields)
  /-- BGEU (R186). Unsigned branch if greater or equal. -/
  | bgeu (tile : Nat) (thread : Nat) (f : RFields)
  /-- JAL (R186). Jump and link. -/
  | jal (tile : Nat) (thread : Nat) (f : RFields)
  /-- JALR (R187). Register jump and link; an invalid target traps 0x02. -/
  | jalr (tile : Nat) (thread : Nat) (f : RFields)
  /-- HALT (R186). The thread ends. -/
  | halt (tile : Nat) (thread : Nat) (f : RFields)
  /-- SADD (R189). Adds S[SB] to a counter's VALUE. -/
  | sadd (tile : Nat) (thread : Nat) (f : RFields)
  /-- SADD_LIMIT (R189). SADD with FUNC[0] = 1 adds S[SB] to a counter's LIMIT. -/
  | saddLimit (tile : Nat) (thread : Nat) (f : RFields)
  /-- SWAIT (R189). The thread waits until the object releases. -/
  | swait (tile : Nat) (thread : Nat) (f : RFields)
  /-- SSET (R189). Sets an event and releases its waiters. -/
  | sset (tile : Nat) (thread : Nat) (f : RFields)
  /-- SCLR (R189). Clears an event. -/
  | sclr (tile : Nat) (thread : Nat) (f : RFields)
  /-- STAKE (R189). Waits until the semaphore is above 0, then takes a unit. -/
  | stake (tile : Nat) (thread : Nat) (f : RFields)
  /-- STAKE_TRY (R189). STAKE with FUNC[0] = 1 takes a unit if one is available, without waiting. -/
  | stakeTry (tile : Nat) (thread : Nat) (f : RFields)
  /-- SGIVE (R189). Gives a semaphore unit, serving local waiters; traps 0x07 at LIMIT. -/
  | sgive (tile : Nat) (thread : Nat) (f : RFields)
  /-- SARRIVE (R189). Arrives at a barrier, which advances GEN when VALUE reaches LIMIT. -/
  | sarrive (tile : Nat) (thread : Nat) (f : RFields)
  /-- SARM (R191). Arms a step latch with a new target. -/
  | sarm (tile : Nat) (thread : Nat) (f : RFields)
  /-- SREAD (R189). Reads an object's VALUE. -/
  | sread (tile : Nat) (thread : Nat) (f : RFields)
  /-- REMOTE_TAKE_RETRY (R190). A tile retries a remote semaphore take when it sees a release. -/
  | remoteTakeRetry (tile : Nat) (thread : Nat)
  /-- WOPEN (R193). A step-locked thread waits for transfer admission in a window of its channel. -/
  | wopen (tile : Nat) (thread : Nat) (f : RFields)
  /-- DISP (R199). Reads and checks a dispatch descriptor and queues the dispatch. -/
  | disp (tile : Nat) (thread : Nat) (f : RFields)
  /-- DISPATCH_ITEM_START (R200). The next item of a queued dispatch starts on a free cell. -/
  | dispatchItemStart (tile : Nat) (cell : Nat)
  /-- ITEM_FINISH (R195). An item finishes, and when it is the last, the dispatch completes and adds 1 to its counter. -/
  | itemFinish (tile : Nat) (cell : Nat)
  /-- FETCH (R203). Queues a request to read one extent into staging. -/
  | fetch (tile : Nat) (thread : Nat) (f : RFields)
  /-- FETCH_CACHED (R176). A FETCH with CACHED looks the sample up in the epoch cache first. -/
  | fetchCached (tile : Nat) (thread : Nat) (f : RFields)
  /-- FETCH_FIRST (R207). The ND-marked first-responder replica read takes the extent from the first source that answers. -/
  | fetchFirst (tile : Nat) (thread : Nat) (f : RFields)
  /-- FLASH_FETCH_ADMIT (R402). The read scheduler admits a fetch once every die it touches has room. -/
  | flashFetchAdmit (tile : Nat) (req : Nat)
  /-- FETCH_COMPLETE (R402). The fetch completes at exactly T_FIX after admission, writing STATUS and LENGTH. -/
  | fetchComplete (tile : Nat) (req : Nat) (other : Bytes)
  /-- PLACE (R203). Hands a packed-slot request to Cotillion. -/
  | place (tile : Nat) (thread : Nat) (f : RFields)
  /-- COTILLION_PACK (R266). Cotillion packs the tensor into the layout, issues the slot write and writes TERM. -/
  | cotillionPack (tile : Nat) (req : Nat)
  /-- NOTE (R195). Sends a 40-byte notice to a fabric address. -/
  | note (tile : Nat) (thread : Nat) (f : RFields)
  /-- QUAR (R197). Posts a decode-time quarantine for a sample. -/
  | quar (tile : Nat) (thread : Nat) (f : RFields)
  /-- CFILL (R321). Hands a cache-point tensor to the codec engine for an epoch-cache fill. -/
  | cfill (tile : Nat) (thread : Nat) (f : RFields)
  /-- CFILL_COPY_DONE (R322). The fill's copy of its source completes, and a waiting DISP may start. -/
  | cfillCopyDone (tile : Nat) (req : Nat)
  /-- FENCE_CELL (R204). A cell-scope fence. -/
  | fenceCell (tile : Nat) (thread : Nat) (f : RFields)
  /-- FENCE_TILE (R204). A tile-scope fence. -/
  | fenceTile (tile : Nat) (thread : Nat) (f : RFields)
  /-- FENCE_PACKAGE (R204). A package-scope fence. -/
  | fencePackage (tile : Nat) (thread : Nat) (f : RFields)
  /-- FENCE_REMOTE (R205). Issues a remote fence token, merging into the newest entry when the table is full. -/
  | fenceRemote (tile : Nat) (thread : Nat) (f : RFields)
  /-- SUBST (R207). Registers a layout with the commit owner for late substitution. -/
  | subst (tile : Nat) (thread : Nat) (f : RFields)
  /-- DEDUP (R209). Content-hash deduplication, first wins. -/
  | dedup (tile : Nat) (thread : Nat) (f : RFields)
  /-- VCLR (R208). Clears the thread's VARY flag. -/
  | vclr (tile : Nat) (thread : Nat) (f : RFields)
  /-- TILE_HW_FAULT (R213). A hardware-class trap (ECC, Reel parity) quarantines the tile as a tile fault. -/
  | tileHwFault (tile : Nat) (thread : Nat) (cause : Nat) (arg : Nat)
  /-- REEL_START (R214). REEL_CTL START starts every thread at its START_PC. -/
  | reelStart (agent : Nat) (tile : Nat)
  /-- REEL_HALT (R214). REEL_CTL HALT stops issue and lets work in flight finish. -/
  | reelHalt (agent : Nat) (tile : Nat)
  /-- REEL_UNLOAD (R215). REEL_CTL UNLOAD starts unloading the program. -/
  | reelUnload (agent : Nat) (tile : Nat)
  /-- TILE_RESET (R214). REEL_CTL TILE_RESET unloads the tile and returns retired cells to service. -/
  | tileReset (agent : Nat) (tile : Nat)
  /-- REEL_QUARANTINE (R214). REEL_CTL QUARANTINE quarantines the tile. -/
  | reelQuarantine (agent : Nat) (tile : Nat)
  /-- REEL_PENDING_APPLY (R215). A pending REEL_CTL action takes effect, or is refused, when the earlier action completes. -/
  | reelPendingApply (tile : Nat)
  /-- TILE_HALTED (R215). All threads have halted and work in flight is done, and the tile enters state 3. -/
  | tileHalted (tile : Nat)
  /-- REEL_UNLOAD_DONE (R215). Dispatches, hub requests and remote fences have drained, and the unload completes. -/
  | reelUnloadDone (tile : Nat)
  /-- GATE_ITEM (R232). A GATE item runs the gatekeeper checks and writes a gate record or posts a quarantine. -/
  | gateItem (tile : Nat) (cell : Nat)
  /-- JPEG_DECODE_ITEM (R237). A JPEG_DECODE item decodes its segments. -/
  | jpegDecodeItem (tile : Nat) (cell : Nat)
  /-- IDCT8_ITEM (R239). An IDCT8 item runs the inverse DCT on one block. -/
  | idct8Item (tile : Nat) (cell : Nat)
  /-- CCONV_ITEM (R243). A CCONV item converts the colour of one band. -/
  | cconvItem (tile : Nat) (cell : Nat)
  /-- CROP_RESIZE_ITEM (R245). A CROP_RESIZE item crops and resizes one band. -/
  | cropResizeItem (tile : Nat) (cell : Nat)
  /-- RAND_CROP_ITEM (R246). A RAND_CROP item crops one band at a drawn crop. -/
  | randCropItem (tile : Nat) (cell : Nat)
  /-- FLIP_ROT_ITEM (R247). A FLIP_ROT item flips and rotates one image by its draws. -/
  | flipRotItem (tile : Nat) (cell : Nat)
  /-- PHOTO_ITEM (R248). A PHOTO item applies photometric jitter. -/
  | photoItem (tile : Nat) (cell : Nat)
  /-- NOISE_ITEM (R249). A NOISE item adds drawn noise. -/
  | noiseItem (tile : Nat) (cell : Nat)
  /-- RANGE_PROJ_ITEM (R252). A RANGE_PROJ item projects a chunk of points. -/
  | rangeProjItem (tile : Nat) (cell : Nat)
  /-- VOXEL_ITEM (R256). A VOXEL item voxelises a chunk of points. -/
  | voxelItem (tile : Nat) (cell : Nat)
  /-- NORM_ITEM (R257). A NORM item converts one band to F32 with one fused operation per element. -/
  | normItem (tile : Nat) (cell : Nat)
  /-- CHECK_ITEM (R258). A CHECK item tests a run of elements against its bounds. -/
  | checkItem (tile : Nat) (cell : Nat)
  /-- CDC_SUBMIT (R318). A write to CDC_SUBMIT queues a firmware codec job, or refuses it. -/
  | cdcSubmit (agent : Nat) (hub : Nat) (addr : Nat)
  /-- CODEC_COMPRESS (R314). A lane runs a compression call. -/
  | codecCompress (hub : Nat) (lane : Nat)
  /-- CODEC_DECOMPRESS (R316). A lane runs a decompression call. -/
  | codecDecompress (hub : Nat) (lane : Nat)
  /-- CODEC_JOB_END (R318). A codec call ends; STATUS and the state fields are written and the interrupt is raised. -/
  | codecJobEnd (hub : Nat) (lane : Nat)
  /-- HIT_STAGE_RELEASE (R325). The staged cache hit is released at T_stage after acceptance. -/
  | hitStageRelease (tile : Nat) (req : Nat)
  /-- HIT_DECODE_DONE (R325). The hit decode completes at T_dec, writing STATUS 1 and LENGTH. -/
  | hitDecodeDone (hub : Nat) (lane : Nat)
  /-- POOL_TAKE (R341). A TAKE read requests a run of cells. -/
  | poolTake (agent : Nat) (hub : Nat) (pool : Nat) (owner : Nat)
  /-- POOL_GRANT (R339). A waiting cell request is granted once cells, reserves and limits allow it. -/
  | poolGrant (hub : Nat) (pool : Nat)
  /-- POOL_GIVE (R342). A GIVE write returns a run, or removes the giver's name from a shared run. -/
  | poolGive (agent : Nat) (hub : Nat) (pool : Nat) (owner : Nat) (addr : Nat)
  /-- POOL_SHARE (R343). A share operation names a further owner on a run. -/
  | poolShare (hub : Nat) (pool : Nat) (owner : Nat) (addr : Nat) (newOwner : Nat)
  /-- POOL_AUDIT_READ (R345). Reading POOL_AUDIT takes a snapshot of every owner of every pool. -/
  | poolAuditRead
  /-- DMA_START (R351). START in state 1 starts the channel at DMA_CH_DESC. -/
  | dmaStart (agent : Nat) (hub : Nat) (channel : Nat)
  /-- DMA_ABORT (R354). ABORT stops the channel and writes a code-1 record. -/
  | dmaAbort (agent : Nat) (hub : Nat) (channel : Nat)
  /-- DMA_ENABLE (R357). ENABLE 1 enables the channel, or holds the enable pending. -/
  | dmaEnable (agent : Nat) (hub : Nat) (channel : Nat)
  /-- DMA_DISABLE (R356). ENABLE 0 starts a shutdown. -/
  | dmaDisable (agent : Nat) (hub : Nat) (channel : Nat)
  /-- DMA_SHUTDOWN_DONE (R356). The shutdown completes and the channel enters state 0; a pending enable then applies. -/
  | dmaShutdownDone (hub : Nat) (channel : Nat)
  /-- DMA_MOVER_GRANT (R353). A free mover goes to the highest-priority waiting channel. -/
  | dmaMoverGrant (hub : Nat)
  /-- DMA_PACE_POLL (R352). A paced channel in state 3 reads its level every 64 hclk. -/
  | dmaPacePoll (hub : Nat) (channel : Nat)
  /-- DMA_BUS_ERROR (R355). A bus error is retried, or halts the channel with a code-3 record. -/
  | dmaBusError (hub : Nat) (channel : Nat) (addr : Nat)
  /-- DMA_DESC_END (R360). A descriptor ends; a completion record is written after package visibility. -/
  | dmaDescEnd (hub : Nat) (channel : Nat)
  /-- VOCAB_LOAD (R364). A vocabulary written to VOCAB is checked, and the hub structures are built. -/
  | vocabLoad (blob : Bytes)
  /-- MACHINE_LOAD (R373). A machine is checked and loaded, closing its open contexts. -/
  | machineLoad (machine : Nat) (blob : Bytes)
  /-- TXT_SUBMIT (R371). A write to TXT_SUBMIT queues a text job, or refuses it. -/
  | txtSubmit (agent : Nat) (hub : Nat) (addr : Nat)
  /-- TOKENISE (R368). A text lane tokenises input chunk by chunk. -/
  | tokenise (hub : Nat) (lane : Nat)
  /-- DETOKENISE (R369). A text lane writes the bytes of the input tokens. -/
  | detokenise (hub : Nat) (lane : Nat)
  /-- VALIDATE (R370). A text lane runs a machine over the input bytes. -/
  | validate (hub : Nat) (lane : Nat)
  /-- TEXT_JOB_END (R371). A text job ends; STATUS is written and the interrupt is raised. -/
  | textJobEnd (hub : Nat) (lane : Nat)
  /-- GRAMMAR_TAIL_WRITE (R375). A tail word write hands grammar entries to the device, or is ignored. -/
  | grammarTailWrite (hub : Nat) (queue : Nat) (value : Nat) (whole : Bool)
  /-- GRAMMAR_OPEN (R377). OPEN opens a context on a machine. -/
  | grammarOpen (hub : Nat)
  /-- GRAMMAR_ADVANCE (R376). ADVANCE applies tokens to a context and replies, with a mask when asked. -/
  | grammarAdvance (hub : Nat)
  /-- GRAMMAR_CLOSE (R379). CLOSE closes a context. -/
  | grammarClose (hub : Nat)
  /-- CTX_IDLE_TIMEOUT (R379). A context idle for CTX_IDLE_MS closes. -/
  | ctxIdleTimeout (hub : Nat) (ctx : Nat)
  /-- CHANNEL_TRAINING (R383). A channel is trained at power-up, at wake, or after a 20 °C change, degrading or retiring on failure. -/
  | channelTraining (channel : Nat) (ok3600 : Bool) (ok2800 : Bool)
  /-- WORDLINE_PROGRAM_DONE (R394). A word line's program completes, making the previous word line durable. -/
  | wordlineProgramDone (stream : Nat)
  /-- FUA_PAD_TIMEOUT (R394). No data arrives within FUA_PAD_US, and the next word line is programmed with pad. -/
  | fuaPadTimeout (stream : Nat)
  /-- JOURNAL_RECORD_DURABLE (R392). A journal record becomes durable, and the map cache applies its entries in one hub clock. -/
  | journalRecordDurable
  /-- MAP_CACHE_MISS (R390). A lookup misses, and the map page is loaded, evicting a clean page. -/
  | mapCacheMiss (page : Nat)
  /-- MAP_WRITEBACK (R393). A dirty map page is written back, and its directory moves by a TYPE 4 record. -/
  | mapWriteback (page : Nat)
  /-- CHECKPOINT (R397). Every 60 s, or at 2^24 records, a checkpoint is written. -/
  | checkpoint
  /-- MOUNT (R395). At mount, the journal is replayed in SEQ order up to the first invalid record. -/
  | mount
  /-- GC_START (R403). Fewer than GC_LOW superblocks are free, and garbage collection picks a victim. -/
  | gcStart
  /-- GC_MOVE (R404). A moved codeword updates its map entry only if the entry is unchanged. -/
  | gcMove
  /-- BLOCK_FAIL (R405). A program or erase failure retires the block and moves its data. -/
  | blockFail (block : Nat) (erase : Bool)
  /-- PARITY_CONTRIBUTION (R408). A parity holder applies a contribution in SEQ order. -/
  | parityContribution (member : Nat) (chunk : Nat) (page : Nat) (seq : Nat) (before : Nat) (data : Bytes)
  /-- CODEWORD_REBUILD (R410). An uncorrectable codeword is rebuilt from K chunks and rewritten. -/
  | codewordRebuild (lpn : Nat) (position : Nat) (pages : List (Nat × Bytes))
  /-- HEALTH_UPDATE (R413). The health record is updated every second. -/
  | healthUpdate (temp : Int)
  /-- RING_ENABLE (R424). ENABLE 1 enables a ring and resets its indices, or is held pending. -/
  | ringEnable (agent : Nat) (ring : Nat) (irqEn : Bool)
  /-- RING_DISABLE (R425). ENABLE 0 shuts a ring down. -/
  | ringDisable (agent : Nat) (ring : Nat) (irqEn : Bool)
  /-- RING_SHUTDOWN_DONE (R425). Started commands finish, the ring enters state 0, and a pending enable applies. -/
  | ringShutdownDone (ring : Nat)
  /-- RING_RESTART (R438). RESTART resumes a frozen ring, held while INFLIGHT is non-zero. -/
  | ringRestart (agent : Nat) (ring : Nat)
  /-- RING_RESTART_DISCARD (R438). RESTART with DISCARD drops the queued SQ entries, then restarts. -/
  | ringRestartDiscard (agent : Nat) (ring : Nat)
  /-- SQ_TAIL_DOORBELL (R424). A write to RING_SQ_TAIL offers new SQ entries. -/
  | sqTailDoorbell (agent : Nat) (ring : Nat) (index : Nat)
  /-- CQ_HEAD_DOORBELL (R424). A write to RING_CQ_HEAD frees CQ slots. -/
  | cqHeadDoorbell (agent : Nat) (ring : Nat) (index : Nat)
  /-- SQ_FETCH (R419). An SQ entry is fetched once a CQ slot is reserved, and it starts as the order rules allow. -/
  | sqFetch (ring : Nat) (entry : Bytes)
  /-- CMD_COMPLETE (R421). A command completes and its CQ entry is written after its data. -/
  | cmdComplete (ring : Nat) (seq : Nat) (durable : List Nat) (others : Bool)
  /-- CMD_NOP (R428). NOP completes on fetch. -/
  | cmdNop (ring : Nat) (seq : Nat)
  /-- CMD_READ (R428). READ returns logical pages of a version. -/
  | cmdRead (ring : Nat) (seq : Nat) (segs : Bytes) (hostErr : Option Nat) (fault : Bool)
  /-- CMD_WRITE (R431). WRITE stores LPNs in atomic 64-LPN pieces. -/
  | cmdWrite (ring : Nat) (seq : Nat) (segs : Bytes) (data : Bytes) (hostErr : Option Nat) (failAt : Option Nat)
  /-- CMD_DISCARD (R411). DISCARD unmaps LPNs in the open version. -/
  | cmdDiscard (ring : Nat) (seq : Nat)
  /-- SECURE_DISCARD (R412). SECURE_DISCARD removes every copy of LPNs and erases it. -/
  | secureDiscard (ring : Nat) (seq : Nat)
  /-- CMD_FLUSH (R430). FLUSH completes when earlier completed writes are durable. -/
  | cmdFlush (ring : Nat) (seq : Nat)
  /-- VERSION_SEAL (R399). VERSION_SEAL closes the open version group-wide. -/
  | versionSeal (ring : Nat) (seq : Nat)
  /-- VERSION_RELEASE (R428). VERSION_RELEASE releases a sealed version. -/
  | versionRelease (ring : Nat) (seq : Nat)
  /-- FLR (R418). A function-level reset disables PCIe rings and the mailbox, and closes PCIe sessions. -/
  | flr
  /-- PERST_N (R629). PERST_N resets the PCIe endpoint only. -/
  | perstN
  /-- FABRIC_RING_OPEN (R427). OPEN creates a fabric ring, answered OPENED or REFUSED. -/
  | fabricRingOpen (src : Nat) (payload : Bytes)
  /-- FABRIC_RING_SUBMIT (R427). SUBMIT delivers SQ entries within credit. -/
  | fabricRingSubmit (src : Nat) (payload : Bytes)
  /-- FABRIC_RING_DATA (R427). DATA frames carry WRITE data into cells. -/
  | fabricRingData (src : Nat) (payload : Bytes)
  /-- FABRIC_RING_CLOSE (R427). CLOSE shuts a fabric ring down. -/
  | fabricRingClose (src : Nat) (payload : Bytes)
  /-- FABRIC_RING_RESTART (R438). A write of OD 0x1321:02 restarts a frozen fabric ring. -/
  | fabricRingRestart (sid : Nat) (value : Nat)
  /-- LP_HOLD_POINT (R434). At a hold point of low-power entry, waiting commands run before the entry resumes. -/
  | lpHoldPoint
  /-- PORT_ENABLE (R444). ENABLE 1 starts the laser ramp of a port, or is held pending. -/
  | portEnable (agent : Nat) (port : Nat)
  /-- PORT_DISABLE (R446). ENABLE 0 moves the port to Stopping and returns its queued commands. -/
  | portDisable (agent : Nat) (port : Nat)
  /-- PORT_RETRAIN (R444). RETRAIN moves an up port to Acquiring. -/
  | portRetrain (agent : Nat) (port : Nat)
  /-- PORT_RAMP_DONE (R444). Every laser of the port is at set or has faulted, and the port settles. -/
  | portRampDone (port : Nat)
  /-- SYNTH_LOCK (R444). The synthesiser locks, and the port starts acquiring. -/
  | synthLock (port : Nat)
  /-- PORT_ACQUIRED (R448). Every lane locks and the partner agrees, the port is up, and its queued commands are sent. -/
  | portAcquired (port : Nat)
  /-- PORT_LOCK_LOST (R464). The port leaves state 4, and its unacknowledged frames are rerouted. -/
  | portLockLost (port : Nat) (lanes : Nat) (synth : Bool)
  /-- PORT_FAULT_TIMEOUT (R444). The port does not reach state 4 within 10 ms, and it enters Fault. -/
  | portFaultTimeout (port : Nat)
  /-- PORT_STOP_DONE (R446). The lasers are dark, the port enters state 0, and a pending enable applies. -/
  | portStopDone (port : Nat)
  /-- TX_COMMAND (R447). A transmit command is accepted, queued or refused by port state. -/
  | txCommand (port : Nat) (frame : Bytes)
  /-- LANE_MONITOR_UPDATE (R449). Lane monitors update each second and may retire a lane at once. -/
  | laneMonitorUpdate (lane : Nat) (errs : Nat) (symbols : Nat) (eye : Nat) (bias : Nat)
  /-- LANE_TREND_FIT (R449). The hourly trend fit retires lanes whose line crosses a retire value. -/
  | laneTrendFit (lane : Nat)
  /-- LANE_SWAP (R451). LANE_CMD SWAP lights the spare and negotiates the swap. -/
  | laneSwap (agent : Nat) (engine : Nat) (lane : Nat) (target : Nat)
  /-- LANE_RETURN (R452). LANE_CMD RETURN lights a retired lane and starts its soak. -/
  | laneReturn (agent : Nat) (engine : Nat) (lane : Nat) (target : Nat)
  /-- LANE_RETIRE_CMD (R453). LANE_CMD RETIRE retires a lane. -/
  | laneRetireCmd (agent : Nat) (engine : Nat) (lane : Nat)
  /-- SWAP_MARKER_AGREE (R451). At the agreed marker, both ends move the logical lane together. -/
  | swapMarkerAgree (engine : Nat)
  /-- SWAP_PARTNER_TIMEOUT (R451). The partner does not agree within 10 ms, and the swap fails. -/
  | swapPartnerTimeout (engine : Nat)
  /-- RETURN_SOAK_END (R452). The soak ends, and the lane moves back or stays retired. -/
  | returnSoakEnd (engine : Nat)
  /-- LASER_ON (R455). Writing ON 1 starts a laser's ramp up. -/
  | laserOn (agent : Nat) (channel : Nat)
  /-- LASER_OFF (R455). Writing ON 0 ramps a laser down. -/
  | laserOff (agent : Nat) (channel : Nat)
  /-- LASER_RAMP_STEP (R455). Each 8 µs ramp step raises bias, reaching AT_SET or LOWPWR. -/
  | laserRampStep (channel : Nat) (reached : Bool)
  /-- LASER_SHORT (R456). A shorted channel opens its switch and latches SHORT, and its rail pauses. -/
  | laserShort (channel : Nat)
  /-- RAIL_RECOVER (R456). The rail recovers, and paused ramps and loops resume. -/
  | railRecover (rail : Nat)
  /-- RAIL_FAIL_TIMEOUT (R457). A rail not recovered after 1 ms is switched off and RAIL_FAIL latched. -/
  | railFailTimeout (rail : Nat)
  /-- CORE_RESET (R458). A control-core reset of a hub leaves optics and regulators running. -/
  | coreReset (hub : Nat)
  /-- OE_IDLE_POWER_OFF (R561). An engine whose ports have been in state 0 for 1 s powers off. -/
  | oeIdlePowerOff (engine : Nat)
  /-- FRAME_RECEIVE (R476). An Acsal frame is checked, policed, and delivered or routed. -/
  | frameReceive (port : Nat) (frame : Bytes)
  /-- EGRESS_SEND (R485). An egress port sends the eligible frame of the highest TC. -/
  | egressSend (port : Nat)
  /-- LINK_ACK (R463). A received ACK frees replay-buffer frames. -/
  | linkAck (port : Nat) (lseq : Nat) (grants : List Nat)
  /-- LINK_NAK (R463). A received NAK resends from its LSEQ. -/
  | linkNak (port : Nat) (lseq : Nat) (grants : List Nat)
  /-- LINK_CREDIT (R463). A received CREDIT message returns buffer credit. -/
  | linkCredit (port : Nat) (grants : List Nat)
  /-- LINK_REPLAY_TIMEOUT (R463). No ACK within 500 ns, and the link replays. -/
  | linkReplayTimeout (port : Nat)
  /-- LINK_ACK_TIMER (R463). A cumulative ACK is sent after 32 frames or 200 ns. -/
  | linkAckTimer (port : Nat)
  /-- HELLO_SEND (R469). A port sends a HELLO every HELLO_MS. -/
  | helloSend (port : Nat)
  /-- HELLO_RECEIVE (R469). A HELLO records a neighbour, and its map version may trigger a cable-map send. -/
  | helloReceive (port : Nat) (payload : Bytes)
  /-- NEIGHBOUR_LOST (R469). Three intervals pass without a HELLO, and the neighbour is lost. -/
  | neighbourLost (port : Nat)
  /-- ADDR_REQ_SEND (R472). An unassigned device sends its observations in an ADDR_REQ. -/
  | addrReqSend
  /-- ADDR_REQ_RECEIVE (R472). A proxy forwards an ADDR_REQ, or a master matches it and assigns or refuses. -/
  | addrReqReceive (port : Nat) (src : Nat) (payload : Bytes)
  /-- ADDR_ASSIGN_RECEIVE (R472). ADDR_ASSIGN sets FABRIC_ADDRESS. -/
  | addrAssignReceive (payload : Bytes)
  /-- ADDR_REFUSE_RECEIVE (R473). ADDR_REFUSE records the refusal code. -/
  | addrRefuseReceive (payload : Bytes)
  /-- ADDR_RETRY (R473). A refused device asks again every 10 s. -/
  | addrRetry
  /-- ADDR_MASTER_TIMEOUT (R473). No acting master is reachable after 1 s. -/
  | addrMasterTimeout
  /-- LSA_RECEIVE (R474). A newer LSA is kept, flooded, and updates the member table. -/
  | lsaReceive (port : Nat) (payload : Bytes)
  /-- LSA_PERIODIC (R474). Each device floods an LSA every 1 s. -/
  | lsaPeriodic
  /-- CABLE_MAP_WRITE (R470). A cable map is checked and stored. -/
  | cableMapWrite (data : Bytes)
  /-- ROUTE_TABLE_WRITE (R475). A new route table takes effect at its LAST segment. -/
  | routeTableWrite (data : Bytes)
  /-- POLICER_WRITE (R482). A policer record is written and its buckets filled. -/
  | policerWrite (data : Bytes)
  /-- SHAPER_WRITE (R484). A changed shaper record resets its bucket. -/
  | shaperWrite (data : Bytes)
  /-- OFFSET_EXCHANGE (R487). Every 1 ms, an offset exchange is sent while an offset is measured. -/
  | offsetExchange (peer : Nat)
  /-- OFFSET_REQ_RECEIVE (R486). An OFFSET_REQ is answered within 10 µs. -/
  | offsetReqReceive (src : Nat) (payload : Bytes)
  /-- OFFSET_RESP_RECEIVE (R487). An OFFSET_RESP is timestamped and kept if its round trip is the best. -/
  | offsetRespReceive (src : Nat) (payload : Bytes)
  /-- FANOUT_PORT_ACK (R480). A fan-out port is acknowledged and gives its buffer name. -/
  | fanoutPortAck (delivery : Nat) (index : Nat) (ok : Bool)
  /-- ROCE_ACK_RECEIVE (R504). An acknowledgement advances the path and clears its retry count. -/
  | roceAckReceive (conn : Nat) (path : Nat) (psn : Nat)
  /-- ROCE_NAK_RECEIVE (R504). A NAK resends or puts the path in error. -/
  | roceNakReceive (conn : Nat) (path : Nat) (psn : Nat) (syndrome : Nat)
  /-- ROCE_ACK_TIMEOUT (R504). No progress for ACK_TIMEOUT_NS resends from the oldest unacknowledged PSN. -/
  | roceAckTimeout (conn : Nat) (path : Nat)
  /-- PATH_HOLD_TIMEOUT (R506). A path suspended for PATH_HOLD_MS fails. -/
  | pathHoldTimeout (conn : Nat) (path : Nat)
  /-- CONN_REARM (R507). CONN_REARM restarts a failed path from its record. -/
  | connRearm (conn : Nat) (path : Nat)
  /-- CONN_TABLE_WRITE (R495). The connection table is checked and written. -/
  | connTableWrite (data : Bytes)
  /-- GRANTS_WRITE (R497). The grant table is written. -/
  | grantsWrite (data : Bytes)
  /-- REUSE_HOLD_EXPIRE (R500). MAX_PKT_LIFE_US passes, and a held buffer or commit write may go. -/
  | reuseHoldExpire (held : Nat)
  /-- ETH_FRAME_RECEIVE (R492). An Ethernet frame is handled as RoCE or PFC, or dropped as foreign. -/
  | ethFrameReceive (port : Nat) (occupied : Nat) (frame : Bytes)
  /-- PFC_RECEIVE (R491). A PFC frame pauses or resumes ROCE_PRIO traffic. -/
  | pfcReceive (port : Nat) (mask : Nat) (quanta : Nat)
  /-- PFC_PAUSE_EXPIRE (R491). A received pause expires. -/
  | pfcPauseExpire (port : Nat)
  /-- PFC_XOFF_REPEAT (R491). XOFF is repeated every 50 µs while occupancy stays high. -/
  | pfcXoffRepeat (port : Nat) (occupied : Nat)
  /-- PFC_STORM (R491). A port paused for PFC_STORM_MS fails every path on it. -/
  | pfcStorm (port : Nat)
  /-- INBOUND_WRITE (R502). An inbound write executes only when its path, key and range pass. -/
  | inboundWrite (conn : Nat) (path : Nat) (psn : Nat) (opcode : Nat) (key : Nat) (addr : Nat) (dlen : Nat) (data : Bytes)
  /-- SR_WRITE_RECEIVE (R510). An SR WRITE executes once per PSN. -/
  | srWriteReceive (src : Nat) (payload : Bytes)
  /-- SR_SACK_RECEIVE (R509). A SACK advances the window and triggers selective resends. -/
  | srSackReceive (src : Nat) (payload : Bytes)
  /-- SR_ACK_TIMEOUT (R509). CUM does not change for ACK_TIMEOUT_NS, and every unacknowledged PSN is resent. -/
  | srAckTimeout (conn : Nat)
  /-- SR_SACK_TIMER (R510). The receiver sends a SACK within 2 µs of a frame. -/
  | srSackTimer (conn : Nat)
  /-- HEARTBEAT_SEND (R519). A holder sends a HEARTBEAT every HB_US. -/
  | heartbeatSend
  /-- HEARTBEAT_MISS (R519). No HEARTBEAT for HB_MISS × HB_US, and the partner declares a KIND 1 fault. -/
  | heartbeatMiss (role : Nat)
  /-- SELF_FENCE (R522). A holder that hears no heartbeat for HB_MISS intervals fences itself. -/
  | selfFence
  /-- RECOVERY_RESEND (R518). An unanswered recovery message is sent again every 100 µs. -/
  | recoveryResend
  /-- FAULT_RECEIVE (R521). The coordinator sends ROLE_REQ to the spare and forwards the FAULT. -/
  | faultReceive (src : Nat) (payload : Bytes)
  /-- ROLE_REQ_RECEIVE (R523). A spare accepts a role request and prepares takeover. -/
  | roleReqReceive (src : Nat) (payload : Bytes)
  /-- ROLE_ACK_RECEIVE (R521). The new holder is recorded, and the job coordinator sends ROLLBACK. -/
  | roleAckReceive (src : Nat) (payload : Bytes)
  /-- ROLLBACK_RECEIVE (R526). A member discards unsealed work, sends SEAL_MARK and reloads its tiles. -/
  | rollbackReceive (src : Nat) (payload : Bytes)
  /-- SEAL_MARK_RECEIVE (R526). SEAL_MARK gives a rank's last sealed step. -/
  | sealMarkReceive (src : Nat) (payload : Bytes)
  /-- ROLLBACK_RESTART (R526). With every SEAL_MARK held, the member restarts at R_m. -/
  | rollbackRestart
  /-- SEAL_INTENT_RECEIVE (R516). A partner stores a SEAL_INTENT and answers INTENT_ACK. -/
  | sealIntentReceive (src : Nat) (payload : Bytes)
  /-- INTENT_ACK_RECEIVE (R516). The owner records the ack and may issue the seal. -/
  | intentAckReceive (src : Nat) (payload : Bytes)
  /-- MIRROR_RECEIVE (R515). A MIRROR message updates a role's mirror. -/
  | mirrorReceive (src : Nat) (payload : Bytes)
  /-- REBUILD_DONE (R524). A stand-in finishes rebuilding the role's namespace. -/
  | rebuildDone
  /-- STRAGGLER_DETECT (R530). A member whose slack stays low for STRAG_STEPS steps gets a ROLE_REQ REASON 2. -/
  | stragglerDetect (role : Nat)
  /-- SWAP_BOUNDARY (R531). At boundary b, targets from b + JOB_LEAD pass to the new holder. -/
  | swapBoundary
  /-- ROLE_CMD (R533). A maintainer starts a planned swap or return. -/
  | roleCmd (value : Nat)
  /-- RECOVERY_SLACK_EVAL (R536). Each step, the single-loss margin is evaluated into RECOVERY_SLACK_NS. -/
  | recoverySlackEval
  /-- SLOT_DONE_HOLD_RELEASE (R542). A held SLOT_DONE is released after passing cell and hub canaries. -/
  | slotDoneHoldRelease (index : Nat)
  /-- CANARY_TICK (R544). Every 1 ms each cell suspends its item and runs a known-answer canary. -/
  | canaryTick (tile : Nat) (bad : Nat) (answered : Bool)
  /-- HUB_CANARY (R545). Every 1,600,000 hclk a hub canary checks Quadrille, Cotillion and Pavane. -/
  | hubCanary (hub : Nat) (unit : Nat) (pass : Bool)
  /-- SAFETY_REACTION (R549). A detection closes seal gates, quarantines the unit and fences the member. -/
  | safetyReaction (mode : Nat) (unitKind : Nat) (unit : Nat) (rank : Nat) (detail : Nat) (senders : List Nat)
  /-- COMMIT_WATCHDOG (R550). 1,000 µs after an unreported deadline, the safety controller sends MISS and reacts. -/
  | commitWatchdog (step : Nat) (rank : Nat)
  /-- SEAL_HOLD_RELEASE (R552). The safety controller returns SEAL_HOLD to 0 once its conditions hold. -/
  | sealHoldRelease
  /-- HUB0_WATCHDOG_EXPIRE (R554). The safety controller has not served the watchdog for 100 µs, and FAULT_N is asserted. -/
  | hub0WatchdogExpire
  /-- SEAL_GATE_TIMEOUT (R554). A hub does not confirm its seal gate within 10 µs, and FAULT_N is asserted. -/
  | sealGateTimeout (hub : Nat)
  /-- SAFETY_HEARTBEAT (R556). The safety heartbeat is sent every SAFE_HB_MS. -/
  | safetyHeartbeat
  /-- SAFE_TEST (R559). Writing SAFE_TEST injects a residue error into the next item on T00. -/
  | safeTest (value : Nat)
  /-- SLEEP_CMD (R565). SLEEP_CMD starts sleep entry. -/
  | sleepCmd (value : Nat)
  /-- SLEEP_STAGE_DONE (R566). A sleep-entry stage completes, and the next starts or power-down follows. -/
  | sleepStageDone (durable : List Nat)
  /-- WAKE_N (R567). WAKE_N held low for 1 ms wakes the package. -/
  | wakeN (lowUs : Nat)
  /-- WAKE_DATAGRAM (R567). A wake datagram with a matching tag wakes the package. -/
  | wakeDatagram (udpPort : Nat) (payload : Bytes)
  /-- QUAD_OP (R570). QUAD_OP changes a quadrant's operating point. -/
  | quadOp (quad : Nat) (value : Nat)
  /-- PLL_RELOCK_DONE (R570). The quadrant PLL relocks, and its tiles resume. -/
  | pllRelockDone (quad : Nat)
  /-- AVS_ACK (R572). A voltage target is acknowledged. -/
  | avsAck (rail : Nat) (mv : Nat)
  /-- AVS_ACK_TIMEOUT (R572). A target not acknowledged within AVS_ACK_US is rewritten, or the rail fails. -/
  | avsAckTimeout (rail : Nat)
  /-- TEMP_WARN (R575). A die reaches TEMP_WARN and a warning is set. -/
  | tempWarn (temp : Int)
  /-- TEMP_TRIP (R575). A die reaches TEMP_TRIP, and the member declares KIND 3 and fences. -/
  | tempTrip (temp : Int)
  /-- AGEING_SAMPLE (R576). Every 60 s the ageing monitors are sampled. -/
  | ageingSample (values : List Nat)
  /-- REPLAN (R577). Every REPLAN_DAYS the voltages, lasers and flash are re-planned. -/
  | replan (measured : List (Nat × Nat × Nat × Nat))
  /-- REPLAN_NOW (R577). A write of 0x0000_A6E1 starts a re-plan. -/
  | replanNow (value : Nat)
  /-- FW_BLOCK (R582). A manifest or body block of a firmware image is written. -/
  | fwBlock (sid : Nat) (data : Bytes)
  /-- FW_VERIFY_DONE (R585). Image verification completes with Verified or Invalid. -/
  | fwVerifyDone
  /-- FW_ACTIVATE (R586). FW_ACTIVATE starts loader service. -/
  | fwActivate (value : Nat)
  /-- LOADER_RUN (R587). The resident loader installs the image and starts it. -/
  | loaderRun
  /-- FIRST_START (R588). New firmware migrates settings, runs canaries and mounts. -/
  | firstStart (checksOk : Bool)
  /-- FW_CONFIRM (R589). A write of 0x0000_C0F1 confirms the new image. -/
  | fwConfirm (value : Nat)
  /-- INT_SOURCE_EDGE (R595). A rising edge of a source line sets PENDING, or OVERRUN. -/
  | intSourceEdge (id : Nat)
  /-- INT_CLAIM (R596). Reading INT_CLAIM returns and clears the best pending source. -/
  | intClaim (target : Nat)
  /-- INT_COMPLETE (R595). Writing INT_COMPLETE re-latches a source whose line is still high. -/
  | intComplete (agent : Nat) (target : Nat) (id : Nat)
  /-- INT_SWI (R594). Writing INT_SWI raises private software interrupts. -/
  | intSwi (agent : Nat) (target : Nat) (mask : Nat)
  /-- INT_TIMER (R594). The timestamp reaches INT_TIMECMP and private source 32 rises. -/
  | intTimer (target : Nat)
  /-- INT_TARGET_WRITE (R598). A TARGET write moves a pending source to a new target. -/
  | intTargetWrite (agent : Nat) (id : Nat) (target : Nat)
  /-- ADDRERR_READ (R41). Reading ADDRERR returns and clears the first address-error event. -/
  | addrerrRead (agent : Nat) (hub : Nat)
  /-- COUNT_ENABLE (R604). COUNT_ENABLE starts counting from zero, or stops it. -/
  | countEnable (value : Nat)
  /-- COUNT_SNAPSHOT (R605). Reading COUNT_SNAPSHOT takes per-unit counters in one hub clock. -/
  | countSnapshot
  /-- WFG_NOW (R606). WFG_NOW triggers a wait-for graph. -/
  | wfgNow (value : Nat)
  /-- HANG_DETECT (R606). A tile without progress for HANG_MS triggers a graph. -/
  | hangDetect (tile : Nat)
  /-- WFG_SECOND_PASS (R607). 100 µs after the first pass, inputs are read again and the graph is marked. -/
  | wfgSecondPass
  /-- GLOBAL_STOP (R612). A global stop freezes every tile and hub within 12 tclk. -/
  | globalStop
  /-- STOP_N_FALL (R612). STOP_N low starts a global stop. -/
  | stopNFall
  /-- GLOBAL_RELEASE (R615). A release restarts every clock, or is held while STOP_N is low. -/
  | globalRelease
  /-- STOP_N_RISE (R615). STOP_N rises, and a pending release takes effect. -/
  | stopNRise
  /-- SCAN_OUT_READ (R619). Reading SCAN_OUT rotates out every scan chain. -/
  | scanOutRead
  /-- MEM_OUT_READ (R619). Reading MEM_OUT returns frozen memory. -/
  | memOutRead
  /-- TMUX_SEL (R620). TMUX_SEL selects the signal for a test-mux output. -/
  | tmuxSel (output : Nat) (value : Nat) (sid : Nat)
  /-- JTAG_EXTEST (R625). EXTEST takes the balls from the device. -/
  | jtagExtest (pattern : Bytes)
  /-- JTAG_SAMPLE_PRELOAD (R623). SAMPLE/PRELOAD captures the boundary register. -/
  | jtagSamplePreload (pattern : Bytes)
  /-- JTAG_IDCODE (R623). IDCODE returns 0x1081_27CB. -/
  | jtagIdcode
  /-- JTAG_CLAMP (R625). CLAMP holds the boundary outputs. -/
  | jtagClamp
  /-- JTAG_HIGHZ (R625). HIGHZ floats the outputs. -/
  | jtagHighz
  /-- JTAG_STOP (R623). The JTAG STOP instruction starts a global stop. -/
  | jtagStop
  /-- JTAG_RELEASE (R623). The JTAG RELEASE instruction releases a stop. -/
  | jtagRelease
  /-- JTAG_SCAN (R617). SCAN rotates one chain out. -/
  | jtagScan (chain : Nat)
  /-- JTAG_MEMRD (R623). MEMRD reads memory during a stop. -/
  | jtagMemrd (addr : Nat) (len : Nat)
  /-- JTAG_UNLOCK (R624). UNLOCK checks the HMAC and unlocks the locked instructions. -/
  | jtagUnlock (proof : Bytes)
  /-- JTAG_STATUS (R623). STATUS returns the stop status and a fresh nonce. -/
  | jtagStatus
  /-- JTAG_BYPASS (R623). BYPASS, or any unlisted opcode, passes data through. -/
  | jtagBypass (opcode : Nat) (data : Bytes)
  /-- TEST_LOGIC_RESET (R624). Test-Logic-Reset selects IDCODE and ends an unlock. -/
  | testLogicReset
  /-- RESET_N (R631). RESET_N low lowers every output; its rise starts the power sequence. -/
  | resetN (low : Bool)
  /-- POWER_UP_STEP (R631). A PG input rises, and the sequencer raises the next group. -/
  | powerUpStep
  /-- PG_TIMEOUT (R633). A PG does not rise within 10 ms, and the sequence is torn down. -/
  | pgTimeout
  /-- SEQ_RETRY (R633). 1 s after a failed sequence it is retried, up to three times. -/
  | seqRetry
  /-- POWER_DOWN_STEP (R632). A PG falls, and the sequencer lowers the next group. -/
  | powerDownStep
  /-- PG_FALL_ACTIVE (R633). A PG falls in Active and is handled as a failed rail. -/
  | pgFallActive (group : Nat)
  /-- POWER_ON_RESET (R643). Power-on or loss of VAON or VIO resets and zero-fills the package. -/
  | powerOnReset
  /-- CANCEL_ACK_TIMEOUT (R519). A commit owner that receives no CANCEL_ACK within 1 ms declares a KIND 5 unit fault against the home member. -/
  | cancelAckTimeout
  /-- BLOCK_ERASE_DONE (R412). A multi-plane erase completes, returning a superblock to the free store and letting garbage collection or a secure discard progress or complete. -/
  | blockEraseDone (sb : Nat)
  /-- PCIE_LINK_CHANGE (R593). The PCIe link trains up, goes down or changes rate or width, and the endpoint pulses shared source 0x187. -/
  | pcieLinkChange (up : Bool) (rate : Nat) (width : Nat)
  /-- SYNTH_LOCK_LOST (R444). The port synthesiser loses lock while the port is Acquiring, and the port returns to Settling. -/
  | synthLockLost (port : Nat)
  /-- PARTNER_LANE_CONTROL (R451). A marker from the partner carries a lane-control request for a swap, return or narrower width that this end did not start, and this end takes part. -/
  | partnerLaneControl (port : Nat) (op : Nat) (lane : Nat)
deriving DecidableEq, Repr

end Sys2Proof
end

