-- ==== Sys2Proof/Machine/Bits.lean ====
section
/-!
DEFINITION. Sys2Proof/Machine/Bits.lean: bit fields, byte order, sign extension and the small list helpers
every family uses. Byte order is decided here, once (R15: least significant byte first; Acsal frame headers
most significant byte first).
-/
namespace Sys2Proof
namespace Machine

/-- Bits [hi:lo] of n, as R14 writes a bit field. -/
def bits (n hi lo : Nat) : Nat := (n >>> lo) % 2 ^ (hi + 1 - lo)

/-- Bit i of n as a Bool. -/
def bit (n i : Nat) : Bool := n.testBit i

/-- 1 for true, 0 for false. -/
def b2n (b : Bool) : Nat := if b then 1 else 0

/-- n truncated to w bits. -/
def trunc (w n : Nat) : Nat := n % 2 ^ w

/-- The two's-complement reading of the low w bits of n. -/
def signed (w n : Nat) : Int :=
  let m := n % 2 ^ w
  if m < 2 ^ (w - 1) then (m : Int) else (m : Int) - (2 ^ w : Nat)

/-- The low w bits of an integer, as an unsigned number. -/
def unsigned (w : Nat) (i : Int) : Nat := (i % ((2 ^ w : Nat) : Int)).toNat

/-- The number a byte string spells, least significant byte first (R15). -/
def leNat : Bytes → Nat
  | [] => 0
  | b :: bs => b.toNat + 256 * leNat bs

/-- k bytes of n, least significant first (R15). -/
def natLe : Nat → Nat → Bytes
  | 0, _ => []
  | k + 1, n => BitVec.ofNat 8 n :: natLe k (n / 256)

/-- k bytes of n, most significant first (published protocols and Acsal headers, R15). -/
def natBe (k n : Nat) : Bytes := (natLe k n).reverse

/-- The number a byte string spells, most significant byte first. -/
def beNat (bs : Bytes) : Nat := leNat bs.reverse

/-- k zero bytes. -/
def zeros (k : Nat) : Bytes := List.replicate k 0#8

/-- k bytes of bs from offset o, zero where bs is shorter. -/
def slice (bs : Bytes) (o k : Nat) : Bytes :=
  let x := (bs.drop o).take k
  x ++ zeros (k - x.length)

/-- The little-endian field of k bytes at offset o of a structure. -/
def leField (bs : Bytes) (o k : Nat) : Nat := leNat ((bs.drop o).take k)

/-- The big-endian field of k bytes at offset o of a header. -/
def beField (bs : Bytes) (o k : Nat) : Nat := beNat ((bs.drop o).take k)

/-- bs with the bytes x put at offset o (bs is taken as long enough). -/
def patch (bs : Bytes) (o : Nat) (x : Bytes) : Bytes :=
  bs.take o ++ x ++ bs.drop (o + x.length)

/-- Consecutive records of n bytes of a byte string; a shorter rest is dropped. fuel bounds the count. -/
def chunksFuel (n : Nat) : Nat → Bytes → List Bytes
  | 0, _ => []
  | f + 1, bs => if bs.length < n then [] else bs.take n :: chunksFuel n f (bs.drop n)

/-- Consecutive records of n bytes. -/
def chunks (n : Nat) (bs : Bytes) : List Bytes := chunksFuel n (bs.length / n) bs

/-- Number of 1 bits among the low w bits of n. -/
def popcount : Nat → Nat → Nat
  | 0, _ => 0
  | w + 1, n => n % 2 + popcount w (n / 2)

/-- ceil (a / b). -/
def ceilDiv (a b : Nat) : Nat := (a + b - 1) / b

/-- Serial comparison over n bits (R641): the distance (a - b) mod 2^n. -/
def serialDiff (n a b : Nat) : Nat := (a + 2 ^ n - b % 2 ^ n) % 2 ^ n

/-- a is newer than b by serial comparison over n bits (R641). -/
def serialNewer (n a b : Nat) : Bool :=
  let d := serialDiff n a b
  1 ≤ d && d < 2 ^ (n - 1)

/-- The ASCII bytes of a string of ASCII characters. -/
def ascii (s : String) : Bytes := s.toList.map fun c => BitVec.ofNat 8 c.toNat

/-- Reverse the low w bits of n. -/
def revBits : Nat → Nat → Nat
  | 0, _ => 0
  | w + 1, n => (n % 2) * 2 ^ w + revBits w (n / 2)

/-- The position of the highest 1 bit of n among the low w bits, counted from 1; 0 when there is none. -/
def bitLen : Nat → Nat → Nat
  | 0, _ => 0
  | w + 1, n => if n.testBit w then w + 1 else bitLen w n

/-- The first failure of a list of checks, each a condition with what fails where it does not hold. -/
def firstFail {α : Type} : List (Bool × α) → Option α
  | [] => none
  | (ok, f) :: r => if ok then firstFail r else some f

/-- The first failure over a list. -/
def firstOver {α β : Type} (xs : List α) (g : α → Option β) : Option β :=
  match xs with
  | [] => none
  | x :: r => match g x with
    | some f => some f
    | none => firstOver r g

end Machine
end Sys2Proof
end

