-- ==== Sys2Proof/Config.lean ====
section
/-!
DEFINITION. Sys2Proof/Config.lean: what one part fixes in fuses or ROM, and the free values of the model.
Every constant here is opaque: it has no body, so nothing in Lean can evaluate it or prove a value of it.
What is stated of a machine holds for every value of these constants.
-/
namespace Sys2Proof
namespace Config

/-- The free value drawn with number n: where the spec says that a value is undefined, random or of an unstated
amount, and the machine goes on, the command takes the next number of State's free counter and uses this value.
Notes: assumption log 1. -/
opaque freeValue : Nat → Nat

/-- Bytes of the random bit generator of R85, by draw number. Notes: assumption log 2. -/
opaque randomByte : Nat → Byte

/-- SERIAL (OD 0x1018:04), per part (R72). -/
opaque serial : BitVec 64

/-- STEPPING (OD 0x1018:03), per part (R72). -/
opaque stepping : BitVec 32

/-- The vendor key held in fuses (R73). -/
opaque vendorKey : Bytes

/-- The factory maintainer key, default of OD 0x1110:03 (R72). -/
opaque factoryKey : Bytes

/-- FW_VERSION of the image in the part, as bytes (R72). -/
opaque fwVersion : Bytes

/-- FW_IFACE_VERSION of the image in the part (R72). -/
opaque fwIfaceVersion : BitVec 32

/-- MGMT_MAC, derived from SERIAL in a way the spec does not give (R72). -/
opaque mgmtMac : Bytes

/-- PORT_MAC of port number 4k + p, derived from SERIAL in a way the spec does not give (R512). -/
opaque portMac : Nat → Bytes

/-- SEC_FUSE, the fused security version at first service (R581, R591). -/
opaque secFuse : BitVec 32

/-- SCAN_MAP, the list of scan chains of the part (R619). -/
opaque scanMap : Bytes

/-- The frozen bits of a scan chain in a stop, by the stop's draw number and the chain: the spec gives no layout of the chains
(R617). Notes: assumption log 48. -/
opaque scanChain : Nat → Nat → Bytes

/-- The 64 bits JTAG STATUS shifts out, of STOP_STATUS and the unlock state: the spec gives them no places (R623). -/
opaque jtagStatus : Nat → Bool → Nat

/-- The threads an image's proof record lists as able to release a sync object, as tile * 8 + thread (R607). Notes:
assumption log 18. -/
opaque proofReleasers : Bytes → Nat → List Nat

/-- The declared rate in bytes per second of a step-locked channel, as the image's proof record gives it; the spec
gives the proof record no layout (R130, R217). Notes: assumption log 18. -/
opaque channelRate : Bytes → Nat → Nat

/-- The fixed setup time in ns of a step-locked channel (R130). Notes: assumption log 18. -/
opaque channelSetup : Bytes → Nat → Nat

/-- Does a proof record attest the cache point of a stream (R157)? Notes: assumption log 18. -/
opaque proofAttests : Bytes → Nat → Bool

/-- SHARE_NS_EC and SHARE_NS_OWN as a proof record gives them (R537). Notes: assumption log 18. -/
opaque proofShares : Bytes → Nat × Nat

/-- What the parameter pages of the dies in use give as rated endurance above the 1,000 cycles R384 asks for (R413). -/
opaque ratedExtra : Nat

/-- Where the dataset link section of an image (R217, type 0x0A) puts the sample-table entry of a sample, as a byte
position of the namespace; the spec gives the section no layout (R149). Notes: assumption log 32. -/
opaque sampleEntryAt : Bytes → Nat → Nat

/-- Where it puts the home-map entry of a sample (R147). Notes: assumption log 32. -/
opaque homeEntryAt : Bytes → Nat → Nat

/-- The dataset's sample count N (R146). Notes: assumption log 32. -/
opaque datasetCount : Bytes → Nat

/-- SCHEMA_HASH of the dataset version (R219, limit 0x13). Notes: assumption log 32. -/
opaque datasetSchema : Bytes → Bytes

/-- The inbound key of hub 0 to 3's grammar area, and (4) the index of the credit-area key: the spec gives the device's
choice of keys no value (R501). Notes: assumption log 35. -/
opaque inboundKey : Nat → Nat

/-- LIMIT and RESERVE of pool owner o as a proof record sets them at job load (R337). Notes: assumption log 18. -/
opaque proofOwner : Bytes → Nat → Nat × Nat

/-- Where the credit area of a job without a KIND 1 rank stands, as a package address; the spec does not say (R162).
Notes: assumption log 36. -/
opaque creditAreaAt : Nat

/-- Bytes that the token byte table and the token trie of a vocabulary take (R365); at the largest vocabulary the three
structures take at most 16 MiB. Notes: assumption log 42. -/
opaque textTables : Bytes → Nat

/-- Bias of laser channel 18k + j at commissioning, in 25 microampere units, per part (R580). -/
opaque commissionBias : Nat → Nat

/-- What VOLT_TABLE holds for a point that a rail does not have; the spec does not say (R569, R591). -/
opaque voltAbsent : Nat → Nat

/-- The bytes AGEING_LOG reads as, from the hourly means by monitor: the spec gives the log no layout (R576). -/
opaque ageingBytes : List (Nat × List Nat) → Bytes

/-- Does a P-384 signature over bytes match under the public key in fuses (R581)? Notes: assumption log 47. -/
opaque signatureOk : Bytes → Bytes → Bool

/-- The settings version the part's factory image stored (R588). -/
opaque factorySettings : Nat

/-- What an image's migration table makes of a stored entry: image body, key, stored bytes; none when the entry no longer
exists (R588). Notes: assumption log 47. -/
opaque migrated : Bytes → Nat → Bytes → Option Bytes

end Config
end Sys2Proof
end

