-- ==== Sys2Proof/Machine/OdTable.lean ====
section
/-!
DEFINITION. Sys2Proof/Machine/OdTable.lean: the object dictionary's entries as the spec's dictionary tables list
them (R63, R71, R72, R136, R178, R223, R290, R297, R327, R361, R381, R414, R440, R459, R488, R512, R537, R560,
R591, R626, R640): index, subindices, type, levels, default, persistence, range and the job mark. Each key is
named in Od as the spec names the entry; the value of a key is index * 256 + subindex.
-/
namespace Sys2Proof
namespace Machine

/-- Entry types (R64). RECORD and ARRAY have no row: their subindex 0 is made by R71. -/
inductive OdType where
  | bool
  | unsigned (size : Nat)
  | signed (size : Nat)
  | octets (n : Nat)
  | str
  | domain
deriving DecidableEq, Repr

/-- A value of the dictionary: a number (two's complement within its width) or bytes. -/
inductive OdVal where
  | num (n : Nat)
  | bytes (b : Bytes)
deriving DecidableEq, Repr

/-- Persistence classes (R66). -/
inductive Persist where
  | n | y | yr | c
deriving DecidableEq, Repr

/-- The values an entry takes (R69): every value of its type, a range, a list, or the named bits only. -/
inductive OdRange where
  | full
  | between (lo hi : Int)
  | oneOf (vs : List Nat)
  | bitsOf (mask : Nat)
deriving DecidableEq, Repr

/-- One row of a dictionary table: subindices lo to hi of an index. Levels are 0 to 3 as OWN_LEVEL numbers them,
255 for no session (R65, R77). -/
structure OdEntry where
  index : Nat
  lo : Nat
  hi : Nat
  ty : OdType
  rl : Nat
  wl : Nat
  dflt : OdVal
  persist : Persist
  range : OdRange
  job : Bool
deriving DecidableEq, Repr

namespace Od

/-- OD 0x1000:00 (U32, O/–, default 0x4D38_0001, C; R72). -/
def DEVICE_TYPE : Nat := 0x100000
/-- OD 0x1008:00 (STRING, O/–, default 'Manatos M8', C; R72). -/
def DEVICE_NAME : Nat := 0x100800
/-- OD 0x100A:00 (STRING, O/–, default Per image, N; R72). -/
def FW_VERSION : Nat := 0x100A00
/-- OD 0x100B:00 (U32, O/–, default Per image, N; R72). -/
def FW_IFACE_VERSION : Nat := 0x100B00
/-- OD 0x1011:01 (U32, –/M, default 0, N; R72). -/
def RESTORE_DEFAULTS : Nat := 0x101101
/-- OD 0x1018:00 (U8, O/–, default 4, C; R72). -/
def IDENTITY : Nat := 0x101800
/-- OD 0x1018:01 (U32, O/–, default 0x0000_5653, C; R72). -/
def VENDOR_ID : Nat := 0x101801
/-- OD 0x1018:02 (U32, O/–, default 0x0008_1200, C; R72). -/
def PRODUCT_CODE : Nat := 0x101802
/-- OD 0x1018:03 (U32, O/–, default Per part, C; R72). -/
def STEPPING : Nat := 0x101803
/-- OD 0x1018:04 (U64, O/–, default Per part, C; R72). -/
def SERIAL : Nat := 0x101804
/-- OD 0x1020:00 (U16, O/–, default 0xFFFF, N; R72). -/
def FABRIC_ADDRESS : Nat := 0x102000
/-- OD 0x1100:01 (U8, O/–, default —, N; R72). -/
def OWN_LEVEL : Nat := 0x110001
/-- OD 0x1100:02 (U32, O/–, default —, N; R72). -/
def OWN_SESSION : Nat := 0x110002
/-- OD 0x1100:03 (U8, O/–, default 0, N; R72). -/
def OPEN_SESSIONS : Nat := 0x110003
/-- OD 0x1101:00 (U32, O/M, default 60,000, Y; R72). -/
def IDLE_TIMEOUT : Nat := 0x110100
/-- OD 0x1102:01 (U8, O/M, default 5, Y; R72). -/
def AUTH_FAIL_LIMIT : Nat := 0x110201
/-- OD 0x1102:02 (U32, O/M, default 60,000, Y; R72). -/
def AUTH_LOCKOUT : Nat := 0x110202
/-- OD 0x1102:03 (U8, O/–, default 0, N; R72). -/
def LOCKED_LEVELS : Nat := 0x110203
/-- OD 0x1110:01 (OCTETS 32, –/M, default All zero, Y; R72). -/
def KEY_OBSERVER : Nat := 0x111001
/-- OD 0x1110:02 (OCTETS 32, –/M, default All zero, Y; R72). -/
def KEY_OPERATOR : Nat := 0x111002
/-- OD 0x1110:03 (OCTETS 32, –/M, default Factory key, Y; R72). -/
def KEY_MAINTAINER : Nat := 0x111003
/-- OD 0x1200:01 (BOOL, O/M, default 1, YR; R72). -/
def MGMT_ENABLE : Nat := 0x120001
/-- OD 0x1200:02 (U8, O/M, default 0xFF, YR; R72). -/
def PLCA_NODE_ID : Nat := 0x120002
/-- OD 0x1200:03 (U8, O/M, default 8, YR; R72). -/
def PLCA_NODE_COUNT : Nat := 0x120003
/-- OD 0x1200:04 (U16, O/M, default 0xB0B8, YR; R72). -/
def MGMT_UDP_PORT : Nat := 0x120004
/-- OD 0x1200:05 (OCTETS 6, O/–, default From SERIAL, C; R72). -/
def MGMT_MAC : Nat := 0x120005
/-- OD 0x1210:01 (BOOL, O/M, default 1, YR; R72). -/
def FABRIC_DICT_ENABLE : Nat := 0x121001
/-- OD 0x1210:02 (U8, O/M, default 32, YR; R72). -/
def FABRIC_MAX_SESSIONS : Nat := 0x121002
/-- OD 0x1220:01 (BOOL, O/M, default 1, YR; R72). -/
def MBX_ENABLE : Nat := 0x122001
/-- OD 0x1220:02 (U8, O/M, default 4, YR; R72). -/
def MBX_MAX_SESSIONS : Nat := 0x122002
/-- OD 0x1230:00 (U8, O/M, default 8, YR; R72). -/
def MGMT_MAX_SESSIONS : Nat := 0x123000
/-- OD 0x1300:01 (U8, O/M, default 1, Y; R440). -/
def PCIE_RING_LEVEL : Nat := 0x130001
/-- OD 0x1300:02 (U16, O/M, default 256, YR; R440). -/
def FABRIC_RINGS_MAX : Nat := 0x130002
/-- OD 0x1300:03 (U16, O/–, default 0, N; R440). -/
def RINGS_OPEN : Nat := 0x130003
/-- OD 0x1300:04 (U16, O/–, default 0, N; R440). -/
def RINGS_FROZEN : Nat := 0x130004
/-- OD 0x1320:00 (DOMAIN, O/–, default Empty, N; R440). -/
def ERROR_LOG : Nat := 0x132000
/-- OD 0x1321:01 (U32, O/–, default 0, N; R440). -/
def ERR_SEQ_LAST : Nat := 0x132101
/-- OD 0x1321:02 (U32, –/P, default 0, N; R440). -/
def FABRIC_RING_RESTART : Nat := 0x132102
/-- OD 0x1400:01 (U32, O/–, default 0, N; R72). -/
def CONFLICT_COUNT : Nat := 0x140001
/-- OD 0x1400:02 (U32, O/–, default 0, N; R72). -/
def CONFLICT_LAST : Nat := 0x140002
/-- OD 0x1400:03 (U8, O/–, default 0xFF, N; R72). -/
def CONFLICT_LOSER : Nat := 0x140003
/-- OD 0x2000:01 (U8, O/–, default 0, N; R178). -/
def JOB_STATE : Nat := 0x200001
/-- OD 0x2000:02 (U64, O/–, default 0, N; R178). -/
def JOB_ID : Nat := 0x200002
/-- OD 0x2000:03 (U16, O/–, default 0, N; R178). -/
def JOB_FAIL : Nat := 0x200003
/-- OD 0x2000:04 (U64, O/–, default 0, N; R178). -/
def STEPS_PER_EPOCH : Nat := 0x200004
/-- OD 0x2000:05 (U64, O/–, default 0, N; R178). -/
def LAST_STEP : Nat := 0x200005
/-- OD 0x2000:06 (U64, O/–, default 0, N; R178). -/
def LAST_COMMITTED : Nat := 0x200006
/-- OD 0x2010:01 (U8, O/P, default 0, Y; R178). -/
def QUAR_POLICY : Nat := 0x201001
/-- OD 0x2010:02 (U8, O/P, default 0x00, Y; R178). -/
def FILL_BYTE : Nat := 0x201002
/-- OD 0x2010:03 (U8, O/P, default 1, Y; R178). -/
def CACHE_MODE : Nat := 0x201003
/-- OD 0x2010:04 (U16, O/P, default 64, Y; R178). -/
def CREDIT_STALL_STEPS : Nat := 0x201004
/-- OD 0x2011:00 (U32, –/P, default 0, N; R178). -/
def CACHE_FLUSH : Nat := 0x201100
/-- OD 0x2020:01 (U64, O/–, default 0, N; R178). -/
def QUARANTINED : Nat := 0x202001
/-- OD 0x2020:02 (U64, O/–, default 0, N; R178). -/
def SUBSTITUTED : Nat := 0x202002
/-- OD 0x2020:03 (U64, O/–, default 0, N; R178). -/
def CACHE_HITS : Nat := 0x202003
/-- OD 0x2020:04 (U64, O/–, default 0, N; R178). -/
def CACHE_MISSES : Nat := 0x202004
/-- OD 0x2020:05 (U64, O/–, default 0, N; R178). -/
def CACHE_FILLS : Nat := 0x202005
/-- OD 0x2020:06 (U64, O/–, default 0, N; R178). -/
def CACHE_BYTES : Nat := 0x202006
/-- OD 0x2020:07 (U32, O/–, default 0, N; R178). -/
def CREDIT_WAITS : Nat := 0x202007
/-- OD 0x2020:08 (U32, O/–, default 0, N; R178). -/
def DUP_NOTICES : Nat := 0x202008
/-- OD 0x2020:09 (U64, O/–, default 0, N; R178). -/
def COMMITS : Nat := 0x202009
/-- OD 0x2030:00 (DOMAIN, O/–, default Empty, N; R178). -/
def QUAR_LOG : Nat := 0x203000
/-- OD 0x2031:00 (U64, O/–, default 0, N; R178). -/
def CREDIT_AREA : Nat := 0x203100
/-- OD 0x2040:01 (U8, O/–, default 0, N; R223). -/
def LOAD_LIMIT : Nat := 0x204001
/-- OD 0x2040:02 (U8, O/–, default 0xFF, N; R223). -/
def LOAD_TILE : Nat := 0x204002
/-- OD 0x2040:03 (U64, O/–, default 0, N; R223). -/
def LOAD_OFFSET : Nat := 0x204003
/-- OD 0x2041:01 (U32, O/–, default 0, N; R223). -/
def TRAPS : Nat := 0x204101
/-- OD 0x2041:02 (U64, O/–, default 0, N; R223). -/
def LAST_TRAP : Nat := 0x204102
/-- OD 0x2041:03 (U32, O/–, default 0, N; R223). -/
def DEDUP_FULL : Nat := 0x204103
/-- OD 0x2050:01 (U8, O/–, default 0, N; R297). -/
def AUDIT_STATE : Nat := 0x205001
/-- OD 0x2050:02 (DOMAIN, O/–, default Empty, N; R297). -/
def AUDIT_OUT : Nat := 0x205002
/-- OD 0x2050:03 (U32, O/–, default 0, N; R297). -/
def AUDITS : Nat := 0x205003
/-- OD 0x2051:01 (U64, O/–, default 0, N; R290). -/
def REFRESH_WAIT_NS : Nat := 0x205101
/-- OD 0x2051:02 (U32, O/–, default 0, N; R290). -/
def LINK_REPLAYS : Nat := 0x205102
/-- OD 0x2051:03 (U32, O/–, default 0, N; R290). -/
def RDMA_RETRANSMITS : Nat := 0x205103
/-- OD 0x2051:04 (U32, O/–, default 0, N; R290). -/
def MEDIA_RETRIES : Nat := 0x205104
/-- OD 0x2051:05 (U64, O/–, default 0, N; R290). -/
def QDR_PASSES : Nat := 0x205105
/-- OD 0x2060:01 (U64, O/–, default 0, N; R327). -/
def CACHE_FILL_SKIPS : Nat := 0x206001
/-- OD 0x2060:02 (U64, O/–, default 0, N; R327). -/
def CACHE_FILL_ABANDONED : Nat := 0x206002
/-- OD 0x2060:03 (U32, O/–, default 0, N; R327). -/
def CODEC_ERRORS : Nat := 0x206003
/-- OD 0x2060:04 (U64, O/–, default 0, N; R327). -/
def CODEC_IN_BYTES : Nat := 0x206004
/-- OD 0x2060:05 (U64, O/–, default 0, N; R327). -/
def CODEC_OUT_BYTES : Nat := 0x206005
/-- OD 0x2060:06 (U64, O/–, default 0, N; R327). -/
def DIR_SLOTS : Nat := 0x206006
/-- OD 0x2070:01 (U8, O/M, default 32, YR; R361). -/
def SRAM_POOL_MIB : Nat := 0x207001
/-- OD 0x2070:02 (U32, O/M, default 65,536, YR; R361). -/
def FW_RESERVE_CELLS : Nat := 0x207002
/-- OD 0x2070:03 (U32, O/P, default 1,000, Y; R361). -/
def AUDIT_AGE_MS : Nat := 0x207003
/-- OD 0x2070:04 (U64, O/M, default 0, YR; R361). -/
def READBACK_BYTES : Nat := 0x207004
/-- OD 0x2071:00 (DOMAIN, O/–, default Empty, N; R361). -/
def POOL_AUDIT : Nat := 0x207100
/-- OD 0x2072:01 (U64, O/–, default 0, N; R361). -/
def POOL_LEAKED : Nat := 0x207201
/-- OD 0x2072:02 (U32, O/–, default 0, N; R361). -/
def POOL_BAD_GIVE : Nat := 0x207202
/-- OD 0x2072:03 (U64, O/–, default 0, N; R361). -/
def POOL_WAITS : Nat := 0x207203
/-- OD 0x2073:01 (U32, O/–, default 0, N; R361). -/
def DMA_BUS_ERRORS : Nat := 0x207301
/-- OD 0x2073:02 (U32, O/–, default 0, N; R361). -/
def DMA_HALTS : Nat := 0x207302
/-- OD 0x2080:00 (DOMAIN, O/M, default Empty, Y; R381). -/
def VOCAB : Nat := 0x208000
/-- OD 0x2081:00 (U8, O/–, default 16, C; R381). -/
def MACHINES : Nat := 0x208100
/-- OD 0x2081:01 (DOMAIN, O/M, default Empty, Y; R381). -/
def MACHINE : Nat := 0x208101
/-- OD 0x2082:01 (U32, O/–, default 258, N; R381). -/
def VOCAB_SIZE : Nat := 0x208201
/-- OD 0x2082:02 (U8, O/–, default 0, N; R381). -/
def TEXT_LOAD_FAIL : Nat := 0x208202
/-- OD 0x2082:03 (U32, O/–, default 0, N; R381). -/
def CTX_OPEN : Nat := 0x208203
/-- OD 0x2082:04 (U32, O/P, default 600,000, Y; R381). -/
def CTX_IDLE_MS : Nat := 0x208204
/-- OD 0x2082:05 (U64, O/–, default 0, N; R381). -/
def MASKS : Nat := 0x208205
/-- OD 0x2082:06 (U64, O/–, default 0, N; R381). -/
def VALIDATE_REJECTS : Nat := 0x208206
/-- OD 0x2082:07 (U32, O/–, default 0, N; R381). -/
def GRAMMAR_TAIL_REJECTS : Nat := 0x208207
/-- OD 0x2090:01 (U16, O/M, default 250, Y; R537). -/
def HB_US : Nat := 0x209001
/-- OD 0x2090:02 (U8, O/M, default 4, Y; R537). -/
def HB_MISS : Nat := 0x209002
/-- OD 0x2090:03 (U16, O/P, default 4,096, Y; R537). -/
def STRAG_SLACK_PU : Nat := 0x209003
/-- OD 0x2090:04 (U16, O/P, default 8, Y; R537). -/
def STRAG_STEPS : Nat := 0x209004
/-- OD 0x2090:05 (U16, O/M, default 200, Y; R537). -/
def MIRROR_GBPS : Nat := 0x209005
/-- OD 0x2090:06 (U16, O/M, default 50, Y; R537). -/
def MIRROR_LAG_MS : Nat := 0x209006
/-- OD 0x2090:07 (U16, O/M, default 20, Y; R537). -/
def REBUILD_GBPS : Nat := 0x209007
/-- OD 0x2091:00 (DOMAIN, O/–, default Empty, N; R537). -/
def GROUP_ROLES : Nat := 0x209100
/-- OD 0x2092:00 (U32, –/M, default 0, N; R537). -/
def ROLE_CMD : Nat := 0x209200
/-- OD 0x2093:01 (U64, O/–, default 0, N; R537). -/
def SHARE_NS_EC : Nat := 0x209301
/-- OD 0x2093:02 (U64, O/–, default 0, N; R537). -/
def SHARE_NS_OWN : Nat := 0x209302
/-- OD 0x2093:03 (U32, O/–, default 0, N; R537). -/
def LEAD_MARGIN_PU : Nat := 0x209303
/-- OD 0x2093:04 (S64, O/–, default 0, N; R537). -/
def RECOVERY_SLACK_NS : Nat := 0x209304
/-- OD 0x2094:01 (U32, O/–, default 0, N; R537). -/
def ROLLBACKS : Nat := 0x209401
/-- OD 0x2094:02 (U32, O/–, default 0, N; R537). -/
def STANDINS : Nat := 0x209402
/-- OD 0x2094:03 (U32, O/–, default 0, N; R537). -/
def STRAGGLER_SWAPS : Nat := 0x209403
/-- OD 0x2094:04 (U32, O/–, default 0, N; R537). -/
def ABSORBED : Nat := 0x209404
/-- OD 0x2094:05 (U32, O/–, default 0, N; R537). -/
def SELF_FENCES : Nat := 0x209405
/-- OD 0x2094:06 (U64, O/–, default 0, N; R537). -/
def LAST_RB_STEP : Nat := 0x209406
/-- OD 0x2094:07 (U64, O/–, default 0, N; R537). -/
def REBUILD_LEFT : Nat := 0x209407
/-- OD 0x2095:01 (U8, O/–, default 0, N; R560). -/
def SEAL_HOLD : Nat := 0x209501
/-- OD 0x2100:01 (U8, O/P, default 0x03, Y; R136). -/
def PAV_SRC_ENABLE : Nat := 0x210001
/-- OD 0x2100:02 (U8, O/P, default 0, Y; R136). -/
def STEPIN_MODE : Nat := 0x210002
/-- OD 0x2100:03 (U16, O/P, default 0xFFFF, N; R136). -/
def PKT_SOURCE : Nat := 0x210003
/-- OD 0x2100:04 (U8, O/P, default 2, Y; R136). -/
def LOSS_STEPS : Nat := 0x210004
/-- OD 0x2100:05 (U8, O/P, default 3, Y; R136). -/
def QUAL_EVENTS : Nat := 0x210005
/-- OD 0x2100:06 (U8, O/P, default 8, Y; R136). -/
def PERIOD_AVG : Nat := 0x210006
/-- OD 0x2100:07 (U32, O/P, default 10,000, Y; R136). -/
def HOLDOVER_WARN_STEPS : Nat := 0x210007
/-- OD 0x2100:08 (U32, O/M, default 0, Y; R136). -/
def STEPIN_DELAY_NS : Nat := 0x210008
/-- OD 0x2100:09 (U32, O/P, default 300,000, Y; R136). -/
def START_TIMEOUT : Nat := 0x210009
/-- OD 0x2100:0A (U16, O/P, default 0, N; R136). -/
def LATE_SUBST_GRACE : Nat := 0x21000A
/-- OD 0x2101:01 (U8, O/–, default 0, N; R136). -/
def JOB_LEAD : Nat := 0x210101
/-- OD 0x2101:02 (U64, O/–, default 0, N; R136). -/
def JOB_MIN_PERIOD_NS : Nat := 0x210102
/-- OD 0x2102:01 (U32, O/–, default 0, N; R136). -/
def MISSED_COMMITS : Nat := 0x210201
/-- OD 0x2102:02 (U32, O/–, default 0, N; R136). -/
def TOO_LONG_COUNT : Nat := 0x210202
/-- OD 0x2102:03 (U32, O/–, default 0, N; R136). -/
def PERIOD_REJECTS : Nat := 0x210203
/-- OD 0x2102:04 (U32, O/–, default 0, N; R136). -/
def JUMPS : Nat := 0x210204
/-- OD 0x2102:05 (U64, O/–, default 0, N; R136). -/
def HOLDOVER_STEPS : Nat := 0x210205
/-- OD 0x2102:06 (U32, O/–, default 0, N; R136). -/
def PKT_REJECTS : Nat := 0x210206
/-- OD 0x2102:07 (U32, O/–, default 0, N; R136). -/
def SRC_LOSSES : Nat := 0x210207
/-- OD 0x2102:08 (U32, O/–, default 0, N; R136). -/
def SRC_RETURNS : Nat := 0x210208
/-- OD 0x2102:09 (U32, O/–, default 0, N; R136). -/
def SRC_SWITCHES : Nat := 0x210209
/-- OD 0x2102:0A (U32, O/–, default 0, N; R136). -/
def HOLDOVER_ENTRIES : Nat := 0x21020A
/-- OD 0x3000:01 (U64, O/M, default 24,000,000,000, YR; R414). -/
def PART_MAP_CACHE : Nat := 0x300001
/-- OD 0x3000:02 (U64, O/M, default 32,000,000,000, YR; R414). -/
def PART_STAGING : Nat := 0x300002
/-- OD 0x3000:03 (U64, O/M, default 320,000,000,000, YR; R414). -/
def PART_EPOCH_CACHE : Nat := 0x300003
/-- OD 0x3000:04 (U64, O/M, default 8,000,000,000, YR; R414). -/
def PART_FIRMWARE : Nat := 0x300004
/-- OD 0x3000:05 (BOOL, O/–, default 1, N; R414). -/
def PART_STORED_VALID : Nat := 0x300005
/-- OD 0x3000:06 (BOOL, O/–, default 0, N; R414). -/
def PART_REJECTED : Nat := 0x300006
/-- OD 0x3001:01 (U64, O/M, default 329,999,986,982,912, YR; R414). -/
def NS_CAPACITY : Nat := 0x300101
/-- OD 0x3001:02 (U8, O/M, default 12, YR; R414). -/
def EC_K : Nat := 0x300102
/-- OD 0x3001:03 (U8, O/M, default 4, YR; R414). -/
def EC_M : Nat := 0x300103
/-- OD 0x3002:01 (U16, O/M, default 8, Y; R414). -/
def GC_LOW : Nat := 0x300201
/-- OD 0x3002:02 (U16, O/M, default 12, Y; R414). -/
def GC_HIGH : Nat := 0x300202
/-- OD 0x3002:03 (U16, O/M, default 100, Y; R414). -/
def WL_SPREAD : Nat := 0x300203
/-- OD 0x3002:04 (U32, O/M, default 200, Y; R414). -/
def FUA_PAD_US : Nat := 0x300204
/-- OD 0x3003:01 (U32, O/–, default 1, N; R414). -/
def OPEN_VERSION : Nat := 0x300301
/-- OD 0x3003:02 (U8, O/–, default 0, N; R414). -/
def VERSIONS_HELD : Nat := 0x300302
/-- OD 0x3010:01 (U64, O/–, default —, N; R414). -/
def JOURNAL_SEQ : Nat := 0x301001
/-- OD 0x3010:02 (U64, O/–, default 0, N; R414). -/
def MAP_MISSES : Nat := 0x301002
/-- OD 0x3010:03 (U64, O/–, default 0, N; R414). -/
def MAP_WRITEBACKS : Nat := 0x301003
/-- OD 0x3010:04 (U64, O/–, default 0, N; R414). -/
def PARITY_PENDING : Nat := 0x301004
/-- OD 0x3010:05 (U64, O/–, default 0, N; R414). -/
def GC_BYTES_MOVED : Nat := 0x301005
/-- OD 0x3010:06 (U32, O/–, default 0, N; R414). -/
def SECURE_PENDING : Nat := 0x301006
/-- OD 0x3020:00 (DOMAIN, O/–, default —, N; R414). -/
def HEALTH : Nat := 0x302000
/-- OD 0x4000:01 (U16, O/M, default 0xFFFF, YR; R488). -/
def FIXED_ADDRESS : Nat := 0x400001
/-- OD 0x4000:02 (U8, O/–, default 0, N; R488). -/
def ADDR_STATUS : Nat := 0x400002
/-- OD 0x4000:03 (U16, O/–, default 0, N; R488). -/
def DOMAIN_ID : Nat := 0x400003
/-- OD 0x4000:04 (U8, O/M, default 8, Y; R488). -/
def HOP_LIMIT : Nat := 0x400004
/-- OD 0x4000:05 (U16, O/M, default 100, Y; R488). -/
def HELLO_MS : Nat := 0x400005
/-- OD 0x4000:06 (U8, O/M, default 2, Y; R488). -/
def MATCH_MIN : Nat := 0x400006
/-- OD 0x4001:00 (DOMAIN, O/M, default Empty, Y; R488). -/
def CABLE_MAP : Nat := 0x400100
/-- OD 0x4002:00 (DOMAIN, O/–, default Empty, N; R488). -/
def NEIGHBOURS : Nat := 0x400200
/-- OD 0x4010:00 (DOMAIN, O/M, default Empty, Y; R488). -/
def ROUTE_TABLE : Nat := 0x401000
/-- OD 0x4011:00 (DOMAIN, O/–, default Empty, N; R488). -/
def MEMBER_TABLE : Nat := 0x401100
/-- OD 0x4020:00 (DOMAIN, O/M, default Empty, Y; R488). -/
def MC_TABLE : Nat := 0x402000
/-- OD 0x4030:00 (DOMAIN, O/M, default All MODE 0, Y; R488). -/
def POLICERS : Nat := 0x403000
/-- OD 0x4031:00 (DOMAIN, O/M, default All ENABLE 0, Y; R488). -/
def SHAPERS : Nat := 0x403100
/-- OD 0x4040:01 (U32, O/–, default 0, N; R488). -/
def NO_ROUTE : Nat := 0x404001
/-- OD 0x4040:02 (U32, O/–, default 0, N; R488). -/
def HOPS_EXPIRED : Nat := 0x404002
/-- OD 0x4040:03 (U32, O/–, default 0, N; R488). -/
def BAD_FRAMES : Nat := 0x404003
/-- OD 0x4040:04 (U64, O/–, default 0, N; R488). -/
def REROUTED : Nat := 0x404004
/-- OD 0x4040:05 (U32, O/–, default 0, N; R488). -/
def RING_DUP : Nat := 0x404005
/-- OD 0x4040:06 (U32, O/–, default 0, N; R488). -/
def MC_DROPPED : Nat := 0x404006
/-- OD 0x4040:07 (U64, O/–, default 0, N; R488). -/
def POLICE_DROPS : Nat := 0x404007
/-- OD 0x4040:08 (U32, O/–, default 0, N; R488). -/
def ADDR_REFUSALS : Nat := 0x404008
/-- OD 0x4040:09 (U32, O/–, default 0, N; R488). -/
def DOMAIN_MISMATCH : Nat := 0x404009
/-- OD 0x4050:01 (U16, O/–, default 0xFFFF, N; R488). -/
def OFFSET_SRC_ADDR : Nat := 0x405001
/-- OD 0x4050:02 (S64, O/–, default 0, N; R488). -/
def OFFSET_SRC_NS : Nat := 0x405002
/-- OD 0x4050:03 (S64, O/–, default 0, N; R488). -/
def OFFSET_MASTER_NS : Nat := 0x405003
/-- OD 0x4050:04 (U32, O/–, default 0, N; R488). -/
def OFFSET_RTT_NS : Nat := 0x405004
/-- OD 0x4100:01 (U8, O/M, default 0, Y; R459). -/
def PORT_MODE : Nat := 0x410001
/-- OD 0x4101:01 (U32, O/–, default Per R12, N; R459). -/
def PORT_LANES : Nat := 0x410101
/-- OD 0x4102:01 (U8, O/M, default 0, YR; R459). -/
def SPARE_HOME_L16 : Nat := 0x410201
/-- OD 0x4102:02 (U8, O/M, default 2, YR; R459). -/
def SPARE_HOME_L17 : Nat := 0x410202
/-- OD 0x4103:01 (U8, O/M, default 40, Y; R459). -/
def EYE_MIN_RETIRE : Nat := 0x410301
/-- OD 0x4103:02 (U32, O/M, default 10,000, Y; R459). -/
def BER_RETIRE : Nat := 0x410302
/-- OD 0x4103:03 (U16, O/M, default 0x1800, Y; R459). -/
def DRIFT_RETIRE : Nat := 0x410303
/-- OD 0x4103:04 (U16, O/M, default 72, Y; R459). -/
def TREND_WINDOW_H : Nat := 0x410304
/-- OD 0x4103:05 (U16, O/M, default 30, Y; R459). -/
def TREND_HORIZON_D : Nat := 0x410305
/-- OD 0x4103:06 (U8, O/M, default 5, Y; R459). -/
def FLAP_LIMIT : Nat := 0x410306
/-- OD 0x4103:07 (U16, O/M, default 10, Y; R459). -/
def RETURN_SOAK_S : Nat := 0x410307
/-- OD 0x4103:08 (U8, O/M, default 3, Y; R459). -/
def DEGRADE_MIN_LANES : Nat := 0x410308
/-- OD 0x4104:01 (U32, O/–, default 0, N; R459). -/
def TX_REFUSED : Nat := 0x410401
/-- OD 0x4104:02 (U32, O/–, default 0, N; R459). -/
def LANE_SWAPS : Nat := 0x410402
/-- OD 0x4104:03 (U32, O/–, default 0, N; R459). -/
def LASER_SHORTS : Nat := 0x410403
/-- OD 0x4104:04 (U32, O/–, default 0, N; R459). -/
def RAIL_FAULTS : Nat := 0x410404
/-- OD 0x4200:00 (DOMAIN, O/P, default Empty, N; R512). -/
def CONN_TABLE : Nat := 0x420000
/-- OD 0x4201:01 (OCTETS 16, O/M, default All zero, Y; R512). -/
def PORT_IP : Nat := 0x420101
/-- OD 0x4202:01 (U8, O/M, default 3, Y; R512). -/
def ROCE_PRIO : Nat := 0x420201
/-- OD 0x4202:02 (U8, O/M, default 26, Y; R512). -/
def ROCE_DSCP : Nat := 0x420202
/-- OD 0x4202:03 (U16, O/M, default 128, Y; R512). -/
def PFC_XOFF_KIB : Nat := 0x420203
/-- OD 0x4202:04 (U16, O/M, default 100, Y; R512). -/
def PFC_STORM_MS : Nat := 0x420204
/-- OD 0x4202:05 (U32, O/M, default 1,000, Y; R512). -/
def MAX_PKT_LIFE_US : Nat := 0x420205
/-- OD 0x4202:06 (U16, O/M, default 10, Y; R512). -/
def PATH_HOLD_MS : Nat := 0x420206
/-- OD 0x4202:07 (U8, O/P, default 2, Y; R512). -/
def CONN_MIN_PATHS : Nat := 0x420207
/-- OD 0x4203:00 (DOMAIN, O/P, default Empty, N; R512). -/
def GRANTS : Nat := 0x420300
/-- OD 0x4204:00 (DOMAIN, O/–, default Empty, N; R512). -/
def INBOUND_KEYS : Nat := 0x420400
/-- OD 0x4205:00 (U32, –/P, default 0, N; R512). -/
def CONN_REARM : Nat := 0x420500
/-- OD 0x4206:00 (DOMAIN, O/–, default Empty, N; R512). -/
def CONN_STATUS : Nat := 0x420600
/-- OD 0x4207:01 (U32, O/–, default 0, N; R512). -/
def BOUNDS_BLOCKED : Nat := 0x420701
/-- OD 0x4207:02 (U32, O/–, default 0, N; R512). -/
def CREDIT_EARLY : Nat := 0x420702
/-- OD 0x4207:03 (U32, O/–, default 0, N; R512). -/
def CREDIT_BAD : Nat := 0x420703
/-- OD 0x4207:04 (U32, O/–, default 0, N; R512). -/
def LIFE_HOLDS : Nat := 0x420704
/-- OD 0x4207:05 (U32, O/–, default 0, N; R512). -/
def INBOUND_REJECTS : Nat := 0x420705
/-- OD 0x4207:06 (U32, O/–, default 0, N; R512). -/
def DUP_INBOUND : Nat := 0x420706
/-- OD 0x4207:07 (U32, O/–, default 0, N; R512). -/
def STALE_ACKS : Nat := 0x420707
/-- OD 0x4207:08 (U32, O/–, default 0, N; R512). -/
def KEY_NAKS : Nat := 0x420708
/-- OD 0x4207:09 (U32, O/–, default 0, N; R512). -/
def PATH_FAILS : Nat := 0x420709
/-- OD 0x4207:0A (U32, O/–, default 0, N; R512). -/
def PFC_STORMS : Nat := 0x42070A
/-- OD 0x4207:0B (U32, O/–, default 0, N; R512). -/
def CNP_RX : Nat := 0x42070B
/-- OD 0x4207:0C (U32, O/–, default 0, N; R512). -/
def FOREIGN_DROPS : Nat := 0x42070C
/-- OD 0x4208:01 (OCTETS 6, O/–, default From SERIAL, C; R512). -/
def PORT_MAC : Nat := 0x420801
/-- OD 0x5000:01 (U8, O/–, default 0, N; R591). -/
def POWER_STATE : Nat := 0x500001
/-- OD 0x5000:02 (U32, –/P, default 0, N; R591). -/
def SLEEP_CMD : Nat := 0x500002
/-- OD 0x5000:03 (U32, O/–, default 0, Y; R591). -/
def SLEEP_SEQ : Nat := 0x500003
/-- OD 0x5000:04 (U32, O/–, default —, N; R591). -/
def RESET_CAUSE : Nat := 0x500004
/-- OD 0x5001:01 (U8, O/P, default 0, Y; R591). -/
def QUAD_OP : Nat := 0x500101
/-- OD 0x5002:01 (U8, O/–, default 0, Y; R591). -/
def OP_MAX : Nat := 0x500201
/-- OD 0x5003:00 (DOMAIN, O/–, default —, N; R591). -/
def VOLT_TABLE : Nat := 0x500300
/-- OD 0x5004:01 (U32, O/M, default 2,000, Y; R591). -/
def AVS_ACK_US : Nat := 0x500401
/-- OD 0x5004:02 (U32, O/–, default 0, N; R591). -/
def AVS_TIMEOUTS : Nat := 0x500402
/-- OD 0x5005:01 (S16, O/M, default 760, Y; R591). -/
def TEMP_WARN : Nat := 0x500501
/-- OD 0x5005:02 (S16, O/M, default 840, Y; R591). -/
def TEMP_TRIP : Nat := 0x500502
/-- OD 0x5006:01 (U8, O/–, default 0, Y; R640). -/
def SEQ_FAIL_GROUP : Nat := 0x500601
/-- OD 0x5006:02 (U32, O/–, default 0, Y; R640). -/
def SEQ_FAILS : Nat := 0x500602
/-- OD 0x5020:01 (U16, O/M, default 30, Y; R591). -/
def REPLAN_DAYS : Nat := 0x502001
/-- OD 0x5020:02 (U32, –/M, default 0, N; R591). -/
def REPLAN_NOW : Nat := 0x502002
/-- OD 0x5020:03 (U16, O/M, default 600, Y; R591). -/
def SLACK_MIN : Nat := 0x502003
/-- OD 0x5020:04 (U16, O/M, default 60, Y; R591). -/
def VAGE_MAX_MV : Nat := 0x502004
/-- OD 0x5020:05 (U16, O/M, default 20, Y; R591). -/
def VSTEP_MAX_MV : Nat := 0x502005
/-- OD 0x5020:06 (U16, O/M, default 850, Y; R591). -/
def VMAX_MV : Nat := 0x502006
/-- OD 0x5020:07 (U16, O/M, default 3,200, Y; R591). -/
def LASER_BIAS_LIMIT : Nat := 0x502007
/-- OD 0x5021:00 (DOMAIN, O/–, default Empty, N; R591). -/
def AGEING_LOG : Nat := 0x502100
/-- OD 0x5100:01 (U8, O/–, default 0, N; R560). -/
def SAFETY_STATE : Nat := 0x510001
/-- OD 0x5100:02 (U32, O/–, default 0, N; R560). -/
def DETECTIONS : Nat := 0x510002
/-- OD 0x5100:03 (U64, O/–, default 0, N; R560). -/
def CANARY_RUNS : Nat := 0x510003
/-- OD 0x5100:04 (U32, O/–, default 0, N; R560). -/
def CANARY_FAILS : Nat := 0x510004
/-- OD 0x5100:05 (U32, O/–, default 0, N; R560). -/
def SAFE_MISSES : Nat := 0x510005
/-- OD 0x5100:06 (U8, –/M, default 0, N; R560). -/
def SAFE_TEST : Nat := 0x510006
/-- OD 0x5101:00 (DOMAIN, O/–, default Empty, Y; R560). -/
def DETECT_LOG : Nat := 0x510100
/-- OD 0x5102:01 (BOOL, O/M, default 1, Y; R560). -/
def SAFE_HB_ENABLE : Nat := 0x510201
/-- OD 0x5102:02 (U16, O/M, default 10, Y; R560). -/
def SAFE_HB_MS : Nat := 0x510202
/-- OD 0x5102:03 (U16, O/M, default 0xB0B9, YR; R560). -/
def SAFE_UDP_PORT : Nat := 0x510203
/-- OD 0x5200:01 (U8, O/–, default 0, N; R591). -/
def FW_STATE : Nat := 0x520001
/-- OD 0x5200:02 (DOMAIN, –/M, default Empty, N; R591). -/
def FW_BLOCK : Nat := 0x520002
/-- OD 0x5200:03 (U32, –/M, default 0, N; R591). -/
def FW_ACTIVATE : Nat := 0x520003
/-- OD 0x5200:04 (U32, –/M, default 0, N; R591). -/
def FW_CONFIRM : Nat := 0x520004
/-- OD 0x5200:05 (U8, O/M, default 0, Y; R591). -/
def FW_CONFIRM_MODE : Nat := 0x520005
/-- OD 0x5200:06 (U8, O/–, default 0, N; R591). -/
def FW_RESULT : Nat := 0x520006
/-- OD 0x5200:07 (U32, O/–, default 0, N; R591). -/
def BLOCKS_WRITTEN : Nat := 0x520007
/-- OD 0x5200:08 (U32, O/–, default Per part, N; R591). -/
def SEC_FUSE : Nat := 0x520008
/-- OD 0x6000:01 (BOOL, O/P, default 0, N; R626). -/
def COUNT_ENABLE : Nat := 0x600001
/-- OD 0x6000:02 (BOOL, O/M, default 0, N; R626). -/
def EVRING_ENABLE : Nat := 0x600002
/-- OD 0x6000:03 (BOOL, O/P, default 0, N; R626). -/
def WFG_ENABLE : Nat := 0x600003
/-- OD 0x6000:04 (BOOL, O/M, default 0, N; R626). -/
def TEST_MODE : Nat := 0x600004
/-- OD 0x6000:05 (U32, O/P, default 1,000, Y; R626). -/
def HANG_MS : Nat := 0x600005
/-- OD 0x6000:06 (U8, O/M, default 0, N; R626). -/
def STOP_CFG : Nat := 0x600006
/-- OD 0x6000:07 (U8, –/P, default 0, N; R626). -/
def WFG_NOW : Nat := 0x600007
/-- OD 0x6000:08 (BOOL, O/M, default 0, Y; R626). -/
def EVRING_BOOT : Nat := 0x600008
/-- OD 0x6010:01 (U64, O/–, default 0, N; R626). -/
def PRIM_ITEMS : Nat := 0x601001
/-- OD 0x6011:01 (U64, O/–, default 0, N; R626). -/
def FMT_ELEMS : Nat := 0x601101
/-- OD 0x6012:01 (U64, O/–, default 0, N; R626). -/
def REEL_INSTR : Nat := 0x601201
/-- OD 0x6013:00 (DOMAIN, O/–, default Empty, N; R626). -/
def COUNT_SNAPSHOT : Nat := 0x601300
/-- OD 0x6020:00 (DOMAIN, O/–, default Empty, N; R626). -/
def WFG : Nat := 0x602000
/-- OD 0x6030:00 (DOMAIN, O/–, default Empty, N; R626). -/
def EVENT_RINGS : Nat := 0x603000
/-- OD 0x6040:01 (U16, O/M, default 0xFFFF, N; R626). -/
def TMUX_SEL : Nat := 0x604001
/-- OD 0x6050:01 (U32, –/M, default 0, N; R626). -/
def GLOBAL_STOP : Nat := 0x605001
/-- OD 0x6050:02 (U8, O/–, default 0, N; R626). -/
def STOP_STATUS : Nat := 0x605002
/-- OD 0x6050:03 (U64, O/–, default 0, N; R626). -/
def STOP_TIME : Nat := 0x605003
/-- OD 0x6050:04 (U64, O/–, default 0, N; R626). -/
def STOP_PAV : Nat := 0x605004
/-- OD 0x6051:00 (DOMAIN, O/M, default —, C; R626). -/
def SCAN_MAP : Nat := 0x605100
/-- OD 0x6052:00 (DOMAIN, M/–, default Empty, N; R626). -/
def SCAN_OUT : Nat := 0x605200
/-- OD 0x6053:01 (U64, O/M, default 0, N; R626). -/
def MEM_ADDR : Nat := 0x605301
/-- OD 0x6053:02 (U32, O/M, default 0, N; R626). -/
def MEM_LEN : Nat := 0x605302
/-- OD 0x6053:03 (DOMAIN, M/–, default Empty, N; R626). -/
def MEM_OUT : Nat := 0x605303
/-- OD 0x6060:01 (U32, O/–, default 0, N; R626). -/
def INT_OVERRUNS : Nat := 0x606001
end Od

/-- Entries 0x1000 to 0x10FF. -/
def odRows10 : List OdEntry :=
  [⟨0x1000, 0x00, 0x00, .unsigned 4, 0, 255, .num 1295515649, .c, .full, false⟩,
   ⟨0x1008, 0x00, 0x00, .str, 0, 255, .bytes (ascii "Manatos M8"), .c, .full, false⟩,
   ⟨0x100A, 0x00, 0x00, .str, 0, 255, .bytes Config.fwVersion, .n, .full, false⟩,
   ⟨0x100B, 0x00, 0x00, .unsigned 4, 0, 255, .num Config.fwIfaceVersion.toNat, .n, .full, false⟩,
   ⟨0x1011, 0x01, 0x01, .unsigned 4, 255, 2, .num 0, .n, .oneOf [0x0DEF], false⟩,
   ⟨0x1018, 0x00, 0x00, .unsigned 1, 0, 255, .num 4, .c, .full, false⟩,
   ⟨0x1018, 0x01, 0x01, .unsigned 4, 0, 255, .num 22099, .c, .full, false⟩,
   ⟨0x1018, 0x02, 0x02, .unsigned 4, 0, 255, .num 528896, .c, .full, false⟩,
   ⟨0x1018, 0x03, 0x03, .unsigned 4, 0, 255, .num Config.stepping.toNat, .c, .full, false⟩,
   ⟨0x1018, 0x04, 0x04, .unsigned 8, 0, 255, .num Config.serial.toNat, .c, .full, false⟩,
   ⟨0x1020, 0x00, 0x00, .unsigned 2, 0, 255, .num 65535, .n, .full, false⟩]
/-- Entries 0x1100 to 0x11FF. -/
def odRows11 : List OdEntry :=
  [⟨0x1100, 0x01, 0x01, .unsigned 1, 0, 255, .num 0, .n, .full, false⟩,
   ⟨0x1100, 0x02, 0x02, .unsigned 4, 0, 255, .num 0, .n, .full, false⟩,
   ⟨0x1100, 0x03, 0x03, .unsigned 1, 0, 255, .num 0, .n, .full, false⟩,
   ⟨0x1101, 0x00, 0x00, .unsigned 4, 0, 2, .num 60000, .y, .between 1000 3600000, false⟩,
   ⟨0x1102, 0x01, 0x01, .unsigned 1, 0, 2, .num 5, .y, .between 1 32, false⟩,
   ⟨0x1102, 0x02, 0x02, .unsigned 4, 0, 2, .num 60000, .y, .between 1000 3600000, false⟩,
   ⟨0x1102, 0x03, 0x03, .unsigned 1, 0, 255, .num 0, .n, .full, false⟩,
   ⟨0x1110, 0x01, 0x01, .octets 32, 255, 2, .bytes (zeros 32), .y, .full, false⟩,
   ⟨0x1110, 0x02, 0x02, .octets 32, 255, 2, .bytes (zeros 32), .y, .full, false⟩,
   ⟨0x1110, 0x03, 0x03, .octets 32, 255, 2, .bytes Config.factoryKey, .y, .full, false⟩]
/-- Entries 0x1200 to 0x12FF. -/
def odRows12 : List OdEntry :=
  [⟨0x1200, 0x01, 0x01, .bool, 0, 2, .num 1, .yr, .full, false⟩,
   ⟨0x1200, 0x02, 0x02, .unsigned 1, 0, 2, .num 255, .yr, .full, false⟩,
   ⟨0x1200, 0x03, 0x03, .unsigned 1, 0, 2, .num 8, .yr, .between 1 255, false⟩,
   ⟨0x1200, 0x04, 0x04, .unsigned 2, 0, 2, .num 45240, .yr, .between 1 65535, false⟩,
   ⟨0x1200, 0x05, 0x05, .octets 6, 0, 255, .bytes Config.mgmtMac, .c, .full, false⟩,
   ⟨0x1210, 0x01, 0x01, .bool, 0, 2, .num 1, .yr, .full, false⟩,
   ⟨0x1210, 0x02, 0x02, .unsigned 1, 0, 2, .num 32, .yr, .between 1 32, false⟩,
   ⟨0x1220, 0x01, 0x01, .bool, 0, 2, .num 1, .yr, .full, false⟩,
   ⟨0x1220, 0x02, 0x02, .unsigned 1, 0, 2, .num 4, .yr, .between 1 4, false⟩,
   ⟨0x1230, 0x00, 0x00, .unsigned 1, 0, 2, .num 8, .yr, .between 1 8, false⟩]
/-- Entries 0x1300 to 0x13FF. -/
def odRows13 : List OdEntry :=
  [⟨0x1300, 0x01, 0x01, .unsigned 1, 0, 2, .num 1, .y, .between 0 2, false⟩,
   ⟨0x1300, 0x02, 0x02, .unsigned 2, 0, 2, .num 256, .yr, .between 0 256, false⟩,
   ⟨0x1300, 0x03, 0x03, .unsigned 2, 0, 255, .num 0, .n, .full, false⟩,
   ⟨0x1300, 0x04, 0x04, .unsigned 2, 0, 255, .num 0, .n, .full, false⟩,
   ⟨0x1320, 0x00, 0x00, .domain, 0, 255, .bytes [], .n, .full, false⟩,
   ⟨0x1321, 0x01, 0x01, .unsigned 4, 0, 255, .num 0, .n, .full, false⟩,
   ⟨0x1321, 0x02, 0x02, .unsigned 4, 255, 1, .num 0, .n, .bitsOf 0x1FFFF, false⟩]
/-- Entries 0x1400 to 0x14FF. -/
def odRows14 : List OdEntry :=
  [⟨0x1400, 0x01, 0x01, .unsigned 4, 0, 255, .num 0, .n, .full, false⟩,
   ⟨0x1400, 0x02, 0x02, .unsigned 4, 0, 255, .num 0, .n, .full, false⟩,
   ⟨0x1400, 0x03, 0x03, .unsigned 1, 0, 255, .num 255, .n, .full, false⟩]
/-- Entries 0x2000 to 0x20FF. -/
def odRows20 : List OdEntry :=
  [⟨0x2000, 0x01, 0x01, .unsigned 1, 0, 255, .num 0, .n, .full, false⟩,
   ⟨0x2000, 0x02, 0x02, .unsigned 8, 0, 255, .num 0, .n, .full, false⟩,
   ⟨0x2000, 0x03, 0x03, .unsigned 2, 0, 255, .num 0, .n, .full, false⟩,
   ⟨0x2000, 0x04, 0x04, .unsigned 8, 0, 255, .num 0, .n, .full, false⟩,
   ⟨0x2000, 0x05, 0x05, .unsigned 8, 0, 255, .num 0, .n, .full, false⟩,
   ⟨0x2000, 0x06, 0x06, .unsigned 8, 0, 255, .num 0, .n, .full, false⟩,
   ⟨0x2010, 0x01, 0x01, .unsigned 1, 0, 1, .num 0, .y, .oneOf [0, 1], true⟩,
   ⟨0x2010, 0x02, 0x02, .unsigned 1, 0, 1, .num 0, .y, .full, true⟩,
   ⟨0x2010, 0x03, 0x03, .unsigned 1, 0, 1, .num 1, .y, .oneOf [0, 1, 2], true⟩,
   ⟨0x2010, 0x04, 0x04, .unsigned 2, 0, 1, .num 64, .y, .between 1 65535, false⟩,
   ⟨0x2011, 0x00, 0x00, .unsigned 4, 255, 1, .num 0, .n, .oneOf [0xC1EA], true⟩,
   ⟨0x2020, 0x01, 0x01, .unsigned 8, 0, 255, .num 0, .n, .full, false⟩,
   ⟨0x2020, 0x02, 0x02, .unsigned 8, 0, 255, .num 0, .n, .full, false⟩,
   ⟨0x2020, 0x03, 0x03, .unsigned 8, 0, 255, .num 0, .n, .full, false⟩,
   ⟨0x2020, 0x04, 0x04, .unsigned 8, 0, 255, .num 0, .n, .full, false⟩,
   ⟨0x2020, 0x05, 0x05, .unsigned 8, 0, 255, .num 0, .n, .full, false⟩,
   ⟨0x2020, 0x06, 0x06, .unsigned 8, 0, 255, .num 0, .n, .full, false⟩,
   ⟨0x2020, 0x07, 0x07, .unsigned 4, 0, 255, .num 0, .n, .full, false⟩,
   ⟨0x2020, 0x08, 0x08, .unsigned 4, 0, 255, .num 0, .n, .full, false⟩,
   ⟨0x2020, 0x09, 0x09, .unsigned 8, 0, 255, .num 0, .n, .full, false⟩,
   ⟨0x2030, 0x00, 0x00, .domain, 0, 255, .bytes [], .n, .full, false⟩,
   ⟨0x2031, 0x00, 0x00, .unsigned 8, 0, 255, .num 0, .n, .full, false⟩,
   ⟨0x2040, 0x01, 0x01, .unsigned 1, 0, 255, .num 0, .n, .full, false⟩,
   ⟨0x2040, 0x02, 0x02, .unsigned 1, 0, 255, .num 255, .n, .full, false⟩,
   ⟨0x2040, 0x03, 0x03, .unsigned 8, 0, 255, .num 0, .n, .full, false⟩,
   ⟨0x2041, 0x01, 0x01, .unsigned 4, 0, 255, .num 0, .n, .full, false⟩,
   ⟨0x2041, 0x02, 0x02, .unsigned 8, 0, 255, .num 0, .n, .full, false⟩,
   ⟨0x2041, 0x03, 0x03, .unsigned 4, 0, 255, .num 0, .n, .full, false⟩,
   ⟨0x2050, 0x01, 0x01, .unsigned 1, 0, 255, .num 0, .n, .full, false⟩,
   ⟨0x2050, 0x02, 0x02, .domain, 0, 255, .bytes [], .n, .full, false⟩,
   ⟨0x2050, 0x03, 0x03, .unsigned 4, 0, 255, .num 0, .n, .full, false⟩,
   ⟨0x2051, 0x01, 0x01, .unsigned 8, 0, 255, .num 0, .n, .full, false⟩,
   ⟨0x2051, 0x02, 0x02, .unsigned 4, 0, 255, .num 0, .n, .full, false⟩,
   ⟨0x2051, 0x03, 0x03, .unsigned 4, 0, 255, .num 0, .n, .full, false⟩,
   ⟨0x2051, 0x04, 0x04, .unsigned 4, 0, 255, .num 0, .n, .full, false⟩,
   ⟨0x2051, 0x05, 0x05, .unsigned 8, 0, 255, .num 0, .n, .full, false⟩,
   ⟨0x2060, 0x01, 0x01, .unsigned 8, 0, 255, .num 0, .n, .full, false⟩,
   ⟨0x2060, 0x02, 0x02, .unsigned 8, 0, 255, .num 0, .n, .full, false⟩,
   ⟨0x2060, 0x03, 0x03, .unsigned 4, 0, 255, .num 0, .n, .full, false⟩,
   ⟨0x2060, 0x04, 0x04, .unsigned 8, 0, 255, .num 0, .n, .full, false⟩,
   ⟨0x2060, 0x05, 0x05, .unsigned 8, 0, 255, .num 0, .n, .full, false⟩,
   ⟨0x2060, 0x06, 0x06, .unsigned 8, 0, 255, .num 0, .n, .full, false⟩,
   ⟨0x2070, 0x01, 0x01, .unsigned 1, 0, 2, .num 32, .yr, .between 8 48, false⟩,
   ⟨0x2070, 0x02, 0x02, .unsigned 4, 0, 2, .num 65536, .yr, .between 0 1048576, false⟩,
   ⟨0x2070, 0x03, 0x03, .unsigned 4, 0, 1, .num 1000, .y, .between 1 86400000, false⟩,
   ⟨0x2070, 0x04, 0x04, .unsigned 8, 0, 2, .num 0, .yr, .full, false⟩,
   ⟨0x2071, 0x00, 0x00, .domain, 0, 255, .bytes [], .n, .full, false⟩,
   ⟨0x2072, 0x01, 0x01, .unsigned 8, 0, 255, .num 0, .n, .full, false⟩,
   ⟨0x2072, 0x02, 0x02, .unsigned 4, 0, 255, .num 0, .n, .full, false⟩,
   ⟨0x2072, 0x03, 0x03, .unsigned 8, 0, 255, .num 0, .n, .full, false⟩,
   ⟨0x2073, 0x01, 0x01, .unsigned 4, 0, 255, .num 0, .n, .full, false⟩,
   ⟨0x2073, 0x02, 0x02, .unsigned 4, 0, 255, .num 0, .n, .full, false⟩,
   ⟨0x2080, 0x00, 0x00, .domain, 0, 2, .bytes [], .y, .full, false⟩,
   ⟨0x2081, 0x00, 0x00, .unsigned 1, 0, 255, .num 16, .c, .full, false⟩,
   ⟨0x2081, 0x01, 0x10, .domain, 0, 2, .bytes [], .y, .full, false⟩,
   ⟨0x2082, 0x01, 0x01, .unsigned 4, 0, 255, .num 258, .n, .full, false⟩,
   ⟨0x2082, 0x02, 0x02, .unsigned 1, 0, 255, .num 0, .n, .full, false⟩,
   ⟨0x2082, 0x03, 0x03, .unsigned 4, 0, 255, .num 0, .n, .full, false⟩,
   ⟨0x2082, 0x04, 0x04, .unsigned 4, 0, 1, .num 600000, .y, .between 1000 86400000, false⟩,
   ⟨0x2082, 0x05, 0x05, .unsigned 8, 0, 255, .num 0, .n, .full, false⟩,
   ⟨0x2082, 0x06, 0x06, .unsigned 8, 0, 255, .num 0, .n, .full, false⟩,
   ⟨0x2082, 0x07, 0x07, .unsigned 4, 0, 255, .num 0, .n, .full, false⟩,
   ⟨0x2090, 0x01, 0x01, .unsigned 2, 0, 2, .num 250, .y, .between 100 1000, true⟩,
   ⟨0x2090, 0x02, 0x02, .unsigned 1, 0, 2, .num 4, .y, .between 2 16, true⟩,
   ⟨0x2090, 0x03, 0x03, .unsigned 2, 0, 1, .num 4096, .y, .between 256 32768, false⟩,
   ⟨0x2090, 0x04, 0x04, .unsigned 2, 0, 1, .num 8, .y, .between 1 1024, false⟩,
   ⟨0x2090, 0x05, 0x05, .unsigned 2, 0, 2, .num 200, .y, .between 10 400, false⟩,
   ⟨0x2090, 0x06, 0x06, .unsigned 2, 0, 2, .num 50, .y, .between 1 10000, false⟩,
   ⟨0x2090, 0x07, 0x07, .unsigned 2, 0, 2, .num 20, .y, .between 1 200, false⟩,
   ⟨0x2091, 0x00, 0x00, .domain, 0, 255, .bytes [], .n, .full, false⟩,
   ⟨0x2092, 0x00, 0x00, .unsigned 4, 255, 2, .num 0, .n, .bitsOf 0x13F, false⟩,
   ⟨0x2093, 0x01, 0x01, .unsigned 8, 0, 255, .num 0, .n, .full, false⟩,
   ⟨0x2093, 0x02, 0x02, .unsigned 8, 0, 255, .num 0, .n, .full, false⟩,
   ⟨0x2093, 0x03, 0x03, .unsigned 4, 0, 255, .num 0, .n, .full, false⟩,
   ⟨0x2093, 0x04, 0x04, .signed 8, 0, 255, .num 0, .n, .full, false⟩,
   ⟨0x2094, 0x01, 0x01, .unsigned 4, 0, 255, .num 0, .n, .full, false⟩,
   ⟨0x2094, 0x02, 0x02, .unsigned 4, 0, 255, .num 0, .n, .full, false⟩,
   ⟨0x2094, 0x03, 0x03, .unsigned 4, 0, 255, .num 0, .n, .full, false⟩,
   ⟨0x2094, 0x04, 0x04, .unsigned 4, 0, 255, .num 0, .n, .full, false⟩,
   ⟨0x2094, 0x05, 0x05, .unsigned 4, 0, 255, .num 0, .n, .full, false⟩,
   ⟨0x2094, 0x06, 0x06, .unsigned 8, 0, 255, .num 0, .n, .full, false⟩,
   ⟨0x2094, 0x07, 0x07, .unsigned 8, 0, 255, .num 0, .n, .full, false⟩,
   ⟨0x2095, 0x01, 0x01, .unsigned 1, 0, 255, .num 0, .n, .oneOf [0, 1], false⟩]
/-- Entries 0x2100 to 0x21FF. -/
def odRows21 : List OdEntry :=
  [⟨0x2100, 0x01, 0x01, .unsigned 1, 0, 1, .num 3, .y, .bitsOf 0x03, true⟩,
   ⟨0x2100, 0x02, 0x02, .unsigned 1, 0, 1, .num 0, .y, .oneOf [0, 1], true⟩,
   ⟨0x2100, 0x03, 0x03, .unsigned 2, 0, 1, .num 65535, .n, .full, true⟩,
   ⟨0x2100, 0x04, 0x04, .unsigned 1, 0, 1, .num 2, .y, .between 1 8, false⟩,
   ⟨0x2100, 0x05, 0x05, .unsigned 1, 0, 1, .num 3, .y, .between 2 16, false⟩,
   ⟨0x2100, 0x06, 0x06, .unsigned 1, 0, 1, .num 8, .y, .oneOf [1, 2, 4, 8, 16, 32, 64], false⟩,
   ⟨0x2100, 0x07, 0x07, .unsigned 4, 0, 1, .num 10000, .y, .between 1 4294967295, false⟩,
   ⟨0x2100, 0x08, 0x08, .unsigned 4, 0, 2, .num 0, .y, .between 0 10000, false⟩,
   ⟨0x2100, 0x09, 0x09, .unsigned 4, 0, 1, .num 300000, .y, .between 1000 3600000, false⟩,
   ⟨0x2100, 0x0A, 0x0A, .unsigned 2, 0, 1, .num 0, .n, .full, true⟩,
   ⟨0x2101, 0x01, 0x01, .unsigned 1, 0, 255, .num 0, .n, .full, false⟩,
   ⟨0x2101, 0x02, 0x02, .unsigned 8, 0, 255, .num 0, .n, .full, false⟩,
   ⟨0x2102, 0x01, 0x01, .unsigned 4, 0, 255, .num 0, .n, .full, false⟩,
   ⟨0x2102, 0x02, 0x02, .unsigned 4, 0, 255, .num 0, .n, .full, false⟩,
   ⟨0x2102, 0x03, 0x03, .unsigned 4, 0, 255, .num 0, .n, .full, false⟩,
   ⟨0x2102, 0x04, 0x04, .unsigned 4, 0, 255, .num 0, .n, .full, false⟩,
   ⟨0x2102, 0x05, 0x05, .unsigned 8, 0, 255, .num 0, .n, .full, false⟩,
   ⟨0x2102, 0x06, 0x06, .unsigned 4, 0, 255, .num 0, .n, .full, false⟩,
   ⟨0x2102, 0x07, 0x07, .unsigned 4, 0, 255, .num 0, .n, .full, false⟩,
   ⟨0x2102, 0x08, 0x08, .unsigned 4, 0, 255, .num 0, .n, .full, false⟩,
   ⟨0x2102, 0x09, 0x09, .unsigned 4, 0, 255, .num 0, .n, .full, false⟩,
   ⟨0x2102, 0x0A, 0x0A, .unsigned 4, 0, 255, .num 0, .n, .full, false⟩]
/-- Entries 0x3000 to 0x30FF. -/
def odRows30 : List OdEntry :=
  [⟨0x3000, 0x01, 0x01, .unsigned 8, 0, 2, .num 24000000000, .yr, .between 4000000000 18446744073709551615, false⟩,
   ⟨0x3000, 0x02, 0x02, .unsigned 8, 0, 2, .num 32000000000, .yr, .between 16000000000 18446744073709551615, false⟩,
   ⟨0x3000, 0x03, 0x03, .unsigned 8, 0, 2, .num 320000000000, .yr, .full, false⟩,
   ⟨0x3000, 0x04, 0x04, .unsigned 8, 0, 2, .num 8000000000, .yr, .between 8000000000 18446744073709551615, false⟩,
   ⟨0x3000, 0x05, 0x05, .bool, 0, 255, .num 1, .n, .full, false⟩,
   ⟨0x3000, 0x06, 0x06, .bool, 0, 255, .num 0, .n, .full, false⟩,
   ⟨0x3001, 0x01, 0x01, .unsigned 8, 0, 2, .num 329999986982912, .yr, .full, false⟩,
   ⟨0x3001, 0x02, 0x02, .unsigned 1, 0, 2, .num 12, .yr, .between 2 32, false⟩,
   ⟨0x3001, 0x03, 0x03, .unsigned 1, 0, 2, .num 4, .yr, .between 1 8, false⟩,
   ⟨0x3002, 0x01, 0x01, .unsigned 2, 0, 2, .num 8, .y, .between 4 64, false⟩,
   ⟨0x3002, 0x02, 0x02, .unsigned 2, 0, 2, .num 12, .y, .between 0 128, false⟩,
   ⟨0x3002, 0x03, 0x03, .unsigned 2, 0, 2, .num 100, .y, .between 10 1000, false⟩,
   ⟨0x3002, 0x04, 0x04, .unsigned 4, 0, 2, .num 200, .y, .between 0 100000, false⟩,
   ⟨0x3003, 0x01, 0x01, .unsigned 4, 0, 255, .num 1, .n, .full, false⟩,
   ⟨0x3003, 0x02, 0x02, .unsigned 1, 0, 255, .num 0, .n, .full, false⟩,
   ⟨0x3010, 0x01, 0x01, .unsigned 8, 0, 255, .num 0, .n, .full, false⟩,
   ⟨0x3010, 0x02, 0x02, .unsigned 8, 0, 255, .num 0, .n, .full, false⟩,
   ⟨0x3010, 0x03, 0x03, .unsigned 8, 0, 255, .num 0, .n, .full, false⟩,
   ⟨0x3010, 0x04, 0x04, .unsigned 8, 0, 255, .num 0, .n, .full, false⟩,
   ⟨0x3010, 0x05, 0x05, .unsigned 8, 0, 255, .num 0, .n, .full, false⟩,
   ⟨0x3010, 0x06, 0x06, .unsigned 4, 0, 255, .num 0, .n, .full, false⟩,
   ⟨0x3020, 0x00, 0x00, .domain, 0, 255, .bytes [], .n, .full, false⟩]
/-- Entries 0x4000 to 0x40FF. -/
def odRows40 : List OdEntry :=
  [⟨0x4000, 0x01, 0x01, .unsigned 2, 0, 2, .num 65535, .yr, .full, false⟩,
   ⟨0x4000, 0x02, 0x02, .unsigned 1, 0, 255, .num 0, .n, .full, false⟩,
   ⟨0x4000, 0x03, 0x03, .unsigned 2, 0, 255, .num 0, .n, .full, false⟩,
   ⟨0x4000, 0x04, 0x04, .unsigned 1, 0, 2, .num 8, .y, .between 1 32, false⟩,
   ⟨0x4000, 0x05, 0x05, .unsigned 2, 0, 2, .num 100, .y, .between 10 10000, false⟩,
   ⟨0x4000, 0x06, 0x06, .unsigned 1, 0, 2, .num 2, .y, .between 1 8, false⟩,
   ⟨0x4001, 0x00, 0x00, .domain, 0, 2, .bytes [], .y, .full, false⟩,
   ⟨0x4002, 0x00, 0x00, .domain, 0, 255, .bytes [], .n, .full, false⟩,
   ⟨0x4010, 0x00, 0x00, .domain, 0, 2, .bytes [], .y, .full, false⟩,
   ⟨0x4011, 0x00, 0x00, .domain, 0, 255, .bytes [], .n, .full, false⟩,
   ⟨0x4020, 0x00, 0x00, .domain, 0, 2, .bytes [], .y, .full, false⟩,
   ⟨0x4030, 0x00, 0x00, .domain, 0, 2, .bytes [], .y, .full, false⟩,
   ⟨0x4031, 0x00, 0x00, .domain, 0, 2, .bytes [], .y, .full, false⟩,
   ⟨0x4040, 0x01, 0x01, .unsigned 4, 0, 255, .num 0, .n, .full, false⟩,
   ⟨0x4040, 0x02, 0x02, .unsigned 4, 0, 255, .num 0, .n, .full, false⟩,
   ⟨0x4040, 0x03, 0x03, .unsigned 4, 0, 255, .num 0, .n, .full, false⟩,
   ⟨0x4040, 0x04, 0x04, .unsigned 8, 0, 255, .num 0, .n, .full, false⟩,
   ⟨0x4040, 0x05, 0x05, .unsigned 4, 0, 255, .num 0, .n, .full, false⟩,
   ⟨0x4040, 0x06, 0x06, .unsigned 4, 0, 255, .num 0, .n, .full, false⟩,
   ⟨0x4040, 0x07, 0x07, .unsigned 8, 0, 255, .num 0, .n, .full, false⟩,
   ⟨0x4040, 0x08, 0x08, .unsigned 4, 0, 255, .num 0, .n, .full, false⟩,
   ⟨0x4040, 0x09, 0x09, .unsigned 4, 0, 255, .num 0, .n, .full, false⟩,
   ⟨0x4050, 0x01, 0x01, .unsigned 2, 0, 255, .num 65535, .n, .full, false⟩,
   ⟨0x4050, 0x02, 0x02, .signed 8, 0, 255, .num 0, .n, .full, false⟩,
   ⟨0x4050, 0x03, 0x03, .signed 8, 0, 255, .num 0, .n, .full, false⟩,
   ⟨0x4050, 0x04, 0x04, .unsigned 4, 0, 255, .num 0, .n, .full, false⟩]
/-- Entries 0x4100 to 0x41FF. -/
def odRows41 : List OdEntry :=
  [⟨0x4100, 0x01, 0x20, .unsigned 1, 0, 2, .num 0, .y, .oneOf [0, 1, 2], false⟩,
   ⟨0x4101, 0x01, 0x20, .unsigned 4, 0, 255, .num 0, .n, .full, false⟩,
   ⟨0x4102, 0x01, 0x01, .unsigned 1, 0, 2, .num 0, .yr, .oneOf [0, 1, 2, 3, 0xFF], false⟩,
   ⟨0x4102, 0x02, 0x02, .unsigned 1, 0, 2, .num 2, .yr, .oneOf [0, 1, 2, 3, 0xFF], false⟩,
   ⟨0x4103, 0x01, 0x01, .unsigned 1, 0, 2, .num 40, .y, .between 10 160, false⟩,
   ⟨0x4103, 0x02, 0x02, .unsigned 4, 0, 2, .num 10000, .y, .between 100 200000, false⟩,
   ⟨0x4103, 0x03, 0x03, .unsigned 2, 0, 2, .num 6144, .y, .between 0x1100 0x3000, false⟩,
   ⟨0x4103, 0x04, 0x04, .unsigned 2, 0, 2, .num 72, .y, .between 6 2160, false⟩,
   ⟨0x4103, 0x05, 0x05, .unsigned 2, 0, 2, .num 30, .y, .between 1 365, false⟩,
   ⟨0x4103, 0x06, 0x06, .unsigned 1, 0, 2, .num 5, .y, .between 1 100, false⟩,
   ⟨0x4103, 0x07, 0x07, .unsigned 2, 0, 2, .num 10, .y, .between 1 3600, false⟩,
   ⟨0x4103, 0x08, 0x08, .unsigned 1, 0, 2, .num 3, .y, .between 2 4, false⟩,
   ⟨0x4104, 0x01, 0x01, .unsigned 4, 0, 255, .num 0, .n, .full, false⟩,
   ⟨0x4104, 0x02, 0x02, .unsigned 4, 0, 255, .num 0, .n, .full, false⟩,
   ⟨0x4104, 0x03, 0x03, .unsigned 4, 0, 255, .num 0, .n, .full, false⟩,
   ⟨0x4104, 0x04, 0x04, .unsigned 4, 0, 255, .num 0, .n, .full, false⟩]
/-- Entries 0x4200 to 0x42FF. -/
def odRows42 : List OdEntry :=
  [⟨0x4200, 0x00, 0x00, .domain, 0, 1, .bytes [], .n, .full, false⟩,
   ⟨0x4201, 0x01, 0x20, .octets 16, 0, 2, .bytes (zeros 16), .y, .full, false⟩,
   ⟨0x4202, 0x01, 0x01, .unsigned 1, 0, 2, .num 3, .y, .between 0 7, true⟩,
   ⟨0x4202, 0x02, 0x02, .unsigned 1, 0, 2, .num 26, .y, .between 0 63, true⟩,
   ⟨0x4202, 0x03, 0x03, .unsigned 2, 0, 2, .num 128, .y, .between 64 192, false⟩,
   ⟨0x4202, 0x04, 0x04, .unsigned 2, 0, 2, .num 100, .y, .between 10 10000, false⟩,
   ⟨0x4202, 0x05, 0x05, .unsigned 4, 0, 2, .num 1000, .y, .between 1 4000000, true⟩,
   ⟨0x4202, 0x06, 0x06, .unsigned 2, 0, 2, .num 10, .y, .between 1 1000, false⟩,
   ⟨0x4202, 0x07, 0x07, .unsigned 1, 0, 1, .num 2, .y, .between 1 4, false⟩,
   ⟨0x4203, 0x00, 0x00, .domain, 0, 1, .bytes [], .n, .full, false⟩,
   ⟨0x4204, 0x00, 0x00, .domain, 0, 255, .bytes [], .n, .full, false⟩,
   ⟨0x4205, 0x00, 0x00, .unsigned 4, 255, 1, .num 0, .n, .bitsOf 0x3FFFF, false⟩,
   ⟨0x4206, 0x00, 0x00, .domain, 0, 255, .bytes [], .n, .full, false⟩,
   ⟨0x4207, 0x01, 0x01, .unsigned 4, 0, 255, .num 0, .n, .full, false⟩,
   ⟨0x4207, 0x02, 0x02, .unsigned 4, 0, 255, .num 0, .n, .full, false⟩,
   ⟨0x4207, 0x03, 0x03, .unsigned 4, 0, 255, .num 0, .n, .full, false⟩,
   ⟨0x4207, 0x04, 0x04, .unsigned 4, 0, 255, .num 0, .n, .full, false⟩,
   ⟨0x4207, 0x05, 0x05, .unsigned 4, 0, 255, .num 0, .n, .full, false⟩,
   ⟨0x4207, 0x06, 0x06, .unsigned 4, 0, 255, .num 0, .n, .full, false⟩,
   ⟨0x4207, 0x07, 0x07, .unsigned 4, 0, 255, .num 0, .n, .full, false⟩,
   ⟨0x4207, 0x08, 0x08, .unsigned 4, 0, 255, .num 0, .n, .full, false⟩,
   ⟨0x4207, 0x09, 0x09, .unsigned 4, 0, 255, .num 0, .n, .full, false⟩,
   ⟨0x4207, 0x0A, 0x0A, .unsigned 4, 0, 255, .num 0, .n, .full, false⟩,
   ⟨0x4207, 0x0B, 0x0B, .unsigned 4, 0, 255, .num 0, .n, .full, false⟩,
   ⟨0x4207, 0x0C, 0x0C, .unsigned 4, 0, 255, .num 0, .n, .full, false⟩,
   ⟨0x4208, 0x01, 0x20, .octets 6, 0, 255, .bytes (zeros 6), .c, .full, false⟩]
/-- Entries 0x5000 to 0x50FF. -/
def odRows50 : List OdEntry :=
  [⟨0x5000, 0x01, 0x01, .unsigned 1, 0, 255, .num 0, .n, .full, false⟩,
   ⟨0x5000, 0x02, 0x02, .unsigned 4, 255, 1, .num 0, .n, .full, false⟩,
   ⟨0x5000, 0x03, 0x03, .unsigned 4, 0, 255, .num 0, .y, .full, false⟩,
   ⟨0x5000, 0x04, 0x04, .unsigned 4, 0, 255, .num 0, .n, .full, false⟩,
   ⟨0x5001, 0x01, 0x04, .unsigned 1, 0, 1, .num 0, .y, .between 0 3, false⟩,
   ⟨0x5002, 0x01, 0x04, .unsigned 1, 0, 255, .num 0, .y, .full, false⟩,
   ⟨0x5003, 0x00, 0x00, .domain, 0, 255, .bytes [], .n, .full, false⟩,
   ⟨0x5004, 0x01, 0x01, .unsigned 4, 0, 2, .num 2000, .y, .between 100 100000, false⟩,
   ⟨0x5004, 0x02, 0x02, .unsigned 4, 0, 255, .num 0, .n, .full, false⟩,
   ⟨0x5005, 0x01, 0x01, .signed 2, 0, 2, .num 760, .y, .between 600 840, false⟩,
   ⟨0x5005, 0x02, 0x02, .signed 2, 0, 2, .num 840, .y, .between 0 880, false⟩,
   ⟨0x5006, 0x01, 0x01, .unsigned 1, 0, 255, .num 0, .y, .full, false⟩,
   ⟨0x5006, 0x02, 0x02, .unsigned 4, 0, 255, .num 0, .y, .full, false⟩,
   ⟨0x5020, 0x01, 0x01, .unsigned 2, 0, 2, .num 30, .y, .between 1 365, false⟩,
   ⟨0x5020, 0x02, 0x02, .unsigned 4, 255, 2, .num 0, .n, .full, false⟩,
   ⟨0x5020, 0x03, 0x03, .unsigned 2, 0, 2, .num 600, .y, .between 200 2000, false⟩,
   ⟨0x5020, 0x04, 0x04, .unsigned 2, 0, 2, .num 60, .y, .between 0 100, false⟩,
   ⟨0x5020, 0x05, 0x05, .unsigned 2, 0, 2, .num 20, .y, .between 5 50, false⟩,
   ⟨0x5020, 0x06, 0x06, .unsigned 2, 0, 2, .num 850, .y, .between 750 880, false⟩,
   ⟨0x5020, 0x07, 0x07, .unsigned 2, 0, 2, .num 3200, .y, .between 0 4095, false⟩,
   ⟨0x5021, 0x00, 0x00, .domain, 0, 255, .bytes [], .n, .full, false⟩]
/-- Entries 0x5100 to 0x51FF. -/
def odRows51 : List OdEntry :=
  [⟨0x5100, 0x01, 0x01, .unsigned 1, 0, 255, .num 0, .n, .full, false⟩,
   ⟨0x5100, 0x02, 0x02, .unsigned 4, 0, 255, .num 0, .n, .full, false⟩,
   ⟨0x5100, 0x03, 0x03, .unsigned 8, 0, 255, .num 0, .n, .full, false⟩,
   ⟨0x5100, 0x04, 0x04, .unsigned 4, 0, 255, .num 0, .n, .full, false⟩,
   ⟨0x5100, 0x05, 0x05, .unsigned 4, 0, 255, .num 0, .n, .full, false⟩,
   ⟨0x5100, 0x06, 0x06, .unsigned 1, 255, 2, .num 0, .n, .oneOf [1], false⟩,
   ⟨0x5101, 0x00, 0x00, .domain, 0, 255, .bytes [], .y, .full, false⟩,
   ⟨0x5102, 0x01, 0x01, .bool, 0, 2, .num 1, .y, .full, false⟩,
   ⟨0x5102, 0x02, 0x02, .unsigned 2, 0, 2, .num 10, .y, .between 2 1000, false⟩,
   ⟨0x5102, 0x03, 0x03, .unsigned 2, 0, 2, .num 45241, .yr, .between 1 65535, false⟩]
/-- Entries 0x5200 to 0x52FF. -/
def odRows52 : List OdEntry :=
  [⟨0x5200, 0x01, 0x01, .unsigned 1, 0, 255, .num 0, .n, .full, false⟩,
   ⟨0x5200, 0x02, 0x02, .domain, 255, 2, .bytes [], .n, .full, false⟩,
   ⟨0x5200, 0x03, 0x03, .unsigned 4, 255, 2, .num 0, .n, .full, false⟩,
   ⟨0x5200, 0x04, 0x04, .unsigned 4, 255, 2, .num 0, .n, .full, false⟩,
   ⟨0x5200, 0x05, 0x05, .unsigned 1, 0, 2, .num 0, .y, .oneOf [0, 1], false⟩,
   ⟨0x5200, 0x06, 0x06, .unsigned 1, 0, 255, .num 0, .n, .full, false⟩,
   ⟨0x5200, 0x07, 0x07, .unsigned 4, 0, 255, .num 0, .n, .full, false⟩,
   ⟨0x5200, 0x08, 0x08, .unsigned 4, 0, 255, .num Config.secFuse.toNat, .n, .full, false⟩]
/-- Entries 0x6000 to 0x60FF. -/
def odRows60 : List OdEntry :=
  [⟨0x6000, 0x01, 0x01, .bool, 0, 1, .num 0, .n, .full, false⟩,
   ⟨0x6000, 0x02, 0x02, .bool, 0, 2, .num 0, .n, .full, false⟩,
   ⟨0x6000, 0x03, 0x03, .bool, 0, 1, .num 0, .n, .full, false⟩,
   ⟨0x6000, 0x04, 0x04, .bool, 0, 2, .num 0, .n, .full, true⟩,
   ⟨0x6000, 0x05, 0x05, .unsigned 4, 0, 1, .num 1000, .y, .between 10 600000, false⟩,
   ⟨0x6000, 0x06, 0x06, .unsigned 1, 0, 2, .num 0, .n, .bitsOf 0x07, false⟩,
   ⟨0x6000, 0x07, 0x07, .unsigned 1, 255, 1, .num 0, .n, .oneOf [1], false⟩,
   ⟨0x6000, 0x08, 0x08, .bool, 0, 2, .num 0, .y, .full, false⟩,
   ⟨0x6010, 0x01, 0x0D, .unsigned 8, 0, 255, .num 0, .n, .full, false⟩,
   ⟨0x6011, 0x01, 0x0F, .unsigned 8, 0, 255, .num 0, .n, .full, false⟩,
   ⟨0x6012, 0x01, 0x0A, .unsigned 8, 0, 255, .num 0, .n, .full, false⟩,
   ⟨0x6013, 0x00, 0x00, .domain, 0, 255, .bytes [], .n, .full, false⟩,
   ⟨0x6020, 0x00, 0x00, .domain, 0, 255, .bytes [], .n, .full, false⟩,
   ⟨0x6030, 0x00, 0x00, .domain, 0, 255, .bytes [], .n, .full, false⟩,
   ⟨0x6040, 0x01, 0x04, .unsigned 2, 0, 2, .num 65535, .n, .full, false⟩,
   ⟨0x6050, 0x01, 0x01, .unsigned 4, 255, 2, .num 0, .n, .oneOf [0x5709, 0x6E1A], false⟩,
   ⟨0x6050, 0x02, 0x02, .unsigned 1, 0, 255, .num 0, .n, .full, false⟩,
   ⟨0x6050, 0x03, 0x03, .unsigned 8, 0, 255, .num 0, .n, .full, false⟩,
   ⟨0x6050, 0x04, 0x04, .unsigned 8, 0, 255, .num 0, .n, .full, false⟩,
   ⟨0x6051, 0x00, 0x00, .domain, 0, 2, .bytes Config.scanMap, .c, .full, false⟩,
   ⟨0x6052, 0x00, 0x00, .domain, 2, 255, .bytes [], .n, .full, false⟩,
   ⟨0x6053, 0x01, 0x01, .unsigned 8, 0, 2, .num 0, .n, .full, false⟩,
   ⟨0x6053, 0x02, 0x02, .unsigned 4, 0, 2, .num 0, .n, .between 1 16777216, false⟩,
   ⟨0x6053, 0x03, 0x03, .domain, 2, 255, .bytes [], .n, .full, false⟩,
   ⟨0x6060, 0x01, 0x01, .unsigned 4, 0, 255, .num 0, .n, .full, false⟩]

/-- Every entry a table lists. -/
def odTable : List OdEntry :=
  odRows10 ++ odRows11 ++ odRows12 ++ odRows13 ++ odRows14 ++ odRows20 ++ odRows21 ++ odRows30 ++ odRows40 ++ odRows41 ++ odRows42 ++ odRows50 ++ odRows51 ++ odRows52 ++ odRows60

/-- The row that lists index:sub. -/
def odRow (index sub : Nat) : Option OdEntry :=
  odTable.find? fun e => e.index == index && e.lo ≤ sub && sub ≤ e.hi

/-- The row of a key. -/
def odKeyRow (key : Nat) : Option OdEntry := odRow (key / 256) (key % 256)

/-- Does an index exist (R71)? -/
def odIndexExists (index : Nat) : Bool := odTable.any fun e => e.index == index

/-- The highest subindex listed for an index (R71). -/
def odMaxSub (index : Nat) : Nat :=
  odTable.foldl (fun m e => if e.index == index then max m e.hi else m) 0

/-- An index listed from subindex 1 up has a subindex 0 holding the highest (R71). -/
def odHasCount (index : Nat) : Bool := (odRow index 0).isNone && odIndexExists index

/-- The entry at index:sub: a listed row, or the made subindex 0 (R71). -/
def odLookup (index sub : Nat) : Option OdEntry :=
  match odRow index sub with
  | some e => some e
  | none =>
    if sub = 0 && odHasCount index then
      some ⟨index, 0, 0, .unsigned 1, 0, 255, .num (odMaxSub index), .c, .full, false⟩
    else none

/-- Bytes of a value of the type; 0 for types of no fixed size (R64). -/
def OdType.size : OdType → Nat
  | .bool => 1
  | .unsigned n => n
  | .signed n => n
  | .octets n => n
  | .str => 0
  | .domain => 0

/-- The type code (R64). -/
def OdType.code : OdType → Nat
  | .bool => 0x01
  | .unsigned n => if n = 1 then 0x02 else if n = 2 then 0x03 else if n = 4 then 0x04 else 0x05
  | .signed n => if n = 1 then 0x06 else if n = 2 then 0x07 else if n = 4 then 0x08 else 0x09
  | .octets _ => 0x0B
  | .str => 0x0C
  | .domain => 0x0D

/-- Is the type numeric (it has a minimum and a maximum, R63)? -/
def OdType.numeric : OdType → Bool
  | .bool => true
  | .unsigned _ => true
  | .signed _ => true
  | _ => false

/-- The maximum length in bytes of a value (R64, R77). -/
def OdType.maxLen : OdType → Nat
  | .str => 255
  | .domain => 16777216
  | t => t.size

/-- The integer a numeric value stands for. -/
def OdType.toInt (t : OdType) (n : Nat) : Int :=
  match t with
  | .signed k => Machine.signed (8 * k) n
  | _ => n

/-- The number of a value; bytes count as 0. -/
def OdVal.toNat : OdVal → Nat
  | .num n => n
  | .bytes _ => 0

/-- The bytes of a value of type t as a message carries it (R15). -/
def OdVal.toBytes (t : OdType) : OdVal → Bytes
  | .num n => natLe t.size n
  | .bytes b => match t with
    | .octets n => (b ++ List.replicate (n - b.length) 0#8).take n
    | _ => b

/-- The value a message's bytes spell for type t. -/
def OdVal.ofBytes (t : OdType) (b : Bytes) : OdVal :=
  if t.numeric then .num (leNat b) else .bytes b

end Machine
end Sys2Proof
end

