-- ==== Sys2Proof/Machine/Sparse.lean ====
section
/-!
DEFINITION. Sys2Proof/Machine/Sparse.lean: data held by key in one canonical form: keys strictly rising, and no
entry equal to what an unlisted key reads as. Memory (R37, R53) and every table of units is held this way, so
equal contents are equal lists.
-/
namespace Sys2Proof
namespace Machine

/-- Data of type a by natural-number key. -/
abbrev Sparse (α : Type) := List (Nat × α)

/-- What key k reads as; d is what an unlisted key reads as. -/
def Sparse.get {α : Type} (d : α) : Sparse α → Nat → α
  | [], _ => d
  | (a, v) :: m, k => if k = a then v else Sparse.get d m k

/-- Remove key k. -/
def Sparse.drop {α : Type} (m : Sparse α) (k : Nat) : Sparse α := m.filter fun p => p.1 != k

/-- Put v at key k; the keys stay rising. -/
def Sparse.put {α : Type} : Sparse α → Nat → α → Sparse α
  | [], k, v => [(k, v)]
  | (a, w) :: m, k, v =>
    if k < a then (k, v) :: (a, w) :: m
    else if k = a then (a, v) :: m
    else (a, w) :: Sparse.put m k v

/-- Set key k to v; the canonical form is kept. -/
def Sparse.set {α : Type} [DecidableEq α] (d : α) (m : Sparse α) (k : Nat) (v : α) : Sparse α :=
  if v = d then m.drop k else m.put k v

/-- Apply f to what key k reads as. -/
def Sparse.modify {α : Type} [DecidableEq α] (d : α) (m : Sparse α) (k : Nat) (f : α → α) : Sparse α :=
  m.set d k (f (m.get d k))

/-- Every key of m is above lo. -/
def Sparse.above {α : Type} (lo : Nat) : Sparse α → Bool
  | [] => true
  | (a, _) :: m => lo < a && Sparse.above lo m

/-- The canonical form: keys strictly rising, no entry equal to the default. -/
def Sparse.wf {α : Type} [DecidableEq α] (d : α) : Sparse α → Bool
  | [] => true
  | (a, v) :: m => decide (v ≠ d) && Sparse.above a m && Sparse.wf d m

/-- Optional data by key: an unlisted key holds nothing. The list is kept in rising key order. -/
def Sparse.find {α : Type} : Sparse α → Nat → Option α
  | [], _ => none
  | (a, v) :: m, k => if k = a then some v else Sparse.find m k

/-- Apply f to the data at key k where there is any. -/
def Sparse.adjust {α : Type} : Sparse α → Nat → (α → α) → Sparse α
  | [], _, _ => []
  | (a, w) :: m, k, f => if k = a then (a, f w) :: m else (a, w) :: Sparse.adjust m k f

/-- Is there data at key k? -/
def Sparse.has {α : Type} (m : Sparse α) (k : Nat) : Bool := (m.find k).isSome

/-- The keys, rising. -/
def Sparse.keys {α : Type} (m : Sparse α) : List Nat := m.map Prod.fst

/-- The data, in key order. -/
def Sparse.vals {α : Type} (m : Sparse α) : List α := m.map Prod.snd

/-- The least key from 0 up that is not listed in the rising list m, searched from k. -/
def Sparse.freeKey {α : Type} : Sparse α → Nat → Nat
  | [], k => k
  | (a, _) :: m, k => if k < a then k else Sparse.freeKey m (max k (a + 1))

end Machine
end Sys2Proof
end

