-- ==== Sys2Proof/Machine/StBase.lean ====
section
/-!
DEFINITION. Sys2Proof/Machine/StBase.lean: state of the package as a whole: clocks, sync objects, package fences,
the dictionary and its sessions, the interrupt controller, debug, JTAG, and what the block sends out.
Field defaults are the reset values (the spec's where it gives them, else 0, empty or none: assumption log 8).
-/
namespace Sys2Proof
namespace Machine

/-- Clocks (R34): the 64-bit timestamp in ns, the eighths of a ns passed since it last counted (a hub clock is five
eighths of a ns), and hub clocks since reset. -/
structure Clock where
  now : Nat := 0
  eighths : Nat := 0
  hclk : Nat := 0
deriving DecidableEq, Repr

/-- A sync object (R45): KIND 4 bits, GEN 4 bits, FIRED, LIMIT 48 bits, VALUE 64 bits. -/
structure SyncObj where
  kind : Nat := 0
  gen : Nat := 0
  fired : Bool := false
  limit : Nat := 0
  value : Nat := 0
deriving DecidableEq, Repr

/-- What leaves the block. Nothing reads it back (assumption log 7). -/
inductive Output where
  /-- a frame sent on optical port 4k + p, link control included -/
  | frame (port : Nat) (bytes : Bytes)
  /-- an RDMA or Acsal-SR packet given to path p of a connection -/
  | packet (conn path psn : Nat) (bytes : Bytes)
  /-- a UDP datagram of the management port -/
  | datagram (udpPort : Nat) (bytes : Bytes)
  /-- a write into host memory by the PCIe endpoint -/
  | hostWrite (addr : Nat) (bytes : Bytes)
  /-- an MSI-X message -/
  | msix (vector : Nat)
  /-- a level put on a named ball -/
  | pin (name : String) (level : Bool)
  /-- a voltage target written on AVSBus -/
  | avs (rail millivolt : Nat)
  /-- a link-layer control message of a port: kind, argument -/
  | link (port : Nat) (kind : String) (arg : Nat)
  /-- a lane-control request in a marker of a port -/
  | marker (port op lane : Nat)
  /-- a frame addressed to this device, given to the local unit of its class: class, source, FLOW, payload -/
  | deliver (cls src flow : Nat) (payload : Bytes)
  /-- the cable map, sent to a member by the acting master -/
  | mapTo (addr : Nat)
  /-- bits shifted out at TDO -/
  | tdo (bytes : Bytes)
  /-- a command sent to a flash die of a channel -/
  | flashOp (channel : Nat) (op : String) (addr : Nat)
  /-- a value returned to the agent that read a register or memory -/
  | readData (agent : Nat) (value : Nat)
  /-- bytes returned to the reader of a scan or memory image -/
  | readBytes (bytes : Bytes)
  /-- a status returned to resident firmware -/
  | fwStatus (code : Nat)
deriving DecidableEq, Repr

/-- An open session (R83, R84, R88): path is the master number of R89 (2 fabric, 3 mailbox, 4 management), addr the
fabric address of the other end (fabric only), sid its identifier, seq the last accepted SEQ (0 before the first),
reply the reply given to it, active the time of the last accepted request. -/
structure Session where
  path : Nat := 4
  addr : Nat := 0
  level : Nat := 0
  sid : Nat := 0
  key : Bytes := []
  seq : Nat := 0
  reply : Bytes := []
  active : Nat := 0
deriving DecidableEq, Repr

/-- A HELLO that waits for its PROOF (R87). -/
structure Hello where
  path : Nat := 4
  addr : Nat := 0
  level : Nat := 0
  sid : Nat := 0
  nc : Bytes := []
  nd : Bytes := []
  time : Nat := 0
deriving DecidableEq, Repr

/-- The DOMAIN transfer that holds an entry (R75): staged holds the bytes written so far, or the bytes being read. -/
structure DomainHold where
  key : Nat := 0
  sid : Nat := 0
  isWrite : Bool := false
  off : Nat := 0
  staged : Bytes := []
  time : Nat := 0
deriving DecidableEq, Repr

/-- A write that waits for, or is in, the persistent store (R67, R91); master and sid are whom to acknowledge. -/
structure StoreReq where
  key : Nat := 0
  val : OdVal := .num 0
  master : Nat := 1
  sid : Nat := 0
  seq : Nat := 0
  op : Nat := 2
deriving DecidableEq, Repr

/-- The dictionary engine. live: values that differ from the default; stored: the persistent store; latched: values
of YR entries in force since the last reset (R66). -/
structure Dict where
  live : List (Nat × OdVal) := []
  stored : List (Nat × OdVal) := []
  latched : List (Nat × OdVal) := []
  sessions : List Session := []
  hellos : List Hello := []
  holds : List DomainHold := []
  stores : List StoreReq := []
  restoreArmed : Bool := false
  fails : Sparse Nat := []
  locks : List (Nat × Nat) := []
deriving DecidableEq, Repr

/-- The PCIe mailbox registers MBX_CTL and MBX_STAT (R81); MBX_REQ and MBX_RSP are held in memory at their package
addresses. -/
structure Mailbox where
  reqLen : Nat := 0
  irqEn : Bool := false
  rspLen : Nat := 0
  err : Bool := false
  done : Bool := false
  busy : Bool := false
deriving DecidableEq, Repr

/-- One shared interrupt source, INT_SRC (R601). -/
structure IntSrc where
  overrun : Bool := false
  pending : Bool := false
  line : Bool := false
  prio : Nat := 0
  enable : Bool := false
  target : Nat := 0
deriving DecidableEq, Repr

/-- One target of the interrupt controller (R601), with its pair's mstatus.MIE and WFI state (R597). -/
structure IntTarget where
  thresh : Nat := 0
  privPrio : Nat := 4
  privEn : Nat := 0
  privPend : Nat := 0
  timecmp : Nat := 0xFFFFFFFFFFFFFFFF
  wakeValid : Bool := false
  wakeId : Nat := 0
  mie : Bool := false
  wfi : Bool := false
deriving DecidableEq, Repr

/-- ADDRERR of one hub (R601): the first address-error event since it was last read. -/
structure AddrErr where
  valid : Bool := false
  agent : Nat := 0
  more : Bool := false
  addr : Nat := 0
deriving DecidableEq, Repr

/-- The interrupt controller. -/
structure IntC where
  srcs : Sparse IntSrc := []
  tgts : Sparse IntTarget := []
  addrErr : Sparse AddrErr := []
deriving DecidableEq, Repr

/-- An event record (R610). -/
structure EvRec where
  time : Nat := 0
  kind : Nat := 0
  agent : Nat := 0
  sub : Nat := 0
  arg : Nat := 0
deriving DecidableEq, Repr

/-- Debug features (R602 to R622): counters by unit (0 to 63 tiles, 64 to 67 hubs) * 38 + counter; the hub clock at
which counting starts or stops; the wait-for graph; event rings by ring number (an agent number, 0x80 + n Pavane of
Hub n, 0x90 + n Promenade of Hub n), newest first; the stop, with the draw number its scan chains are known by (assumption log 48). -/
structure Debug where
  counters : Sparse Nat := []
  countFrom : Option Nat := none
  countUntil : Option Nat := none
  wfgTrigger : Option (Nat × Nat) := none
  wfgFirst : List (Nat × Nat) := []
  wfgFirstTime : Option Nat := none
  lastProgress : Sparse Nat := []
  rings : Sparse (List EvRec) := []
  startup : Bool := true
  recovery : Bool := false
  stop : Bool := false
  scanNo : Nat := 0
  stopCause : Nat := 0
  stopOwn : Bool := false
  releasePending : Bool := false
  stopNLow : Bool := false
  tmuxOwner : Sparse Nat := []
deriving DecidableEq, Repr

/-- The TAP (R623 to R625). -/
structure Jtag where
  ir : Nat := 0x02
  unlocked : Bool := false
  nonce : Bytes := []
  nonceGood : Bool := false
  boundary : Bytes := []
  held : Bool := false
deriving DecidableEq, Repr

end Machine
end Sys2Proof
end

