-- ==== Sys2Proof/Machine/StFabric.lean ====
section
/-!
DEFINITION. Sys2Proof/Machine/StFabric.lean: state of Promenade and of the links (R460 to R488).
-/
namespace Sys2Proof
namespace Machine

/-- A frame of a local unit on its way into Promenade (R461). port is set for a frame that must leave on one port. -/
structure UnitFrame where
  dst : Nat := 0xFFFF
  cls : Nat := 0
  mc : Bool := false
  flow : Nat := 0
  eseq : Nat := 0
  payload : Bytes := []
  port : Option Nat := none
deriving DecidableEq, Repr

/-- A frame inside Promenade: its header without LSEQ, and its payload (R461). -/
structure Frame where
  dst : Nat := 0
  src : Nat := 0
  cls : Nat := 0
  mc : Bool := false
  colour : Nat := 0
  hops : Nat := 0
  flow : Nat := 0
  eseq : Nat := 0
  payload : Bytes := []
deriving DecidableEq, Repr

/-- A link (R463): the next LSEQ sent, the replay buffer oldest first, credits held per TC, the next LSEQ expected, the
frames received since the last ACK and when the first of them came, whether a NAK is out, when the last frame was sent,
credit units owed to the partner per TC. -/
structure Link where
  txSeq : Nat := 0
  replay : List (Nat × Frame) := []
  credits : Sparse Nat := []
  rxSeq : Nat := 0
  toAck : Nat := 0
  ackFrom : Nat := 0
  nak : Bool := false
  sentAt : Nat := 0
  owed : Sparse Nat := []
deriving DecidableEq, Repr

/-- A neighbour on a port (R468, R469), as its last HELLO told. -/
structure Neighbour where
  addr : Nat := 0xFFFF
  port : Nat := 0
  serial : Nat := 0
  domain : Nat := 0
  flags : Nat := 0
  dist : Nat := 0xFFFF
  mapVersion : Nat := 0
  seen : Nat := 0
  mismatch : Bool := false
deriving DecidableEq, Repr

/-- An LSA kept (R474): its sequence, its entries as (port, neighbour), when it came. -/
structure Lsa where
  seq : Nat := 0
  links : List (Nat × Nat) := []
deriving DecidableEq, Repr

/-- A policer's buckets with 32 fractional bits: committed, and excess or peak (R482). -/
structure Policer where
  c : Nat := 0
  e : Nat := 0
  since : Nat := 0
deriving DecidableEq, Repr

/-- Arrival order of ring frames from one source to one ring (R466). -/
structure RingSeq where
  next : Nat := 0
  held : List (Nat × Bytes) := []
deriving DecidableEq, Repr

/-- A measurement of the offset to one device (R487): exchanges begun, the outstanding one (SEQ, T1), the best as
(round trip, offset); src whether the peer is a timing source. -/
structure OffsetMeas where
  peer : Nat := 0xFFFF
  done : Nat := 0
  last : Nat := 0
  out : Option (Nat × Nat) := none
  best : Option (Int × Int) := none
  src : Bool := false
deriving DecidableEq, Repr

/-- A fan-out delivery (R480): its record's status bytes, the ports named, the holding that carries the names. -/
structure Fanout where
  id : Nat := 0
  status : List Nat := []
  ports : List Nat := []
  hub : Nat := 0
  pool : Nat := 0
  hold : Nat := 0
  owner : Nat := 0
deriving DecidableEq, Repr

/-- Promenade. units: frames of local units not yet in an egress queue, oldest first; egress by port * 8 + TC; members
the member table, a port set by member; granted the serial an address was last assigned to; proxies the (serial, port)
pairs of requests forwarded. -/
structure Fabric where
  units : List UnitFrame := []
  egress : Sparse (List Frame) := []
  links : Sparse Link := []
  nbrs : Sparse Neighbour := []
  lsas : Sparse Lsa := []
  lsaSeq : Nat := 0
  lsaAt : Nat := 0
  members : Sparse Nat := []
  helloAt : Sparse Nat := []
  acting : Bool := false
  reqAt : Nat := 0
  proxies : List (Nat × Nat) := []
  policers : Sparse Policer := []
  shapers : Sparse Policer := []
  rings : Sparse RingSeq := []
  offsets : List OffsetMeas := []
  offsetSeq : Nat := 0
  fanouts : List Fanout := []
  granted : Sparse Nat := []
deriving DecidableEq, Repr

end Machine
end Sys2Proof
end

