-- ==== Sys2Proof/Machine/StFlash.lean ====
section
/-!
DEFINITION. Sys2Proof/Machine/StFlash.lean: state of the flash channels and media management (R382 to R414). What is on
flash and the health record survive a reset.
-/
namespace Sys2Proof
namespace Machine

/-- What a word line programs: a data codeword of a journal record, a record, the four codewords of a map page, a
moved codeword, pad data. phys is a flash address without STATE (R388). -/
inductive FlashItem where
  | data (phys seq : Nat)
  | record (seq : Nat)
  | mapPage (page phys seq : Nat) (ents : Sparse Nat)
  | moved (phys old lpn : Nat)
  | pad
deriving DecidableEq, Repr

/-- One of the five open superblocks (R403): 0 host data, 1 garbage collection, 2 parity, 3 map pages, 4 journal. pos
counts codewords placed in the superblock; wl word lines programmed; buf waits for a word line, prog is being
programmed while busy, last is programmed and not yet durable (R394), doneAt when it was programmed. -/
structure FStream where
  sb : Option Nat := none
  pos : Nat := 0
  wl : Nat := 0
  buf : List FlashItem := []
  prog : List FlashItem := []
  last : List FlashItem := []
  busy : Bool := false
  doneAt : Nat := 0
deriving DecidableEq, Repr

/-- A journal record since the last checkpoint (R391). ents are map entries; waits the data codewords not yet durable
(R392); olds, for a move, the locations its entries must still name (R404); pageEnts, for TYPE 4, the
entries of the new copy; ready durable in flash; durable applied. -/
structure JRec where
  seq : Nat := 0
  type : Nat := 1
  first : Nat := 0
  version : Nat := 0
  ents : List Nat := []
  waits : List Nat := []
  olds : List Nat := []
  pageEnts : Sparse Nat := []
  ready : Bool := false
  durable : Bool := false
deriving DecidableEq, Repr

/-- A directory entry (R389), with the entries of the copy it names. -/
structure MapPg where
  addr : Nat := 0
  seq : Nat := 0
  version : Nat := 0
  ents : Sparse Nat := []
deriving DecidableEq, Repr

/-- A map page in the map cache (R390). -/
structure CachePg where
  dirty : Bool := false
  seq : Nat := 0
  lastUse : Nat := 0
  writing : Bool := false
deriving DecidableEq, Repr

/-- A copy of a map page in the delta table of a held version (R400). -/
structure DeltaPg where
  version : Nat := 0
  page : Nat := 0
  ents : Sparse Nat := []
deriving DecidableEq, Repr

/-- States of a superblock. -/
inductive SbSt where
  | free | opened | closed | erasing
deriving DecidableEq, Repr

/-- A superblock (R403, R405). -/
structure SbInfo where
  st : SbSt := .free
  erases : Nat := 0
deriving DecidableEq, Repr

/-- Contributions of one member to one stripe (R408): the last applied SEQ with the pages applied under it, and those
that wait for an earlier one: SEQ, SEQ before it, page, data. -/
structure ParityIn where
  seq : Nat := 0
  pages : List Nat := []
  waiting : List (Nat × Nat × Nat × Bytes) := []
deriving DecidableEq, Repr

/-- A secure discard in progress (R412): the ring and command number it belongs to, the superblocks still to erase. -/
structure Secure where
  ring : Nat := 0
  seq : Nat := 0
  sbs : List Nat := []
deriving DecidableEq, Repr

/-- The health record's own counts (R413). -/
structure Health where
  retiredBlocks : Nat := 0
  retiredDies : Nat := 0
  degraded : Nat := 0
  tempNow : Int := 0
  tempMax : Int := -4096
  err : Sparse Nat := []
  bins : Sparse Nat := []
deriving DecidableEq, Repr

/-- Flash. cw holds what is programmed and not erased, with the LPN it was written for,
by flash address; map the map entries in force, by LPN, a mapped
LPN alone being listed (R388); dir and checkpoint what mount starts from; chanRate 2800 for a degraded channel, 0 for a
retired one; retired the retired blocks by bits [37:14] of an address; victim the superblock garbage
collection empties and gcOn whether it goes on to GC_HIGH (R403); pending the record SEQ of every parity contribution sent and not
reported durable (R409). -/
structure Flash where
  cw : Sparse (Nat × Bytes) := []
  map : Sparse Nat := []
  dir : Sparse MapPg := []
  cache : Sparse CachePg := []
  nextSeq : Nat := 1
  recs : List JRec := []
  checkpointAt : Nat := 0
  checkpointSeq : Nat := 0
  mounted : Bool := true
  streams : Sparse FStream := []
  held : List Nat := []
  delta : List DeltaPg := []
  openVer : Nat := 1
  sbs : Sparse SbInfo := []
  victim : Option Nat := none
  gcOn : Bool := false
  parity : Sparse ParityIn := []
  pending : List Nat := []
  secure : List Secure := []
  chanRate : Sparse Nat := []
  trained : Sparse Bool := []
  diesOut : List Nat := []
  retired : List Nat := []
  health : Health := {}
  healthAt : Nat := 0
deriving DecidableEq, Repr

end Machine
end Sys2Proof
end

