-- ==== Sys2Proof/Machine/StGroup.lean ====
section
/-!
DEFINITION. Sys2Proof/Machine/StGroup.lean: state of groups, roles and recovery (R513 to R537) and of the safety
controller (R538 to R560).
-/
namespace Sys2Proof
namespace Machine

/-- A role of the group (R537): its holder's fabric address (0xFFFF none) and its STATE. -/
structure RoleRec where
  holder : Nat := 0xFFFF
  state : Nat := 0
deriving DecidableEq, Repr

/-- A recovery message sent that waits for its answer (R518): what is awaited, the frame, when it was last sent. -/
structure AwaitMsg where
  kind : Nat := 0
  key : Nat := 0
  dst : Nat := 0
  payload : Bytes := []
  time : Nat := 0
deriving DecidableEq, Repr

/-- A SEAL_INTENT stored for a role of which the member is a partner (R516): parts received of PARTS. -/
structure IntentRec where
  step : Nat := 0
  rank : Nat := 0
  parts : Nat := 1
  got : Sparse Bytes := []
  commit : Bytes := []
deriving DecidableEq, Repr

/-- INTENT_ACKs the owner has for a (step, rank): (holder address, part) pairs. -/
structure IntentAcks where
  step : Nat := 0
  rank : Nat := 0
  parts : Nat := 1
  holders : List Nat := []
  acks : List (Nat × Nat) := []
deriving DecidableEq, Repr

/-- A takeover, swap or return in progress (R523, R531). -/
structure Swap where
  role : Nat := 0
  reason : Nat := 0
  boundary : Nat := 0
  giving : Bool := false
  peer : Nat := 0xFFFF
  time : Nat := 0
deriving DecidableEq, Repr

/-- Group state of the member. roles by role number; own the roles this device holds (at most two, R514); rolesN is W;
spareAddr the spare position's holder; master the acting master's address; hb the last HEARTBEAT time by sender;
slackSeen the last step whose slack was evaluated; loadAt the time of the last JOB_LOAD; wanted the (role, REASON) requests this coordinator has sent and not had answered; marks SEAL_MARKs of the rollback in progress by rank; meds the last SLACK_PU by sender. -/
structure Group where
  roles : Sparse RoleRec := []
  rolesN : Nat := 0
  own : List Nat := []
  isSpare : Bool := false
  spareAddr : Nat := 0xFFFF
  master : Nat := 0xFFFF
  rbId : Nat := 0
  fenced : Bool := false
  fencedAt : Nat := 0
  hb : Sparse Nat := []
  hbSent : Nat := 0
  slack : Int := 0
  slacks : Sparse Nat := []
  lowSteps : Sparse Nat := []
  awaits : List AwaitMsg := []
  intents : List IntentRec := []
  acks : List IntentAcks := []
  rollback : Bool := false
  rollbackAt : Nat := 0
  marks : Sparse (Option Nat) := []
  restart : Nat := 0
  swap : Option Swap := none
  takenRole : Option Nat := none
  ackAt : Nat := 0
  loadAt : Option Nat := none
  mirrorJob : Sparse Byte := []
  mirrorMap : Sparse Byte := []
  mirrorHot : Sparse Byte := []
  jobPartHeld : Bool := false
  rebuilding : Bool := false
  pastFaults : List (Nat × Nat) := []
  slackSeen : Nat := 0
  wanted : List (Nat × Nat) := []
deriving DecidableEq, Repr

/-- A SLOT_DONE held at a hub until its canaries pass (R542). -/
structure HeldNotice where
  hub : Nat := 0
  tile : Nat := 0
  dst : Nat := 0
  payload : Bytes := []
  heldAt : Nat := 0
deriving DecidableEq, Repr

/-- The commit watchdog of a rank and step (R550): the deadline passed at hub clock time, no seal and no MISS sent yet. -/
structure Watch where
  step : Nat := 0
  rank : Nat := 0
  time : Nat := 0
deriving DecidableEq, Repr

/-- Safety state (R538 to R560); SEAL_HOLD, SAFETY_STATE and the counts are dictionary entries. gates by hub: the seal
gate is closed; hubStart and hubRuns the hub clock of the last START and the hub canary runs since; hubCanary and
tileCanary the time of the last run passed; detectTime and detectRb the newest detection and RB_ID then; log the detection
records, oldest first. -/
structure Safety where
  gates : Sparse Bool := []
  held : List HeldNotice := []
  hubCanary : Sparse Nat := []
  tileCanary : Sparse Nat := []
  detectTime : Nat := 0
  detectRb : Nat := 0
  lastMode : Nat := 0
  reacting : Bool := false
  faultN : Bool := false
  hubStart : Nat := 0
  hubRuns : Sparse Nat := []
  hbSeq : Nat := 0
  hbTime : Nat := 0
  missReported : Bool := false
  watches : List Watch := []
  log : List Bytes := []
deriving DecidableEq, Repr

end Machine
end Sys2Proof
end

