-- ==== Sys2Proof/Machine/StHub.lean ====
section
/-!
DEFINITION. Sys2Proof/Machine/StHub.lean: state of the hubs: the cell pools (R328 to R347), the DMA engines (R348 to
R360), the codec engines and the epoch cache (R313 to R326), the text engine and the grammar service (R362 to R381).
-/
namespace Sys2Proof
namespace Machine

/-- OWN_CFG of a pool owner (R345). -/
structure OwnCfg where
  runM1 : Nat := 0
  limit : Nat := 0xFFFFFF
  reserve : Nat := 0
deriving DecidableEq, Repr

/-- A run or chain held (R332, R343): its pieces as (first cell, count), head first; its named owners, earliest
first; its grant time in ns. -/
structure Holding where
  id : Nat := 0
  pieces : List (Nat × Nat) := []
  chain : Bool := false
  names : List Nat := []
  time : Nat := 0
deriving DecidableEq, Repr

/-- Who waits for cells: the reader of a TAKE port, a Reel thread whose LD reads it (nd: the LD is ND-marked), or a hub unit. -/
inductive TakeFor where
  | read (agent : Nat)
  | thread (tile thread sd : Nat) (nd : Bool)
  | unit
deriving DecidableEq, Repr

/-- A request for cells (R339). -/
structure PoolReq where
  id : Nat := 0
  owner : Nat := 0
  cells : Nat := 1
  chain : Bool := false
  agent : Nat := 0
  who : TakeFor := .unit
deriving DecidableEq, Repr

/-- A pool (R328): used counts the cells its bitmap shows as taken. -/
structure Pool where
  used : Nat := 0
  cfg : Sparse OwnCfg := []
  held : List Holding := []
  waiting : List PoolReq := []
deriving DecidableEq, Repr

/-- States of a DMA channel (R350). -/
inductive DmaSt where
  | disabled | idle | running | paced | preempted | stopping | halted
deriving DecidableEq, Repr

/-- A DMA channel (R350 to R360). desc, pace, lvl, sts are its registers; cur the descriptor in progress, src dst len
flags next its fields; done the bytes written; buf the read bytes of the burst in progress (or kept from a broken one) not
yet written; mover whether it holds a mover; since when it waits, in hub clocks; stopCode the code of the record that ends
a stop and shut whether it ends in state 0; accRetries and descRetries the retries of the failing access and of the
descriptor. -/
structure DmaCh where
  st : DmaSt := .disabled
  enable : Bool := false
  irqEn : Bool := false
  pendingEn : Bool := false
  refused : Bool := false
  doneBit : Bool := false
  err : Bool := false
  retriesUsed : Nat := 0
  cfg : Nat := 0x30
  desc : Nat := 0
  cur : Nat := 0
  pace : Nat := 0
  lvl : Nat := 0
  sts : Nat := 0
  src : Nat := 0
  dst : Nat := 0
  len : Nat := 0
  flags : Nat := 0
  next : Nat := 0
  done : Nat := 0
  buf : Bytes := []
  shut : Bool := false
  mover : Bool := false
  since : Nat := 0
  stopCode : Nat := 0
  accRetries : Nat := 0
  descRetries : Nat := 0
deriving DecidableEq, Repr

/-- A fill (R321): its directory slot, sample, stream and image descriptor; the cells that hold its tensor. -/
structure FillJob where
  slot : Nat := 0
  sample : Nat := 0
  stream : Nat := 0
  img : Bytes := []
  hold : Nat := 0
deriving DecidableEq, Repr

/-- A cache hit (R325): when it was accepted, in hub clocks, and when its staging was released. -/
structure HitJob where
  tile : Nat := 0
  req : Nat := 0
  slot : Nat := 0
  off : Nat := 0
  clen : Nat := 0
  ulen : Nat := 0
  check : Nat := 0
  hold : Nat := 0
  accepted : Nat := 0
  released : Option Nat := none
deriving DecidableEq, Repr

/-- What a codec lane runs, with what the call ends with: a firmware job's descriptor and the bytes 6, 7, 36-39, 52-58
to write; a fill and its stream; a hit and its STATUS and start in hub clocks. -/
inductive LaneJob where
  | fw (desc status plane row flags consumed produced : Nat) (irq dec : Bool)
  | fill (f : FillJob) (status : Nat) (out : Bytes) (off : Nat)
  | hit (h : HitJob) (status : Nat) (out : Bytes) (start : Nat)
deriving DecidableEq, Repr

/-- The codec engine of a hub (R298, R317 to R319). -/
structure CodecHub where
  dup : Bool := false
  full : Bool := false
  align : Bool := false
  doneBit : Bool := false
  jobs : List Nat := []
  hits : List HitJob := []
  fills : List FillJob := []
  lanes : Sparse LaneJob := []
deriving DecidableEq, Repr

/-- The epoch cache's allocation (R323): chunks opened, and each lane's open chunk as (base offset, used); data bytes
in use. Its directory stands in memory (R324). -/
structure EpochCache where
  next : Nat := 0
  chunks : Sparse (Nat × Nat) := []
  bytes : Nat := 0
deriving DecidableEq, Repr

/-- A grammar context (R376, R377, R379): its machine, state, stack (top first), the SEQ of the last request served on it
with its STATUS and ACCEPTED, FINISHED, and when it was last asked. -/
structure GrammarCtx where
  machine : Nat := 0
  state : Nat := 0
  stack : List Nat := []
  seq : Nat := 0
  status : Nat := 0
  accepted : Nat := 0
  finished : Bool := false
  active : Nat := 0
deriving DecidableEq, Repr

/-- A text job on a lane (R371): its descriptor and what it ends with. -/
structure TextJob where
  desc : Nat := 0
  status : Nat := 0
  consumed : Nat := 0
  produced : Nat := 0
  result : Nat := 0
  offset : Nat := 0
  irq : Bool := false
  isValidate : Bool := false
deriving DecidableEq, Repr

/-- The text unit of a hub (R370, R375): heads and tails by queue; rr the queue served last; contexts by number. -/
structure TextHub where
  dup : Bool := false
  full : Bool := false
  align : Bool := false
  doneBit : Bool := false
  jobs : List Nat := []
  lanes : Sparse TextJob := []
  heads : Sparse Nat := []
  tails : Sparse Nat := []
  rr : Nat := 63
  ctxs : Sparse GrammarCtx := []
deriving DecidableEq, Repr

/-- A grammar reply's SEQ word: a flagged write that waits for the writes of the rest of the reply to be acknowledged (R56, R378). -/
structure ReplyWrite where
  id : Nat := 0
  conn : Nat := 0
  key : Nat := 0
  addr : Nat := 0
  seq : Bytes := []
  waits : Nat := 2
deriving DecidableEq, Repr

/-- The hubs. pools by hub * 2 + pool, dma by hub * 64 + channel, codec and text by hub. -/
structure Hubs where
  pools : Sparse Pool := []
  nextHold : Nat := 1
  dma : Sparse DmaCh := []
  codec : Sparse CodecHub := []
  cache : EpochCache := {}
  text : Sparse TextHub := []
  replies : List ReplyWrite := []
  nextReply : Nat := 1
deriving DecidableEq, Repr

end Machine
end Sys2Proof
end

