-- ==== Sys2Proof/Machine/StJob.lean ====
section
/-!
DEFINITION. Sys2Proof/Machine/StJob.lean: state of Pavane (R99 to R136, R645) and of a job: its record, its image
tables, the commit owner's assemblies, buffers and credits, notices (R137 to R178).
-/
namespace Sys2Proof
namespace Machine

/-- One step source (R106): the run of qualifying events as (local time, source value), newest first; the last
accepted event; the last accepted SEQ of timing packets. first is the local time of the run's first event. -/
structure PavSrc where
  run : List (Nat × Int) := []
  qualified : Bool := false
  wasLost : Bool := false
  last : Option (Nat × Int) := none
  seq : Option Nat := none
deriving DecidableEq, Repr

/-- A window of a target step that has opened, and whether it has closed (R128). -/
structure WinRec where
  idx : Nat := 0
  target : Nat := 0
  closed : Bool := false
deriving DecidableEq, Repr

/-- Pavane. tb is the timebase value step * 65536 + phase (R99), frac its 32 fractional bits (R116), periodFx
PERIOD_NS with 16 fractional bits (R115), meas the accepted measurements in the filter as exact fractions, newest
first, outliers the run of rejected ones, slewFx SLEW_LEFT with 32 fractional bits, event PAV_EVENT, jump a
pending jump (local time, source value) and jumpFrom the timebase when it was set, edge a coded-mode edge whose word
has not come yet, edgesBegun whether an enabled STEP_IN edge has come before the job was Armed (R126). -/
structure Pavane where
  tb : Nat := 0
  frac : Nat := 0
  periodFx : Nat := 0
  meas : List (Nat × Nat) := []
  outliers : List (Nat × Nat) := []
  slewFx : Int := 0
  event : Nat := 0
  running : Bool := false
  src : Nat := 0
  pkt : PavSrc := {}
  stepin : PavSrc := {}
  jump : Option (Nat × Int) := none
  jumpFrom : Nat := 0
  edge : Option Nat := none
  edgesBegun : Bool := false
  highest : Nat := 0
  holdFrom : Nat := 0
  warned : Bool := false
  armedAt : Nat := 0
  wins : List WinRec := []
  passedDeadlines : List (Nat × Nat) := []
deriving DecidableEq, Repr

/-- A window descriptor (R127). -/
structure Window where
  openOff : Nat := 0
  closeOff : Nat := 0
  openPu : Nat := 0
  closePu : Nat := 0
  kind : Nat := 0
  channel : Nat := 0
  valid : Bool := false
  rsv : Nat := 0
deriving DecidableEq, Repr

/-- A rank entry of the job record (R139). -/
structure Rank where
  rank : Nat := 0
  kind : Nat := 0
  credit : Nat := 0
  bufKey : Nat := 0
  bufBase : Nat := 0
  bufStride : Nat := 0
  slotStride : Nat := 0
  slots : Nat := 0
  commitKey : Nat := 0
  nrec : Nat := 0
  excMax : Nat := 0
  commitBase : Nat := 0
  layout : Nat := 0
  nbuf : Nat := 0
  conn : Nat := 0
deriving DecidableEq, Repr

/-- A declared-field descriptor of a stream (R153). -/
structure FieldDesc where
  offset : Nat := 0
  size : Nat := 1
  inProduct : Nat := 0
  min : Nat := 0
  max : Nat := 0
deriving DecidableEq, Repr

/-- A stream's limit record (R153). -/
structure StreamRec where
  kind : Nat := 0
  hdrLimit : Nat := 1
  maxCoded : Nat := 0
  maxDecoded : Nat := 0
  minWidth : Nat := 0
  maxWidth : Nat := 0
  minHeight : Nat := 0
  maxHeight : Nat := 0
  maxComponents : Nat := 0
  precision : Nat := 0
  process : Nat := 0
  sampling : Nat := 0
  maxRestart : Nat := 0
  maxScans : Nat := 0
  elemStored : Nat := 0
  elemDecoded : Nat := 0
  payloadOff : Nat := 0
  fields : List FieldDesc := []
deriving DecidableEq, Repr

/-- The section directory entry of an image (R216). -/
structure Section where
  type : Nat := 0
  tile : Nat := 0xFF
  length : Nat := 0
  offset : Nat := 0
deriving DecidableEq, Repr

/-- The loaded image's package-wide tables (R216, R217). The five package sections are kept as their bytes too. -/
structure Image where
  hash : Bytes := []
  fwIface : Nat := 0
  schemaHash : Bytes := []
  minPeriod : Nat := 0
  proofPeriod : Nat := 0
  lead : Nat := 0
  streams : List StreamRec := []
  layouts : List Bytes := []
  windows : List Window := []
  channels : Nat := 0
  tileMask : Nat := 0
  dedupEntries : Nat := 0
  cachePoints : Bytes := []
  datasetLink : Bytes := []
  proof : Bytes := []
deriving DecidableEq, Repr

/-- The header of a job record (R138). -/
structure JobRec where
  datasetId : Nat := 0
  datasetVersion : Nat := 0
  seed : Nat := 0
  programHash : Bytes := []
  firstStep : Nat := 0
  firstEpoch : Nat := 0
  epochs : Nat := 0
  batch : Nat := 0
  slotmapMode : Nat := 0
  ctrlAddr : Nat := 0xFFFF
  ranks : List Rank := []
  slotMap : List (Nat × Nat) := []
deriving DecidableEq, Repr

/-- What the owner holds of one open (step, rank) (R166 to R171): reported slots with their terms, the running digest
sum, exception entries (slot, reason, sample), the marks, and how far the commit has come: the record and
exception bytes as written, the writes its seal's fence still waits for; senders by slot; refused by R543;
rewrite: a stand-in writes it again from its intent (R527). -/
structure Assembly where
  step : Nat := 0
  rank : Nat := 0
  terms : Sparse Nat := []
  digest : Nat := 0
  exc : List (Nat × Nat × Nat) := []
  mayVary : Bool := false
  late : Bool := false
  conflict : Bool := false
  cancelSent : Bool := false
  cancelled : List Nat := []
  inFlight : List Nat := []
  bodyDone : Bool := false
  fencePending : Nat := 0
  sealed : Bool := false
  record : Bytes := []
  excData : Bytes := []
  senders : Sparse Nat := []
  refused : Bool := false
  rewrite : Bool := false
deriving DecidableEq, Repr

/-- A packed slot waiting in staging for its window, buffer and transport (R160, R163): chan the step-locked channel of
the thread that placed it, hold its cells as (hub, number, owner), req the PLACE request (0 for a fill). -/
structure PackedSlot where
  id : Nat := 0
  tile : Nat := 0
  step : Nat := 0
  rank : Nat := 0
  slot : Nat := 0
  sample : Nat := 0
  mayVary : Bool := false
  reason : Nat := 0
  term : Nat := 0
  data : Bytes := []
  chan : Option Nat := none
  hold : Option (Nat × Nat × Nat) := none
  req : Nat := 0
  issued : Bool := false
  acked : Bool := false
deriving DecidableEq, Repr

/-- What is held per rank: the last committed (sealed) step, the step the last credit released and the timebase step it
came in, the key of each buffer, the steps whose buffers are released without credits. -/
structure RankState where
  sealedTo : Option Nat := none
  credit : Option Nat := none
  creditStep : Nat := 0
  stallCounted : Bool := false
  keys : Sparse Nat := []
  released : List Nat := []
deriving DecidableEq, Repr

/-- A notice the member has sent CANCEL for, until its CANCEL_ACK (R173, R519). -/
structure CancelWait where
  step : Nat := 0
  rank : Nat := 0
  slot : Nat := 0
  home : Nat := 0
  time : Nat := 0
deriving DecidableEq, Repr

/-- The loaded job. members: the working members in ascending fabric address (R164). In an audit (R291 to R295):
auditSlots holds what has been packed as (slot of the rank, reason, may-vary, term, bytes); tap the tile, descriptor
address and length of the tapped dispatch; tapOut the bytes captured. never holds the (step, rank, slot) a CANCEL_ACK has
said are never written (R173); imgBytes the image copy a rollback reloads from (R526); fenceAt the
timebase at the last acknowledged slot by target (R530); standins the holders of positions of other groups that a rollback has named (R518). -/
structure Job where
  loaded : Bool := false
  img : Image := {}
  jr : JobRec := {}
  layoutHash : Bytes := []
  sampleCount : Nat := 0
  members : List Nat := []
  asm : List Assembly := []
  packed : List PackedSlot := []
  nextId : Nat := 1
  ranks : Sparse RankState := []
  cancels : List CancelWait := []
  substLayouts : List Nat := []
  lastPacked : Sparse (Bytes × Nat) := []
  quarLog : List Bytes := []
  quarantined : List (Nat × Nat × Nat) := []
  stopStep : Option Nat := none
  failStep : Option Nat := none
  audit : Bool := false
  auditRec : Bytes := []
  auditSlots : List (Nat × Nat × Bool × Nat × Bytes) := []
  tap : Option (Nat × Nat × Nat) := none
  tapOut : Bytes := []
  dedup : Sparse (Bytes × Nat) := []
  never : List (Nat × Nat × Nat) := []
  standins : Sparse Nat := []
  creditArea : Nat := 0
  imgBytes : Bytes := []
  fenceAt : Sparse Nat := []
deriving DecidableEq, Repr

end Machine
end Sys2Proof
end

