-- ==== Sys2Proof/Machine/StOptics.lean ====
section
/-!
DEFINITION. Sys2Proof/Machine/StOptics.lean: state of the optical engines, ports, lanes and lasers (R441 to R458).
-/
namespace Sys2Proof
namespace Machine

/-- States of a port (R444). -/
inductive PortSt where
  | disabled | ramping | settling | acquiring | up | stopping | fault
deriving DecidableEq, Repr

/-- A transmit command (R447): a packet of a path of a connection, or the bytes of a frame of another unit. -/
inductive TxCmd where
  | packet (conn path psn : Nat) (bytes : Bytes)
  | bytes (b : Bytes)
deriving DecidableEq, Repr

/-- A port (R442 to R448). mode and map are MODE and PORT_LANEMAP (0x1F where a lane is absent); queue the bring-up
queue; away when it left state 4 or was enabled. -/
structure Port where
  st : PortSt := .disabled
  mode : Nat := 0
  enable : Bool := false
  pending : Bool := false
  refused : Bool := false
  map : List Nat := []
  queue : List TxCmd := []
  away : Nat := 0
deriving DecidableEq, Repr

/-- A physical lane (R449): LSTATE and its monitors; the SYM_ERR of a second ago; times of lock losses; the running sums
of the hour and the hourly means, newest first; retireAt, a trend retirement that waits for the job to end (R450). -/
structure Lane where
  lstate : Nat := 0
  eye : Nat := 0
  bias : Nat := 0
  symErr : Nat := 0
  flaps : List Nat := []
  hourStart : Nat := 0
  samples : Nat := 0
  eyeSum : Nat := 0
  biasSum : Nat := 0
  eyeHours : List Nat := []
  biasHours : List Nat := []
  trend : Bool := false
deriving DecidableEq, Repr

/-- A laser channel (R455 to R457): LAS_CH_CTL and LAS_CH_STAT; ramp 0 none, 1 up, 2 down. -/
structure Laser where
  ctl : Nat := 0
  bias : Nat := 0
  step : Nat := 0
  ramp : Nat := 0
  lowpwr : Bool := false
  paused : Bool := false
  railFail : Bool := false
  short : Bool := false
  atSet : Bool := false
deriving DecidableEq, Repr

/-- A lane command of an engine in progress (R451, R452): port, logical lane, the lane that leaves and the one that comes,
its phase (1 laser ramps, 2 adapting or soaking, 3 waits for the marker) and when the phase began. own: whether this
end started it. -/
structure LaneJobCmd where
  op : Nat := 0
  port : Nat := 0
  lane : Nat := 0
  target : Nat := 0
  phase : Nat := 1
  since : Nat := 0
  own : Bool := true
deriving DecidableEq, Repr

/-- An engine (R453): RESULT of LANE_CMD, REFUSED, the command in progress, and since when all its ports are in state 0. -/
structure Engine where
  result : Nat := 0
  refused : Bool := false
  cmd : Option LaneJobCmd := none
  idleSince : Nat := 0
deriving DecidableEq, Repr

/-- The optics. ports by 4k + p; lanes and lasers by 18k + j; rails by 3k + g: when a rail that is down fell. -/
structure Optics where
  ports : Sparse Port := []
  lanes : Sparse Lane := []
  lasers : Sparse Laser := []
  engines : Sparse Engine := []
  rails : Sparse Nat := []
deriving DecidableEq, Repr

end Machine
end Sys2Proof
end

