-- ==== Sys2Proof/Machine/StPower.lean ====
section
/-!
DEFINITION. Sys2Proof/Machine/StPower.lean: state of power, ageing, firmware update and the board (R561 to R591,
R627 to R640).
-/
namespace Sys2Proof
namespace Machine

/-- A regulator rail (R571, R572): the last target in mV, its outcome (0 acknowledged, 1 pending, 2 failed), when it was
last written and how often since the target was set. -/
structure Rail where
  target : Nat := 0
  outcome : Nat := 0
  sentAt : Nat := 0
  tries : Nat := 0
deriving DecidableEq, Repr

/-- The power sequencer (R631 to R633): every group up, raising a group, lowering one, all down, waiting to try again. -/
inductive SeqSt where
  | up | rising | falling | down | waiting
deriving DecidableEq, Repr

/-- Power. Domain numbers: 0-3 HUBn, 4-67 TILEt, 68-75 FDk, 76-83 OEk; domOff: unusable after a failed rail (R572); oeOn by
engine: OEk is on (R561); off: only AON is powered. point by quadrant: the operating point of the clock in force
(R569); relock: its PLL relocks; goal: the point a change is on its way to (R570). volts: the re-planned voltage of
rail * 4 + point; rails the rails whose target was ever set.
cause and wakeSrc are RESET_CAUSE; sleepStage the stage of sleep entry, 1 to 5 (R566); wakeTag the tag held in AON.
seq, seqStep, seqAt and seqFails: the sequencer, its step, since when, and failures in a row; resetLow: RESET_N is low;
porPending: the next sequence follows a power-on; wakeAt: when the last wake began (R635).
ageSums, ageCount, ageLast: the hour's sums by monitor; ageLog the hourly means by monitor, newest first (R576); replanAt
and replanDue: the last re-plan and the rails that wait for one (R577).
Firmware (R581 to R590): fwState the persistent FW_STATE; fwManifest and fwBlocks the image region and its bitmap; fwOwner
the session of the download; fwRun the manifest of the running image (none: the factory image); fwCopy the image copy in HBM;
settings the stored settings version; preStored the set kept until confirmation; autoAct: activate without
FW_ACTIVATE (R590); secFuse the fused version once raised. -/
structure Power where
  domOff : Sparse Bool := []
  oeOn : Sparse Bool := []
  off : Bool := false
  point : Sparse Nat := []
  relock : Sparse Bool := []
  goal : Sparse Nat := []
  volts : Sparse Nat := []
  rails : Sparse Rail := []
  cause : Nat := 0
  wakeSrc : Nat := 0
  sleepStage : Nat := 0
  wakeTag : Bytes := []
  seq : SeqSt := .up
  seqStep : Nat := 0
  seqAt : Nat := 0
  seqFails : Nat := 0
  resetLow : Bool := false
  porPending : Bool := false
  wakeAt : Option (Nat × Nat) := none
  tempWarns : Nat := 0
  thermalWarn : Bool := false
  ageSums : Sparse Nat := []
  ageCount : Nat := 0
  ageLast : Nat := 0
  ageLog : Sparse (List Nat) := []
  replanAt : Nat := 0
  replanDue : List Nat := []
  fwState : Nat := 0
  fwManifest : Bytes := []
  fwBlocks : Sparse Bytes := []
  fwOwner : Nat := 0
  fwRun : Bytes := []
  fwCopy : Bytes := []
  settings : Nat := Config.factorySettings
  preStored : Option (List (Nat × OdVal)) := none
  autoAct : Bool := false
  secFuse : Option Nat := none
deriving DecidableEq, Repr

end Machine
end Sys2Proof
end

