-- ==== Sys2Proof/Machine/StRemote.lean ====
section
/-!
DEFINITION. Sys2Proof/Machine/StRemote.lean: state of the transports to accelerators (R489 to R511).
-/
namespace Sys2Proof
namespace Machine

/-- What a remote write belongs to: a packed slot, the exception entries or the body of a commit, a seal, a grammar
reply or its SEQ word. -/
inductive WriteTag where
  | slot (id : Nat)
  | body (step rank : Nat)
  | seal (step rank : Nat)
  | reply (id : Nat)
  | replySeq (id : Nat)
deriving DecidableEq, Repr

/-- A remote write in progress: one message per path it goes on; acked the paths that have acknowledged it whole. step is
the step of its flagged-write order (R58). -/
structure Msg where
  id : Nat := 0
  conn : Nat := 0
  key : Nat := 0
  addr : Nat := 0
  data : Bytes := []
  tag : WriteTag := .slot 0
  paths : List Nat := []
  acked : List Nat := []
deriving DecidableEq, Repr

/-- A message on a path: its first PSN once it has begun, its packets, how many of them stand as sent. -/
structure PathMsg where
  msg : Nat := 0
  psn : Nat := 0
  pkts : Nat := 1
  sent : Nat := 0
  begun : Bool := false
deriving DecidableEq, Repr

/-- A path (R493, R504, R506): STATE and REASON; the next PSN to send, the one above the highest ever sent and the oldest
unacknowledged one; its messages
in order; retry count, resends; when it last progressed or sent; when it was suspended; the PSN expected inbound, and
the address the next inbound packet of a message goes to; Acsal-SR: PSNs a SACK has reported, with the resends of each
and when, and the PSNs received beyond the expected one; frames since the last SACK and the first's time. -/
structure Path where
  state : Nat := 0
  reason : Nat := 0
  next : Nat := 0
  high : Nat := 0
  una : Nat := 0
  msgs : List PathMsg := []
  retries : Nat := 0
  resends : Nat := 0
  active : Nat := 0
  heldFrom : Nat := 0
  rx : Nat := 0
  rxAddr : Option (Nat × Nat × Nat) := none
  sacked : List Nat := []
  tries : Sparse Nat := []
  triedAt : Sparse Nat := []
  got : List Nat := []
  toSack : Nat := 0
  sackFrom : Nat := 0
deriving DecidableEq, Repr

/-- PFC of a port (R491): the pause in force ends at, and began at without a break; bytes held in the receive buffer;
whether XOFF is out and when it was last sent; frames for other priorities. -/
structure Pfc where
  until_ : Nat := 0
  from_ : Nat := 0
  occupied : Nat := 0
  xoff : Bool := false
  xoffAt : Nat := 0
  storm : Bool := false
  others : Nat := 0
deriving DecidableEq, Repr

/-- The transports. paths by connection * 4 + path; pfc by port; bufTx the last transmission into a buffer, by
rank * 64 + buffer, as (time, key, step), and recTx into a commit record slot, by rank * 65536 + record, as (time, step)
(R500); lifeHeld what R500 holds back (packed slots by number, commits as 2^40 + step * 65536 + rank); creditGen the
generation of the last credit-area key (R501). -/
structure Remote where
  paths : Sparse Path := []
  msgs : List Msg := []
  nextMsg : Nat := 1
  pfc : Sparse Pfc := []
  bufTx : Sparse (Nat × Nat × Nat) := []
  recTx : Sparse (Nat × Nat) := []
  lifeHeld : List Nat := []
  creditGen : Nat := 0
deriving DecidableEq, Repr

end Machine
end Sys2Proof
end

