-- ==== Sys2Proof/Machine/StRing.lean ====
section
/-!
DEFINITION. Sys2Proof/Machine/StRing.lean: state of the command rings (R415 to R440).
-/
namespace Sys2Proof
namespace Machine

/-- States of a ring (RING_STAT). -/
inductive RingSt where
  | disabled | running | frozen | stopping
deriving DecidableEq, Repr

/-- A fetched command: its number in fetch order over all rings, its SQ entry and index; started, worked (what it does is
done), ready to be posted with its status and result; recs the journal records whose durability it waits for; lp
LP_DELAYED (R434); silent: its ring was reset under it and no CQ entry is written (R418). -/
structure RingCmd where
  seq : Nat := 0
  cid : Nat := 0
  entry : Bytes := []
  index : Nat := 0
  started : Bool := false
  worked : Bool := false
  ready : Bool := false
  status : Nat := 0
  result : Nat := 0
  fieldOff : Nat := 0xFFFF
  hostAddr : Nat := 0
  recs : List Nat := []
  lp : Bool := false
  silent : Bool := false
deriving DecidableEq, Repr

/-- A ring. pendRestart holds a RESTART with its DISCARD; cmds the fetched commands in fetch order. sess and peer are those
of a fabric ring; sqIn its SQ entries not yet fetched, data and holds the bytes and cells of DATA frames by CID, eseq the
ESEQ of its next frame. -/
structure Ring where
  st : RingSt := .disabled
  sqBase : Nat := 0
  cqBase : Nat := 0
  sqLog : Nat := 4
  cqLog : Nat := 4
  vector : Nat := 0
  irqEn : Bool := false
  enable : Bool := false
  pendEnable : Bool := false
  pendRestart : Option Bool := none
  refused : Bool := false
  sqTail : Nat := 0
  sqHead : Nat := 0
  cqHead : Nat := 0
  cqTail : Nat := 0
  phase : Bool := true
  errSeq : Nat := 0
  cmds : List RingCmd := []
  sess : Nat := 0
  peer : Nat := 0xFFFF
  sqIn : List Bytes := []
  data : Sparse Bytes := []
  holds : Sparse (List Nat) := []
  eseq : Nat := 0
deriving DecidableEq, Repr

/-- The rings: PCIe rings 0 to 63 by number, fabric rings at 1024 + number. nextSeq numbers commands; log the error log,
oldest first; doneRecs the records of completed writes; atHold: a low-power entry stands at a hold point with commands
running (R434); linkUp, linkRate, linkWidth, d0 the PCIe link and its power state. -/
structure Rings where
  rings : Sparse Ring := []
  nextSeq : Nat := 1
  log : List Bytes := []
  doneRecs : List Nat := []
  atHold : Bool := false
  linkUp : Bool := false
  linkRate : Nat := 0
  linkWidth : Nat := 0
  d0 : Bool := true
deriving DecidableEq, Repr

end Machine
end Sys2Proof
end

