-- ==== Sys2Proof/Machine/StTile.lean ====
section
/-!
DEFINITION. Sys2Proof/Machine/StTile.lean: state of a prep tile (R179, R196, R200, R205, R214, R215).
-/
namespace Sys2Proof
namespace Machine

/-- States of a tile, REEL_STAT.STATE (R215). -/
inductive TileSt where
  | empty | loaded | running | halted | trapped | quarantined
deriving DecidableEq, Repr

/-- Thread states, TSTATE of REEL_THn_STAT (R215). -/
inductive TState where
  | notInUse | ready | waitObj | waitWindow | waitQueue | halted | trapped
deriving DecidableEq, Repr

/-- The actions of REEL_CTL (R214). -/
inductive ReelAct where
  | start | halt | unload | tileReset | quarantine
deriving DecidableEq, Repr

/-- What a waiting thread waits for: an object's release (the generation matters for a barrier), a semaphore take,
admission in a window (bytes, target step, KIND, destination register), an entry of a queue. -/
inductive Wait where
  | none
  | obj (ref gen : Nat)
  | take (ref : Nat)
  | window (bytes target kind sd : Nat)
  | queue
deriving DecidableEq, Repr

/-- A Reel thread (R179). An unlisted register is 0; told says that TOO_LONG has been set for the transfer it waits for
(R131). -/
structure Thread where
  pc : Nat := 0
  regs : Sparse Word64 := []
  vary : Bool := false
  channel : Nat := 0
  locked : Bool := false
  tstate : TState := .notInUse
  wait : Wait := .none
  told : Bool := false
deriving DecidableEq, Repr

/-- A dispatch in the queue or with items running (R198 to R202). requeued holds items a retired cell gave back;
zeroed whether VOXEL's planes have been set to 0; keys RANGE_PROJ's winner of each pixel as (key, payload); waitFills
the CFILL requests ahead of it whose source is still being copied (R322). -/
structure Dispatch where
  id : Nat := 0
  thread : Nat := 0
  pc : Nat := 0
  addr : Nat := 0
  desc : Bytes := []
  counter : Nat := 0
  next : Nat := 0
  requeued : List Nat := []
  finished : Nat := 0
  zeroed : Bool := false
  keys : Sparse (Nat × Nat) := []
  waitFills : List Nat := []
deriving DecidableEq, Repr

/-- A cell at work: which item of which dispatch (R200), and whether the item's work has been done. -/
structure CellRun where
  disp : Nat := 0
  item : Nat := 0
  worked : Bool := false
deriving DecidableEq, Repr

/-- What a request of the 256-entry queue asks of the hub (R196). -/
inductive ReqKind where
  | fetch (cached first : Bool)
  | place
  | note (dest : Nat)
  | quar (stream sample reason : Nat)
  | cfill
deriving DecidableEq, Repr

/-- Where a request stands: in the 256-entry queue, back for a flash read after a failed hit (R326), at the flash read
scheduler, a cache hit, a fill being copied, a slot being packed. -/
inductive ReqPhase where
  | queued | again | flash | hit | copying | packing
deriving DecidableEq, Repr

/-- A request of a tile at its hub (R195, R196): addr is the descriptor's package address, desc its bytes, counter the
completion object; slot and hold the directory slot and the cells of a fill. -/
structure Request where
  id : Nat := 0
  kind : ReqKind := .place
  thread : Nat := 0
  addr : Nat := 0
  counter : Nat := 0
  vary : Bool := false
  desc : Bytes := []
  phase : ReqPhase := .queued
  admitTime : Nat := 0
  slot : Nat := 0
  hold : Nat := 0
deriving DecidableEq, Repr

/-- An entry of the remote-fence table (R205): token sequence, covered PLACE writes not yet acknowledged, counters to
notify. -/
structure RFence where
  seq : Nat := 0
  covers : List Nat := []
  notify : List Nat := []
deriving DecidableEq, Repr

/-- A prep tile. placesOut holds the PLACE writes not yet acknowledged; gates, by the address of a gate record its GATE
items wrote, the extent's stream and length (assumption log 25). -/
structure Tile where
  st : TileSt := .empty
  busy : Option ReelAct := none
  pendingAct : Option ReelAct := none
  refused : Bool := false
  trapValid : Bool := false
  trapHw : Bool := false
  trapThread : Nat := 0
  trapCause : Nat := 0
  trapPc : Nat := 0
  trapArg : Nat := 0
  retired : Nat := 0
  threads : Sparse Thread := []
  istore : Sparse Nat := []
  ilen : Nat := 0
  initThreads : List Bytes := []
  prog : Nat := 0
  cycle : Nat := 0
  quarters : Nat := 0
  lastIssue : Nat := 7
  dispQ : List Dispatch := []
  nextDisp : Nat := 1
  cells : Sparse CellRun := []
  reqQ : List Request := []
  nextReq : Nat := 1
  rfences : List RFence := []
  nextFence : Nat := 1
  placesOut : List Nat := []
  gates : Sparse (Nat × Nat) := []
  cellCanary : Sparse Nat := []
  canaryAt : Nat := 0
  safeTest : Bool := false
deriving DecidableEq, Repr

end Machine
end Sys2Proof
end

