-- ==== Sys2Proof/Machine/State.lean ====
section
/-!
DEFINITION. Sys2Proof/Machine/State.lean: the state of the block, as plain data. The groups stand in the files
StBase, StJob, StTile and their fellows; field defaults are the reset values.
-/
namespace Sys2Proof
namespace Machine

/-- The machine without its queue. mem holds every byte of the package address space that has an address in R37
(HBM under its per-stack windows, tile SRAM, hub SRAM, the mailbox buffers) by package address, in the canonical
form of Sparse; an unlisted byte reads 0 (R53, R643). sync holds object k of tile n at n * 4096 + k. fences holds
PEND of PKG_FENCE by agent. freeCtr is the model's own counter of free values (assumption log 1). -/
structure M8 where
  clk : Clock := {}
  mem : List Host.Cell := []
  sync : Sparse SyncObj := []
  fences : Sparse Bool := []
  dict : Dict := {}
  mbx : Mailbox := {}
  intc : IntC := {}
  dbg : Debug := {}
  jtag : Jtag := {}
  pav : Pavane := {}
  job : Job := {}
  tiles : Sparse Tile := []
  hubs : Hubs := {}
  fl : Flash := {}
  grp : Group := {}
  safe : Safety := {}
  opt : Optics := {}
  fab : Fabric := {}
  rem : Remote := {}
  rings : Rings := {}
  pwr : Power := {}
  out : List Output := []
  freeCtr : Nat := 0
deriving DecidableEq, Repr

/-- The state of the block: the machine and the queue of waiting commands, first in, first out. -/
structure State where
  m : M8 := {}
  pending : List Instr := []
deriving DecidableEq, Repr

/-- A step never ends in a fault: every error of the block is an effect on its state (a status, a trap, a
quarantine). No constructor, so no fault is raised: nothing to call safe or unsafe. -/
inductive Fault where
deriving DecidableEq, Repr

/-- Why a command has no meaning. -/
inductive Refusal where
  /-- Raised by an arm of exec whose command is not modelled; safe: the run stops there. -/
  | notModelled (mnemonic : String)
deriving DecidableEq, Repr

/-- The machine right after power-on reset, with no command waiting. -/
def State.reset : State := {}

end Machine
end Sys2Proof
end

