-- ==== Sys2Proof/Machine/OpsBase.lean ====
section
/-!
DEFINITION. Sys2Proof/Machine/OpsBase.lean: the named operations every family shares, first part: what a command answers, the
dictionary as the home of settings and counters, memory, interrupts, events, tiles, the global stop, frames.
-/
namespace Sys2Proof
namespace Machine
open Host

/-- The outcome of a command. -/
abbrev Out := Host.Outcome State Fault Refusal

/-- A command of a part that a global stop freezes and that is off while only AON is powered (R561, R613): then it changes
nothing (assumption log 14). -/
def live (s : State) (f : M8 → M8) : Out :=
  .next (if s.m.dbg.stop || s.m.pwr.off then s else { s with m := f s.m })

/-- A command of the always-on part, which goes on during a global stop (R613). -/
def aon (s : State) (f : M8 → M8) : Out := .next { s with m := f s.m }

/-- Send something out of the block. -/
def emit (s : M8) (o : Output) : M8 := { s with out := o :: s.out }

/-- Draw a free value (assumption log 1). -/
def drawFree (s : M8) : Nat × M8 := (Config.freeValue s.freeCtr, { s with freeCtr := s.freeCtr + 1 })

/-- Draw k random bytes (R85, assumption log 2). -/
def drawBytes (s : M8) (k : Nat) : Bytes × M8 :=
  ((List.range k).map fun i => Config.randomByte (s.freeCtr + i), { s with freeCtr := s.freeCtr + k })

/-! ### The dictionary as the home of settings, status and counters -/

/-- The value an entry holds: what was last written, else its default. -/
def odGet (s : M8) (key : Nat) : OdVal :=
  match Sparse.find s.dict.live key with
  | some v => v
  | none => match odLookup (key / 256) (key % 256) with
    | some e => e.dflt
    | none => .num 0

/-- The number an entry holds (two's complement within its width for a signed type). -/
def odNat (s : M8) (key : Nat) : Nat := (odGet s key).toNat

/-- The bytes an OCTETS, STRING or DOMAIN entry holds. -/
def odBytes (s : M8) (key : Nat) : Bytes :=
  match odGet s key with
  | .bytes b => b
  | .num _ => []

/-- The value of a YR entry in force since the last reset (R66), else what the entry holds. -/
def odInForce (s : M8) (key : Nat) : Nat :=
  match odKeyRow key with
  | some e => match e.persist with
    | .yr => match Sparse.find s.dict.latched key with
      | some v => v.toNat
      | none => e.dflt.toNat
    | _ => odNat s key
  | none => 0

/-- A value cut to its type's width. -/
def odFit (key : Nat) (v : OdVal) : OdVal :=
  match odKeyRow key, v with
  | some e, .num n => if e.ty.numeric then .num (n % 2 ^ (8 * e.ty.size)) else .num n
  | _, v => v

/-- The device writes an entry: the value is cut to the entry's width. -/
def odPut (s : M8) (key : Nat) (v : OdVal) : M8 :=
  { s with dict := { s.dict with live := Sparse.put s.dict.live key (odFit key v) } }

/-- The device writes a number into an entry. -/
def odSet (s : M8) (key n : Nat) : M8 := odPut s key (.num n)

/-- The device adds n to a wrapping counter entry. -/
def odAdd (s : M8) (key n : Nat) : M8 := odSet s key (odNat s key + n)

/-- The device adds 1 to a wrapping counter entry. -/
def odInc (s : M8) (key : Nat) : M8 := odAdd s key 1

/-- The device writes an entry and its persistent copy (the entries that record its own history, R72). -/
def odSetStored (s : M8) (key : Nat) (v : OdVal) : M8 :=
  let s := odPut s key v
  { s with dict := { s.dict with stored := Sparse.put s.dict.stored key (odFit key v) } }

/-- JOB_STATE (R144). -/
def jobState (s : M8) : Nat := odNat s Od.JOB_STATE

/-- Is a job loaded? It is in every state but Idle (R144, R645). -/
def jobLoaded (s : M8) : Bool := jobState s != 0

/-- JOB_TAG, the low 32 bits of the job identity; 0 outside a job (R142, R518). -/
def jobTag (s : M8) : Nat := if jobLoaded s then odNat s Od.JOB_ID % 2 ^ 32 else 0

/-- The device's fabric address (R72). -/
def ownAddr (s : M8) : Nat := odNat s Od.FABRIC_ADDRESS

/-! ### Interrupts and events -/

def getSrc (s : M8) (id : Nat) : IntSrc := s.intc.srcs.get {} id

def setSrc (s : M8) (id : Nat) (x : IntSrc) : M8 :=
  { s with intc := { s.intc with srcs := s.intc.srcs.set {} id x } }

def getTgt (s : M8) (g : Nat) : IntTarget := s.intc.tgts.get {} g

def setTgt (s : M8) (g : Nat) (x : IntTarget) : M8 :=
  { s with intc := { s.intc with tgts := s.intc.tgts.set {} g x } }

/-- A pending, enabled source routed to a target wakes its pair from WFI; INT_WAKE records it (R597). -/
def wakeTarget (s : M8) (g id : Nat) : M8 :=
  let t := getTgt s g
  if t.wfi then setTgt s g { t with wfi := false, wakeValid := true, wakeId := id } else s

/-- A rising edge of a shared source: PENDING, or OVERRUN when it is already pending (R595). IDs above 0x18C are
reserved (R593). -/
def sourceEdge (s : M8) (id : Nat) : M8 :=
  if id > 0x18C then s else
  let x := getSrc s id
  let s := if x.pending then odInc (setSrc s id { x with overrun := true }) Od.INT_OVERRUNS
    else setSrc s id { x with pending := true }
  if x.enable then wakeTarget s x.target id else s

/-- A pulse: the line rises for one hub clock (R593). -/
def pulse (s : M8) (id : Nat) : M8 := sourceEdge s id

/-- A level source's line takes a level; a rise is an edge (R593, R595). -/
def setLine (s : M8) (id : Nat) (level : Bool) : M8 :=
  if id > 0x18C then s else
  let x := getSrc s id
  let s := setSrc s id { x with line := level }
  if level && !x.line then sourceEdge s id else s

/-- A rising edge of private source b of target g (R594, R595). -/
def privEdge (s : M8) (g b : Nat) : M8 :=
  let t := getTgt s g
  let s := if t.privPend.testBit b then odInc s Od.INT_OVERRUNS
    else setTgt s g { t with privPend := t.privPend ||| 2 ^ b }
  if t.privEn.testBit b then wakeTarget s g (0x200 + b) else s

/-- Are event rings recording (R609)? -/
def recording (s : M8) : Bool :=
  odNat s Od.EVRING_ENABLE == 1 && !s.dbg.stop &&
    (s.dbg.startup || odNat s Od.TEST_MODE == 1 || s.dbg.recovery)

/-- Record an event in ring ringNo (R609, R610); a ring keeps its last 256 events. -/
def record (s : M8) (ringNo kind sub arg : Nat) : M8 :=
  if recording s then
    let e : EvRec := { time := s.clk.now, kind := kind, agent := ringNo, sub := sub, arg := arg % 2 ^ 32 }
    { s with dbg := { s.dbg with rings := s.dbg.rings.set [] ringNo ((e :: s.dbg.rings.get [] ringNo).take 256) } }
  else s

/-- The hub of an agent (R43): a tile's quadrant, a core's, engine's or unit's hub; PCIe and management port are at
Hub 0. -/
def agentHub (agent : Nat) : Nat :=
  if agent < 0x40 then agent / 16
  else if agent < 0x48 then (agent - 0x40) / 2
  else if agent < 0x4C then agent - 0x48
  else if agent < 0x50 then 0
  else if agent < 0x60 then (agent - 0x50) / 4
  else if agent < 0x68 then (agent - 0x60) / 2
  else if agent < 0x70 then (agent - 0x68) / 2
  else 0

/-- Is the agent a control core (R43)? -/
def isCore (agent : Nat) : Bool := 0x40 ≤ agent && agent < 0x48

/-- An address-error event against an agent (R41): the first since ADDRERR was read is held, further ones set MORE;
the hub's level source rises (R593). -/
def addressError (s : M8) (agent addr : Nat) : M8 :=
  let h := agentHub agent
  let e := s.intc.addrErr.get {} h
  let e' := if e.valid then { e with more := true } else { valid := true, agent := agent, more := false, addr := addr }
  setLine { s with intc := { s.intc with addrErr := s.intc.addrErr.set {} h e' } } (0x14A + h) true

/-! ### Memory (R37 to R41, R53) -/

/-- Usable bytes of an HBM stack (R38). -/
def hbmUsable : Nat := 48000000000

/-- Size of the interleaved view (R39). -/
def hbmView : Nat := 384000000000

/-- The interleaved view: an offset's byte, as a per-stack address (R39). -/
def hbmInterleaved (off : Nat) : Option Nat :=
  if off ≥ hbmView then none
  else some (((off >>> 12) % 8) * 0x1000000000 + (((off >>> 15) <<< 12) + off % 4096))

/-- The cell of memory that package address a names, when it names one of HBM, tile SRAM, hub SRAM or the mailbox
buffers; none for the other regions and for holes. -/
def memKey (a : Nat) : Option Nat :=
  if a < 0x8000000000 then (if a % 0x1000000000 < hbmUsable then some a else none)
  else if 0x010000000000 ≤ a && a < 0x020000000000 then hbmInterleaved (a - 0x010000000000)
  else if 0x020000000000 ≤ a && a < 0x020040000000 then some a
  else if 0x020100000000 ≤ a && a < 0x020110000000 then some a
  else if 0x030001008800 ≤ a && a < 0x030001009800 then some a
  else none

/-- One byte of memory; an unlisted cell reads 0 (R53, R643). -/
def memByte (s : M8) (a : Nat) : Option Byte :=
  (memKey a).map fun k => Sparse.get (0 : Byte) s.mem k

/-- n bytes of memory from address a, in address order; none when one of them is in no memory. -/
def readMem (s : M8) (a : Nat) : Nat → Option Bytes
  | 0 => some []
  | n + 1 => match memByte s a, readMem s (a + 1) n with
    | some b, some bs => some (b :: bs)
    | _, _ => none

/-- Are the n bytes from a all in memory? -/
def inMem (a : Nat) : Nat → Bool
  | 0 => true
  | n + 1 => (memKey a).isSome && inMem (a + 1) n

/-- Put bytes at addresses from a on; a byte whose address is in no memory is discarded (R41). -/
def putBytes (mem : List Host.Cell) (a : Nat) : Bytes → List Host.Cell
  | [] => mem
  | b :: bs => match memKey a with
    | some k => putBytes (Sparse.set (0 : Byte) mem k b) (a + 1) bs
    | none => putBytes mem (a + 1) bs

/-- Write bytes from address a on. -/
def writeMem (s : M8) (a : Nat) (bs : Bytes) : M8 := { s with mem := putBytes s.mem a bs }

/-- The address of a cell of HBM in the interleaved view (R39). -/
def interleavedAddr (k : Nat) : Nat :=
  0x010000000000 + (((k % 0x1000000000) >>> 12) <<< 15) + ((k / 0x1000000000) % 8) * 4096 + k % 4096

/-- Does a cell of memory lie in the n bytes from address a? -/
def cellIn (a n k : Nat) : Bool :=
  (a ≤ k && k < a + n) || (k < 0x8000000000 && a ≤ interleavedAddr k && interleavedAddr k < a + n)

/-- Set the n bytes from a to 0. -/
def clearMem (s : M8) (a n : Nat) : M8 := { s with mem := s.mem.filter fun c => !(cellIn a n c.1) }

/-- n bytes from a, all ones where the address is in no memory (R41). -/
def readMemOnes (s : M8) (a : Nat) : Nat → Bytes
  | 0 => []
  | n + 1 => (memByte s a).getD 0xFF#8 :: readMemOnes s (a + 1) n

/-- The package address of offset off of an HBM partition (R40): the partitions stand one after another in the
interleaved view in the order map cache, staging, epoch cache, firmware and tables, at the sizes in force. -/
def partBase (s : M8) (which : Nat) : Nat :=
  let p (k : Nat) := odInForce s k
  0x010000000000 +
    (if which = 0 then 0
     else if which = 1 then p Od.PART_MAP_CACHE
     else if which = 2 then p Od.PART_MAP_CACHE + p Od.PART_STAGING
     else p Od.PART_MAP_CACHE + p Od.PART_STAGING + p Od.PART_EPOCH_CACHE)

/-! ### Sync objects (R45) -/

def getSync (s : M8) (ref : Nat) : SyncObj := s.sync.get {} ref

def setSync (s : M8) (ref : Nat) (o : SyncObj) : M8 := { s with sync := s.sync.set {} ref o }

/-- The 128-bit word of a sync object (R45). -/
def SyncObj.word (o : SyncObj) : Nat :=
  o.value % 2 ^ 64 + (o.limit % 2 ^ 48) * 2 ^ 64 + b2n o.fired * 2 ^ 112 + (o.gen % 16) * 2 ^ 120 + (o.kind % 16) * 2 ^ 124

/-- The sync object a 128-bit word spells; reserved bits are dropped (R17). -/
def SyncObj.ofWord (w : Nat) : SyncObj :=
  { kind := bits w 127 124, gen := bits w 123 120, fired := bit w 112, limit := bits w 111 64, value := bits w 63 0 }

/-! ### Counters of R602 -/

/-- Are the operation counters counting at this hub clock (R604)? -/
def counting (s : M8) : Bool :=
  (match s.dbg.countFrom with
   | some c => c ≤ s.clk.hclk
   | none => false) &&
  (match s.dbg.countUntil with
   | some c => s.clk.hclk < c
   | none => true)

/-- The dictionary key of counter i of R602, i from 0 to 37 in the order of its table. -/
def counterKey (i : Nat) : Nat :=
  if i < 13 then Od.PRIM_ITEMS + i else if i < 28 then Od.FMT_ELEMS + (i - 13) else Od.REEL_INSTR + (i - 28)

/-- Counter i of a unit (0 to 63 tiles, 64 to 67 hubs) counts n (R602, R605). -/
def count (s : M8) (unit i n : Nat) : M8 :=
  if counting s then
    let c := s.dbg.counters.get 0 (unit * 38 + i)
    odAdd { s with dbg := { s.dbg with counters := s.dbg.counters.set 0 (unit * 38 + i) ((c + n) % 2 ^ 64) } } (counterKey i) n
  else s

/-! ### Tiles -/

def getTile (s : M8) (t : Nat) : Tile := s.tiles.get {} t

def setTile (s : M8) (t : Nat) (x : Tile) : M8 := { s with tiles := s.tiles.set {} t x }

def modTile (s : M8) (t : Nat) (f : Tile → Tile) : M8 := setTile s t (f (getTile s t))

def getThread (s : M8) (t th : Nat) : Thread := (getTile s t).threads.get {} th

def setThread (s : M8) (t th : Nat) (x : Thread) : M8 :=
  modTile s t fun y => { y with threads := y.threads.set {} th x }

/-- A program is loaded on a tile in every state but empty (R46, R215); a quarantined tile keeps its program until it
is reset. -/
def programLoaded (s : M8) (t : Nat) : Bool := (getTile s t).st != .empty

/-- STATE code of REEL_STAT (R215). -/
def TileSt.code : TileSt → Nat
  | .empty => 0 | .loaded => 1 | .running => 2 | .halted => 3 | .trapped => 4 | .quarantined => 5

/-- TSTATE code (R215). -/
def TState.code : TState → Nat
  | .notInUse => 0 | .ready => 1 | .waitObj => 2 | .waitWindow => 3 | .waitQueue => 4 | .halted => 5 | .trapped => 6

/-- REEL_TRAP (R215). -/
def Tile.trapWord (x : Tile) : Nat :=
  x.trapCause % 256 + (x.trapThread % 8) * 2 ^ 8 + b2n x.trapHw * 2 ^ 11 + b2n x.trapValid * 2 ^ 15 +
    (x.trapPc % 2 ^ 18) * 2 ^ 32

/-- The level of a tile's shared source: a trap is recorded, or state 3 or 5 was reached (R593). -/
def tileLine (x : Tile) : Bool := x.trapValid || x.st == .halted || x.st == .quarantined

/-- Enter a tile state: the event record and the tile's interrupt line follow (R593, R610). -/
def enterTileSt (s : M8) (t : Nat) (st : TileSt) : M8 :=
  let old := (getTile s t).st
  let s := modTile s t fun x => { x with st := st }
  let s := if old = st then s else record s t 0 0 (st.code + old.code * 256)
  setLine s t (tileLine (getTile s t))

/-! ### The global stop (R612, R613) -/

/-- STOP_STATUS (R626). -/
def stopStatus (s : M8) : Nat :=
  b2n s.dbg.stop + s.dbg.stopCause * 2 + b2n s.dbg.releasePending * 16

/-- A global stop starts: every tile and hub freezes, STOP_TIME and STOP_PAV are recorded, and the device drives
STOP_N low when STOP_CFG[0] is 1 and it started the stop itself (R612 to R614). A stop in force stays as it is. -/
def startStop (s : M8) (cause : Nat) : M8 :=
  if s.dbg.stop then s else
  let own := cause != 1
  let s := { s with
    freeCtr := s.freeCtr + 1, dbg := { s.dbg with stop := true, stopCause := cause, stopOwn := own, scanNo := s.freeCtr } }
  let s := odSet (odSet s Od.STOP_TIME s.clk.now) Od.STOP_PAV s.pav.tb
  let s := odSet s Od.STOP_STATUS (stopStatus s)
  if own && (odNat s Od.STOP_CFG).testBit 0 then emit s (.pin "STOP_N" false) else s

/-- A tile completes a dispatch or releases a sync object, which is what the hang detector looks for (R606). -/
def progressed (s : M8) (t : Nat) : M8 :=
  { s with dbg := { s.dbg with lastProgress := s.dbg.lastProgress.set 0 t s.clk.now } }

/-! ### Frames of local units -/

/-- Hand a frame to Promenade (R461, R462): class, multicast flag, flow and payload. -/
def sendFrame (s : M8) (dst cls flow : Nat) (payload : Bytes) : M8 :=
  { s with fab := { s.fab with units := s.fab.units ++ [{ dst := dst, cls := cls, flow := flow, payload := payload }] } }

end Machine
end Sys2Proof
end

