-- ==== Sys2Proof/Machine/CableMap.lean ====
section
/-!
DEFINITION. Sys2Proof/Machine/CableMap.lean: positions of the cable map (R470), roles and their holders (R513, R514).
-/
namespace Sys2Proof
namespace Machine

/-- Group of a fabric address: pod and group fields (R467). -/
def addrGroup (a : Nat) : Nat := a / 64

/-- Do two addresses lie in one group? -/
def sameGroup (a b : Nat) : Bool := addrGroup a == addrGroup b

/-- A position record of the cable map (R470). -/
structure Position where
  addr : Nat := 0xFFFF
  flags : Nat := 0
  links : List (Nat × Nat × Nat) := []
deriving DecidableEq, Repr

/-- SPARE and MASTER_RANK of a position. -/
def Position.spare (p : Position) : Bool := p.flags.testBit 0

def Position.rank (p : Position) : Nat := bits p.flags 2 1

/-- The position a 64-byte record spells (R470): links as (local port, neighbour address, neighbour port). -/
def positionOf (b : Bytes) : Position :=
  { addr := leField b 0 2, flags := leField b 2 1,
    links := (List.range (min 8 (leField b 3 1))).map fun i =>
      (leField b (8 + 4 * i) 1, leField b (9 + 4 * i) 2, leField b (11 + 4 * i) 1) }

/-- The positions of a cable map. -/
def positionsOf (b : Bytes) : List Position := (chunks 64 (b.drop 32)).map positionOf

/-- The positions of the device's own cable map. -/
def positions (s : M8) : List Position := positionsOf (odBytes s Od.CABLE_MAP)

/-- MAP_VERSION and DOMAIN_ID of the device's map; 0 without one (R468). -/
def mapVersion (s : M8) : Nat := leField (odBytes s Od.CABLE_MAP) 8 4

def domainId (s : M8) : Nat := leField (odBytes s Od.CABLE_MAP) 4 2

/-- Insert into a list in ascending order of address. -/
def insertPos (p : Position) : List Position → List Position
  | [] => [p]
  | q :: qs => if p.addr ≤ q.addr then p :: q :: qs else q :: insertPos p qs

/-- The working positions of the device's group in ascending address: index i is the position of role i (R406, R513). -/
def workPositions (s : M8) : List Position :=
  ((positions s).filter fun p => sameGroup p.addr (ownAddr s) && !p.spare).foldl (fun l p => insertPos p l) []

/-- The address of the group's spare position; 0xFFFF when there is none. -/
def sparePosition (s : M8) : Nat :=
  (((positions s).find? fun p => sameGroup p.addr (ownAddr s) && p.spare).map Position.addr).getD 0xFFFF

/-- W, the number of working positions (R406, R513). -/
def groupW (s : M8) : Nat := (workPositions s).length

/-- The address of the position of role i. -/
def roleAddr (s : M8) (i : Nat) : Nat := ((workPositions s).getD i {}).addr

/-- The role of a position, when it is a working position of the group. -/
def roleOfAddr (s : M8) (a : Nat) : Option Nat := (List.range (groupW s)).find? fun i => roleAddr s i == a

def getRole (s : M8) (i : Nat) : RoleRec := s.grp.roles.get {} i

def setRole (s : M8) (i : Nat) (r : RoleRec) : M8 := { s with grp := { s.grp with roles := s.grp.roles.set {} i r } }

/-- The fabric address of the holder of role i: the record of GROUP_ROLES, else the device at the role's own position
(R513, R514). -/
def roleHolder (s : M8) (i : Nat) : Nat :=
  match s.grp.roles.find i with
  | some r => r.holder
  | none => roleAddr s i

/-- Does this device hold role i? -/
def holdsRole (s : M8) (i : Nat) : Bool := s.grp.own.contains i

/-- Is a home-map address that of a position whose role this device holds (R147, R513)? -/
def homedHere (s : M8) (a : Nat) : Bool :=
  match roleOfAddr s a with
  | some i => holdsRole s i
  | none => false

/-- Does this device act for the position at an address: it holds its role, or the address is its own and no role of its
group (R164, R513)? -/
def actsFor (s : M8) (a : Nat) : Bool :=
  match roleOfAddr s a with
  | some i => holdsRole s i
  | none => a == ownAddr s

/-- The device that acts for a position (R513, R518): in another group, the holder a rollback has named. -/
def holderOf (s : M8) (a : Nat) : Nat :=
  match roleOfAddr s a with
  | some i => roleHolder s i
  | none => (s.job.standins.find a).getD a

/-- The member at a job index (R164). -/
def memberAt (s : M8) (i : Nat) : Nat := s.job.members.getD (i % max 1 s.job.members.length) 0xFFFF

/-- Does this member own rank r (R164)? The owner is the job member at index r mod W. -/
def ownsRank (s : M8) (r : Nat) : Bool :=
  r < s.job.jr.ranks.length && !s.job.members.isEmpty && actsFor s (memberAt s r)

/-- While a role is swapped without a rollback, targets from the boundary plus JOB_LEAD on belong to the new holder and the
earlier ones to the old (R531). -/
def targetMine (s : M8) (n r : Nat) : Bool :=
  match s.grp.swap with
  | some w =>
    if w.reason != 1 && roleOfAddr s (memberAt s r) == some w.role then
      (if w.giving then n < w.boundary + s.job.img.lead else n ≥ w.boundary + s.job.img.lead)
    else true
  | none => true

/-- The ranks this member owns. -/
def ownedRanks (s : M8) : List Nat := (List.range s.job.jr.ranks.length).filter (ownsRank s)

/-- The lowest target step this member has not yet committed on the ranks it owns; FIRST_STEP before any. -/
def lowestUnsealed (s : M8) : Nat :=
  let step (r : Nat) := match (s.job.ranks.get {} r).sealedTo with
    | some n => n + 1
    | none => s.job.jr.firstStep
  match ownedRanks s with
  | [] => s.job.jr.firstStep
  | r :: rs => rs.foldl (fun m r => min m (step r)) (step r)

/-- The roles a device takes from the cable map before any has moved: that of its own position, or the spare duty (R513). -/
def initRoles (s : M8) : M8 :=
  if s.grp.roles.isEmpty then
    { s with grp := { s.grp with own := (roleOfAddr s (ownAddr s)).toList, isSpare := sparePosition s == ownAddr s,
                                 spareAddr := sparePosition s, rolesN := groupW s } }
  else s

end Machine
end Sys2Proof
end

