-- ==== Sys2Proof/Machine/Ops.lean ====
section
/-!
DEFINITION. Sys2Proof/Machine/Ops.lean: the named operations every family shares, second part: job failure, fencing,
unit faults, traps, the safety reaction. OpsBase.lean holds the first part.
-/
namespace Sys2Proof
namespace Machine

/-! ### Job failure, fencing and unit faults (R144, R212, R519, R522) -/

/-- The job enters a state (R144); the event record follows (R610). -/
def enterJobState (s : M8) (st : Nat) : M8 :=
  let old := jobState s
  if old = st then s else record (odSet s Od.JOB_STATE st) 0x40 0 0 (st + old * 256)

/-- The job fails with a code at a target step; commits of earlier steps stand (R144, R152, R212). -/
def failJob (s : M8) (code step : Nat) : M8 :=
  if jobLoaded s && jobState s != 6 && jobState s != 5 then
    let s := odSet (enterJobState s 6) Od.JOB_FAIL code
    { s with job := { s.job with failStep := some step } }
  else s

/-- HALT taken by a running tile: issue stops, work in flight finishes (R214). -/
def haltTile (s : M8) (t : Nat) : M8 :=
  if (getTile s t).st = .running then modTile s t fun x => { x with busy := some .halt } else s

/-- The running tiles. -/
def runningTiles (s : M8) : List Nat :=
  (s.tiles.filter fun p => p.2.st == .running).map Prod.fst

/-- The holder fences itself (R522, R553): its tiles are halted and it sends no notice, intent, seal or remote write
until it takes a role again or loads a job. -/
def fenceSelf (s : M8) : M8 :=
  if s.grp.fenced then s else
  let s := odInc { s with grp := { s.grp with fenced := true, fencedAt := s.clk.now } } Od.SELF_FENCES
  let s := odSet s Od.SAFETY_STATE (if s.safe.faultN then 3 else 2)
  (runningTiles s).foldl haltTile s

/-- The 12-byte header of a recovery message (R518). -/
def recoveryHeader (s : M8) (type role : Nat) : Bytes :=
  natLe 1 type ++ natLe 1 0 ++ natLe 2 role ++ natLe 4 (jobTag s) ++ natLe 4 s.grp.rbId

/-- The role this device acts for: the first it holds, 0xFFFF for none (R518). -/
def ownRole (s : M8) : Nat := s.grp.own.headD 0xFFFF

/-- The group coordinator for a faulted role: the acting master; the holder of the role's partner when the faulted device
is itself the acting master (R521). -/
def coordFor (s : M8) (role : Nat) : Nat :=
  if roleHolder s role = s.grp.master then roleHolder s ((role + 1) % max 1 (groupW s)) else s.grp.master

/-- Send FAULT for a role of this group to the group coordinator (R518, R519, R521). -/
def sendFault (s : M8) (role kind : Nat) : M8 :=
  sendFrame s (coordFor s role) 0x4 0
    (recoveryHeader s 2 (ownRole s) ++ natLe 2 role ++ natLe 1 (bits (ownAddr s) 9 6) ++ natLe 1 kind ++ natLe 8 s.clk.now)

/-- The holder declares a unit fault against itself and fences (R519, R522). Without a job or a role there is
nothing to declare (R551). -/
def declareSelf (s : M8) (kind : Nat) : M8 :=
  if jobLoaded s && !s.grp.own.isEmpty && !s.grp.fenced then
    let s := s.grp.own.foldl (fun s r => sendFault s r kind) s
    fenceSelf { s with grp := { s.grp with pastFaults := (ownRole s, kind) :: s.grp.pastFaults } }
  else s

/-- Quarantine a tile as a tile fault (R32, R213): state 5; the holder declares KIND 2 (R519). -/
def quarantineTile (s : M8) (t : Nat) : M8 :=
  let s := modTile s t fun x => { x with busy := none, pendingAct := none, cells := [] }
  declareSelf (enterTileSt s t .quarantined) 2

/-- Is a trap cause of the hardware class (R210)? -/
def hwCause (cause : Nat) : Bool := 0x20 ≤ cause && cause < 0x24

/-- Write REEL_TRAP and REEL_TRAP_ARG of a tile; TRAPS and LAST_TRAP follow (R211, R223). The first trap of the tile
since it was cleared is the one recorded. -/
def writeTrap (s : M8) (t thread cause pc arg : Nat) : M8 :=
  let s := if (getTile s t).trapValid then s else modTile s t fun x =>
    { x with trapValid := true, trapHw := hwCause cause, trapThread := thread, trapCause := cause, trapPc := pc,
             trapArg := arg % 2 ^ 48 }
  let s := odInc s Od.TRAPS
  let s := odSet s Od.LAST_TRAP ((getTile s t).trapWord % 2 ^ 58 + t * 2 ^ 58)
  record s t 1 thread cause

/-- Requests that a trap discards: NOTE and QUAR not yet sent (R211). -/
def trapKeeps (r : Request) : Bool :=
  match r.kind with
  | .note _ => false
  | .quar _ _ _ => false
  | _ => true

/-- A trap of a tile (R211 to R213): issue stops, REEL_TRAP is written, NOTE and QUAR requests are discarded. A
program-class trap enters state 4 and fails the job with 0x0010 at the lowest uncommitted step; a hardware-class trap
quarantines the tile. With STOP_CFG[1] a trap starts a global stop (R612). -/
def trap (s : M8) (t thread cause pc arg : Nat) : M8 :=
  let s := writeTrap s t thread cause pc arg
  let s := modTile s t fun x =>
    { x with reqQ := x.reqQ.filter trapKeeps, busy := none,
             threads := x.threads.modify {} thread fun th => { th with tstate := .trapped } }
  let s := if hwCause cause then quarantineTile s t
    else failJob (enterTileSt s t .trapped) 0x0010 (lowestUnsealed s)
  if (odNat s Od.STOP_CFG).testBit 1 then startStop s 4 else s

/-! ### The safety reaction (R549 to R557) -/

/-- A detection record (R557). -/
def detectRecord (s : M8) (mode unitKind unit reaction rank detail : Nat) : Bytes :=
  natLe 8 s.clk.now ++ natLe 1 mode ++ natLe 1 unitKind ++ natLe 2 unit ++ natLe 1 reaction ++ zeros 3 ++
    natLe 6 (lowestUnsealed s) ++ natLe 2 rank ++ natLe 8 detail

/-- Write a detection record: the ring keeps 64, DETECTIONS counts, the safety source pulses (R557, R593). -/
def logDetection (s : M8) (mode unitKind unit reaction rank detail : Nat) : M8 :=
  let r := detectRecord s mode unitKind unit reaction rank detail
  let s := { s with safe := { s.safe with
    log := (s.safe.log ++ [r]).drop (s.safe.log.length + 1 - 64), lastMode := mode, detectTime := s.clk.now,
    detectRb := s.grp.rbId } }
  pulse (odInc s Od.DETECTIONS) 0x189

/-- FAULT_N is asserted and stays so until a power-on reset (R554). -/
def assertFaultN (s : M8) : M8 :=
  let s := { s with safe := { s.safe with faultN := true } }
  emit (odSet s Od.SAFETY_STATE 3) (.pin "FAULT_N" false)

/-- The four seal gates close by the hardware line (R549). -/
def closeGates (s : M8) : M8 :=
  { s with safe := { s.safe with gates := [(0, true), (1, true), (2, true), (3, true)] } }

/-- Retire a cell (R31, R32): its bit is set and, when it is the tile's second, the tile is quarantined with trap
0x22. Its item is discarded and queued ahead of every item not yet started (R201), unless its work has passed its last
check already (assumption log 27). -/
def retireCell (s : M8) (t cell : Nat) : M8 :=
  let x := getTile s t
  if x.st = .quarantined || x.retired.testBit cell || popcount 16 x.retired ≥ 2 then s else
  let x' := match x.cells.find cell with
    | some r =>
      let back (d : Dispatch) : Dispatch := if d.id = r.disp then { d with requeued := d.requeued ++ [r.item] } else d
      if r.worked then x else { x with cells := x.cells.drop cell, dispQ := x.dispQ.map back }
    | none => x
  let s := setTile s t { x' with retired := x.retired ||| 2 ^ cell }
  let s := record s t 1 cell 0x01
  if popcount 16 (getTile s t).retired = 2 then trap s t 0 0x22 0 cell else s

/-- Quarantine the unit a detection names (R549): a cell is retired, a tile is quarantined; other kinds have no
quarantine of their own. unit is the agent number, with the cell in bits 11:8 for UNIT_KIND 0 (R557). -/
def quarantineUnit (s : M8) (unitKind unit : Nat) : M8 :=
  if unitKind = 0 then retireCell s (unit % 256) (bits unit 11 8)
  else if unitKind = 1 then (if (getTile s (unit % 256)).st = .quarantined then s else quarantineTile s (unit % 256))
  else s

/-- The reaction to a detection (R549, R551): withhold, quarantine, declare KIND 6 against itself and fence when a job
is loaded. Mode 0x01 is contained: the cell is retired and nothing further is needed (R548). Modes 0x0E and 0x0F, and
a detection against the safety controller, assert FAULT_N. -/
def react (s : M8) (mode unitKind unit rank detail : Nat) : M8 :=
  if mode = 0x01 then logDetection (quarantineUnit s unitKind unit) mode unitKind unit 0 0xFFFF detail
  else
  let s := closeGates s
  let s := odSet s Od.SEAL_HOLD 1
  let s := { s with safe := { s.safe with reacting := true } }
  let s := if s.safe.faultN then s else odSet s Od.SAFETY_STATE 1
  let faultN := mode = 0x0E || mode = 0x0F || unitKind = 5
  let s := logDetection s mode unitKind unit (if faultN then 4 else 2) rank detail
  let s := declareSelf s 6
  let s := quarantineUnit s unitKind unit
  let s := { s with safe := { s.safe with held := [] } }
  let s := if faultN then assertFaultN s else s
  if (odNat s Od.STOP_CFG).testBit 2 then startStop s 5 else s

end Machine
end Sys2Proof
end

