-- ==== Sys2Proof/Machine/Operands.lean ====
section
/-!
DEFINITION. Sys2Proof/Machine/Operands.lean: the operand forms of the Reel instructions (R180, R183 to R185) and how
an instruction issues and completes on its thread (R181, R187).
-/
namespace Sys2Proof
namespace Machine

/-- A scalar register; S0 reads 0 (R180). -/
def Thread.reg (x : Thread) (n : Nat) : Word64 := if n = 0 then 0 else Sparse.get (0 : Word64) x.regs n

/-- Write a scalar register; writes to S0 are discarded (R180). -/
def Thread.setReg (x : Thread) (n : Nat) (v : Word64) : Thread :=
  if n = 0 then x else { x with regs := Sparse.set (0 : Word64) x.regs n v }

/-- The 32-bit immediate sign-extended to 64 bits (R184). -/
def sext (imm : Nat) : Word64 := (BitVec.ofNat 32 imm).signExtend 64

/-- op2 = S[SB] + sext(IMM) (R185). -/
def op2 (x : Thread) (f : RFields) : Word64 := x.reg f.sb + sext f.imm

/-- ref = (S[SA] + sext(IMM))[17:0] (R185). -/
def syncRef (x : Thread) (f : RFields) : Nat := (x.reg f.sa + sext f.imm).toNat % 2 ^ 18

/-- The completion object (S[SB] + sext(IMM))[17:0] (R195). -/
def compRef (x : Thread) (f : RFields) : Nat := (op2 x f).toNat % 2 ^ 18

/-- A thread may issue: its tile runs, no HALT, UNLOAD or reset is in progress, and it is ready (R181, R211, R214); a
thread that waits for a queue entry may issue its instruction again (R196). -/
def canIssue (s : M8) (t th : Nat) : Bool :=
  let x := getTile s t
  let y := x.threads.get {} th
  x.st == .running && x.busy.isNone && th < 8 && (y.tstate == .ready || y.tstate == .waitQueue)

/-- An instruction of a thread: nothing happens where the thread cannot issue (assumption log 5). -/
def reel (s : State) (t th : Nat) (g : M8 → Thread → M8) : Out :=
  live s fun m => if canIssue m t th then g m (getThread m t th) else m

/-- The thread takes its next instruction: PC moves on by 8, the thread is ready, and the tile's round-robin pointer
follows (R181, R187). -/
def Thread.advance (x : Thread) : Thread := { x with pc := x.pc + 8, tstate := .ready, wait := .none }

/-- Complete an instruction with thread state y: PC moves on by 8; an ND mark sets VARY (R208). cat is its counter of
R602 (28 to 37), 0 for none; an ND-marked one counts as counter 37 too. -/
def complete (s : M8) (t th cat : Nat) (nd : Bool) (y : Thread) : M8 :=
  let y := if nd then { y.advance with vary := true } else y.advance
  let s := modTile (setThread s t th y) t fun x => { x with lastIssue := th }
  let s := if cat = 0 then s else count s t cat 1
  if nd then count s t 37 1 else s

/-- Complete an instruction that writes SD. -/
def completeSd (s : M8) (t th cat : Nat) (f : RFields) (y : Thread) (v : Word64) : M8 :=
  complete s t th cat f.nd (y.setReg f.sd v)

/-- The shape of an ALU instruction: SD := g S[SA] op2 (R186). -/
def alu (s : State) (t th : Nat) (f : RFields) (g : Word64 → Word64 → Word64) : Out :=
  reel s t th fun m y => completeSd m t th 28 f y (g (y.reg f.sa) (op2 y f))

/-- The target of a branch or JAL: PC + sext(IMM) * 8 (R186), an offset into the instruction store. -/
def branchTarget (y : Thread) (imm : Nat) : Nat :=
  (BitVec.ofNat 64 y.pc + sext imm * 8).toNat % 2 ^ 18

/-- The shape of a conditional branch (R186). -/
def branch (s : State) (t th : Nat) (f : RFields) (c : Word64 → Word64 → Bool) : Out :=
  reel s t th fun m y =>
    if c (y.reg f.sa) (y.reg f.sb) then
      let m := complete m t th 30 f.nd y
      setThread m t th { getThread m t th with pc := branchTarget y f.imm }
    else complete m t th 30 f.nd y

/-- A trap of the instruction a thread is issuing (R211). -/
def trapHere (m : M8) (t th : Nat) (y : Thread) (cause arg : Nat) : M8 := trap m t th cause y.pc arg

end Machine
end Sys2Proof
end

