-- ==== Sys2Proof/Machine/Flags.lean ====
section
/-!
DEFINITION. Sys2Proof/Machine/Flags.lean: the conditions and marks instructions compute: the release conditions of
sync objects (R45, R189), who is released (R48, R190), and the comparisons of branches (R186). The Reel sequencer has
no flag register; VARY (R208) is a field of a thread and is set where an instruction completes.
-/
namespace Sys2Proof
namespace Machine

/-- Kinds of a sync object that have a release condition a thread may wait on (R189). -/
def waitKind (k : Nat) : Bool := k == 1 || k == 2 || k == 4 || k == 5

/-- Does the object satisfy a wait (R189)? gen is S[SB][3:0] of the waiter, used by a barrier alone. -/
def releases (o : SyncObj) (gen : Nat) : Bool :=
  if o.kind = 1 then o.value ≥ o.limit
  else if o.kind = 2 then o.value.testBit 0
  else if o.kind = 4 then o.gen != gen
  else if o.kind = 5 then o.fired
  else false

/-- Release one thread if it waits on object ref and the condition holds: its SWAIT completes. -/
def releaseThread (s : M8) (t ref : Nat) (th : Nat) : M8 :=
  let y := getThread s t th
  match y.wait with
  | .obj r gen => if r = ref && releases (getSync s ref) gen then setThread s t th y.advance else s
  | _ => s

/-- Every thread that waits on a counter, event, barrier or step latch is released when it releases (R190). -/
def releaseWaiters (s : M8) (ref : Nat) : M8 :=
  (s.tiles.keys).foldl (fun s t => (List.range 8).foldl (fun s th => releaseThread s t ref th) s) s

/-- A take of a thread of the owning tile is served if a unit is left (R190). -/
def serveTake (s : M8) (ref th : Nat) : M8 :=
  let t := ref / 4096
  let y := getThread s t th
  let o := getSync s ref
  match y.wait with
  | .take r => if r = ref && o.value > 0 then
      setThread (setSync s ref { o with value := o.value - 1 }) t th y.advance
    else s
  | _ => s

/-- A release of a semaphore serves the takes waiting at the owning tile in ascending thread number (R190). -/
def serveTakes (s : M8) (ref : Nat) : M8 := (List.range 8).foldl (fun s th => serveTake s ref th) s

/-- Add n to a counter's VALUE modulo 2^64; its waiters are released (R45, R189). -/
def addCounter (s : M8) (ref n : Nat) : M8 :=
  let o := getSync s ref
  releaseWaiters (setSync s ref { o with value := (o.value + n) % 2 ^ 64 }) ref

/-- A completion or NOTIFY addition (R195, R206): the object is still a counter of a tile with a program. -/
def notifyCounter (s : M8) (ref : Nat) : M8 :=
  if (getSync s ref).kind = 1 then
    addCounter (progressed s (ref / 4096)) ref 1
  else s

/-- A counter of the issuing tile outside the firmware's objects (R184, R195). -/
def ownCounter (s : M8) (t ref : Nat) : Bool :=
  ref / 4096 == t && ref % 4096 < 4032 && (getSync s ref).kind == 1

/-- The cause a completion object or NOTIFY counter traps with where `ownCounter` is false: 0x04 for a counter of the
issuing tile among the firmware's objects (R184), else 0x0C (R195, R204). DEDUCED, see entry 58. -/
def counterCause (s : M8) (t ref : Nat) : Nat :=
  if ref / 4096 = t ∧ (getSync s ref).kind = 1 then 0x04 else 0x0C

/-- Unsigned comparison of S registers. -/
def ltU (a b : Word64) : Bool := a.ult b

/-- Signed comparison of S registers. -/
def ltS (a b : Word64) : Bool := a.slt b

end Machine
end Sys2Proof
end

