-- ==== Sys2Proof/Machine/Pool.lean ====
section
/-!
DEFINITION. Sys2Proof/Machine/Pool.lean: the cell pools (R328 to R347).
-/
namespace Sys2Proof
namespace Machine

/-! ### Geometry (R328 to R331) -/

/-- Cells of a pool: pool 0 is the HBM pool of the hub, pool 1 its SRAM pool (R328). -/
def poolCells (s : M8) (pool : Nat) : Nat :=
  if pool = 0 then (odInForce s Od.PART_STAGING - odInForce s Od.READBACK_BYTES) / 4 / 512
  else odInForce s Od.SRAM_POOL_MIB * 8192

/-- Bytes of a cell (R328). -/
def cellBytes (pool : Nat) : Nat := if pool = 0 then 512 else 128

/-- Package address of a hub's SRAM (R37). -/
def hubSram (hub : Nat) : Nat := 0x020100000000 + hub * 0x4000000

/-- Package address of cell 0 of a pool (R328, R331). -/
def poolBase (s : M8) (hub pool : Nat) : Nat :=
  if pool = 0 then partBase s 1 + hub * poolCells s 0 * 512
  else hubSram hub + (64 - odInForce s Od.SRAM_POOL_MIB) * 0x100000

def cellAddr (s : M8) (hub pool cell : Nat) : Nat := poolBase s hub pool + cell * cellBytes pool

def getPool (s : M8) (hub pool : Nat) : Pool := s.hubs.pools.get {} (hub * 2 + pool)

def setPool (s : M8) (hub pool : Nat) (x : Pool) : M8 :=
  { s with hubs := { s.hubs with pools := s.hubs.pools.set {} (hub * 2 + pool) x } }

/-- OWN_CFG of an owner; the RESERVE of HBM owner 0 is FW_RESERVE_CELLS in force (R337, R361). -/
def ownCfg (s : M8) (pool : Nat) (x : Pool) (o : Nat) : OwnCfg :=
  let c := x.cfg.get {} o
  if pool = 0 && o = 0 then { c with reserve := odInForce s Od.FW_RESERVE_CELLS } else c

/-- Cells of a run or chain. -/
def Holding.cells (h : Holding) : Nat := h.pieces.foldl (fun n p => n + p.2) 0

/-- HELD of an owner: the cells count once, at the earliest name still present (R344, R345). -/
def Pool.heldBy (x : Pool) (o : Nat) : Nat :=
  x.held.foldl (fun n h => if h.names.head? = some o then n + h.cells else n) 0

/-- RUNS of an owner (R345). -/
def Pool.runsOf (x : Pool) (o : Nat) : Nat := (x.held.filter fun h => h.names.head? == some o).length

/-- FREE (R345). -/
def poolFree (s : M8) (hub pool : Nat) : Nat := poolCells s pool - (getPool s hub pool).used

/-- The sum over the other owners of what is left of their reserves (R338). -/
def otherReserves (s : M8) (pool : Nat) (x : Pool) (o : Nat) : Nat :=
  (List.range 256).foldl (fun n p => if p = o then n else n + ((ownCfg s pool x p).reserve - x.heldBy p)) 0

/-- May k cells be granted to owner o (R338)? -/
def grantAllowed (s : M8) (hub pool o k : Nat) : Bool :=
  let x := getPool s hub pool
  x.heldBy o + k ≤ (ownCfg s pool x o).limit && poolFree s hub pool ≥ k + otherReserves s pool x o

/-! ### The free store (R334, R335) -/

/-- The spans held in a pool. -/
def Pool.busy (x : Pool) : List (Nat × Nat) := x.held.flatMap fun h => h.pieces

/-- Are the n cells from c all free? -/
def spanFree (busy : List (Nat × Nat)) (cells c n : Nat) : Bool :=
  c + n ≤ cells && busy.all fun b => !(c < b.1 + b.2 && b.1 < c + n)

/-- Where the lowest run can start: cell 0, the end of a held span, or the next 64-cell or 4,096-cell boundary after
one. -/
def runStarts (busy : List (Nat × Nat)) : List Nat :=
  0 :: busy.flatMap fun b => [b.1 + b.2, ceilDiv (b.1 + b.2) 64 * 64, ceilDiv (b.1 + b.2) 4096 * 4096]

/-- Does a run of k cells stand at c: within one bitmap word up to 64 cells, else whole words of one level-1 word? -/
def runFits (busy : List (Nat × Nat)) (cells k c : Nat) : Bool :=
  if k ≤ 64 then c / 64 == (c + k - 1) / 64 && spanFree busy cells c k
  else
    let n := ceilDiv k 64
    c % 64 == 0 && c / 4096 == (c + 64 * n - 1) / 4096 && spanFree busy cells c (64 * n)

/-- find_run (R335): the lowest cell at which a run of k cells stands. -/
def findRun (busy : List (Nat × Nat)) (cells k : Nat) : Option Nat :=
  ((runStarts busy).filter (runFits busy cells k)).foldl (fun a c => match a with
    | some b => some (min b c)
    | none => some c) none

/-- The longest run of at most k cells, k at most 64, and where it stands. -/
def longestRun (busy : List (Nat × Nat)) (cells : Nat) : Nat → Option (Nat × Nat)
  | 0 => none
  | k + 1 => match findRun busy cells (k + 1) with
    | some c => some (c, k + 1)
    | none => longestRun busy cells k

/-- The runs of a chain of k cells, each of at most 64 (R333; assumption log 28). fuel bounds their number. -/
def chainRuns (cells : Nat) : Nat → List (Nat × Nat) → Nat → Option (List (Nat × Nat))
  | _, _, 0 => some []
  | 0, _, _ => none
  | f + 1, busy, k => match longestRun busy cells (min 64 k) with
    | none => none
    | some r => (chainRuns cells f (r :: busy) (k - r.2)).map (r :: ·)

/-- The pieces a request would be granted. -/
def findPieces (s : M8) (hub pool k : Nat) (chain : Bool) : Option (List (Nat × Nat)) :=
  let busy := (getPool s hub pool).busy
  let cells := poolCells s pool
  if chain then chainRuns cells k busy k else (findRun busy cells k).map fun c => [(c, k)]

/-! ### Granting (R336, R338, R339) -/

/-- What the holder of a granted request sees: a reader gets CELLS and ADDR of TAKE; the reading thread goes on. -/
def deliverGrant (s : M8) (hub pool : Nat) (q : PoolReq) (pieces : List (Nat × Nat)) : M8 :=
  let v := cellAddr s hub pool (pieces.headD (0, 0)).1 + q.cells * 2 ^ 48
  match q.who with
  | .read a => emit s (.readData a v)
  | .thread t th sd nd =>
    let y := getThread s t th
    if y.wait = .queue && y.tstate = .waitQueue then complete s t th 29 nd (y.setReg sd (BitVec.ofNat 64 v)) else s
  | .unit => s

/-- Grant a request whose cells stand at pieces. -/
def grantReq (s : M8) (hub pool : Nat) (q : PoolReq) (pieces : List (Nat × Nat)) : M8 :=
  let x := getPool s hub pool
  let h : Holding := { id := q.id, pieces := pieces, chain := q.chain, names := [q.owner], time := s.clk.now }
  let s := setPool s hub pool { x with
    used := x.used + h.cells, held := h :: x.held, waiting := x.waiting.filter fun w => w.id != q.id }
  deliverGrant s hub pool q pieces

/-- Can a request be granted now? Its cells, then. -/
def grantable (s : M8) (hub pool : Nat) (q : PoolReq) : Option (List (Nat × Nat)) :=
  if grantAllowed s hub pool q.owner q.cells then findPieces s hub pool q.cells q.chain else none

/-- A request reaches the pool: it is granted at once where it can be and no request of its owner waits, else it waits
and is counted (R339). -/
def requestCells (s : M8) (hub pool : Nat) (q : PoolReq) : M8 :=
  let x := getPool s hub pool
  let wait (s : M8) := odInc (setPool s hub pool { x with waiting := x.waiting ++ [q] }) Od.POOL_WAITS
  if x.waiting.any fun w => w.owner == q.owner then wait s
  else match grantable s hub pool q with
    | some ps => grantReq s hub pool q ps
    | none => wait s

/-- A fresh number for a request and what it holds. -/
def newHold (s : M8) : Nat × M8 :=
  (s.hubs.nextHold, { s with hubs := { s.hubs with nextHold := s.hubs.nextHold + 1 } })

/-- The holding a request was granted, if it was. -/
def findHold (s : M8) (hub pool id : Nat) : Option Holding := (getPool s hub pool).held.find? fun h => h.id == id

/-- The first waiting request of its owner. -/
def firstOfOwner : List Nat → List PoolReq → List PoolReq
  | _, [] => []
  | seen, q :: r => if seen.contains q.owner then firstOfOwner seen r else q :: firstOfOwner (q.owner :: seen) r

/-- The first request of a list that can be granted. -/
def firstGrantable (s : M8) (hub pool : Nat) : List PoolReq → Option (PoolReq × List (Nat × Nat))
  | [] => none
  | q :: r => match grantable s hub pool q with
    | some ps => some (q, ps)
    | none => firstGrantable s hub pool r

/-- Serve the waiting requests once: those within their owner's reserve first, each class in arrival order; a waiting
request blocks later ones of its own owner alone (R339). -/
def serveWaiting (s : M8) (hub pool : Nat) : M8 :=
  let x := getPool s hub pool
  let qs := firstOfOwner [] x.waiting
  let inReserve (q : PoolReq) : Bool := x.heldBy q.owner + q.cells ≤ (ownCfg s pool x q.owner).reserve
  match firstGrantable s hub pool (qs.filter inReserve ++ qs.filter fun q => !inReserve q) with
  | some (q, ps) => grantReq s hub pool q ps
  | none => s

/-- A waiting cell request is granted once cells, reserves and limits allow it (R339). -/
def execPoolGrant (hub pool : Nat) (s : State) : Out :=
  live s fun m => if hub < 4 && pool < 2 then serveWaiting m hub pool else m

/-! ### Ports (R341, R342) -/

/-- Package address of a port register (R345). -/
def portAddr (hub pool owner off : Nat) : Nat :=
  0x030001000000 + hub * 0x100000 + (if pool = 0 then 0x11000 else 0x13000) + owner * 0x20 + off

/-- May an agent use the ports of an owner: cores every port, tiles those of 0x80 to 0xFF; owners 0x05 to 0x7F are
reserved (R337, R342)? -/
def portAllowed (agent owner : Nat) : Bool :=
  (isCore agent && !(0x05 ≤ owner && owner ≤ 0x7F)) || (agent < 0x40 && 0x80 ≤ owner && owner ≤ 0xFF)

/-- An aligned 8-byte read of TAKE requests a run of RUN_M1 + 1 cells (R341). -/
def poolTake (s : M8) (agent hub pool owner : Nat) (who : TakeFor) : M8 :=
  if !portAllowed agent owner then addressError s agent (portAddr hub pool owner 0x10)
  else
    let (id, s) := newHold s
    requestCells s hub pool
      { id := id, owner := owner, cells := (ownCfg s pool (getPool s hub pool) owner).runM1 + 1, agent := agent, who := who }

/-- TAKE read (R341). An access that is not allowed returns all ones. -/
def execPoolTake (agent hub pool owner : Nat) (s : State) : Out :=
  live s fun m =>
    if hub ≥ 4 || pool ≥ 2 then m
    else if !portAllowed agent owner then
      emit (addressError m agent (portAddr hub pool owner 0x10)) (.readData agent 0xFFFFFFFFFFFFFFFF)
    else poolTake m agent hub pool owner (.read agent)

/-- Remove an owner's name from a holding; the cells return when the last name goes (R344). -/
def dropName (s : M8) (hub pool id owner : Nat) : M8 :=
  let x := getPool s hub pool
  match x.held.find? fun h => h.id == id with
  | none => s
  | some h =>
    let names := h.names.erase owner
    if names.isEmpty then
      setPool s hub pool { x with used := x.used - h.cells, held := x.held.filter fun g => g.id != id }
    else setPool s hub pool { x with held := x.held.map fun g => if g.id = id then { g with names := names } else g }

/-- A refused give: counted, an address error, and the pool's source pulses (R342, R593). -/
def badGive (s : M8) (agent hub pool owner : Nat) : M8 :=
  pulse (addressError (odInc s Od.POOL_BAD_GIVE) agent (portAddr hub pool owner 0x18)) (0x14E + hub)

/-- A GIVE write: the address must be the first cell of a run the owner holds (R342, R344). -/
def poolGive (s : M8) (agent hub pool owner addr : Nat) : M8 :=
  if !portAllowed agent owner then addressError s agent (portAddr hub pool owner 0x18)
  else match (getPool s hub pool).held.find? fun h =>
      h.names.contains owner && cellAddr s hub pool (h.pieces.headD (0, 0)).1 == addr % 2 ^ 48 with
    | some h => dropName s hub pool h.id owner
    | none => badGive s agent hub pool owner

/-- GIVE written (R342). -/
def execPoolGive (agent hub pool owner addr : Nat) (s : State) : Out :=
  live s fun m => if hub < 4 && pool < 2 then poolGive m agent hub pool owner addr else m

/-- Name a further owner on a run or chain; a fifth name is refused (R343). -/
def shareHold (s : M8) (hub pool id owner : Nat) : M8 :=
  let x := getPool s hub pool
  setPool s hub pool { x with
    held := x.held.map fun h => if h.id = id && h.names.length < 4 then { h with names := h.names ++ [owner] } else h }

/-- A holder names a further owner on the run or chain whose first cell stands at an address, by a hub unit's or
firmware's share operation (R343). -/
def execPoolShare (hub pool owner addr newOwner : Nat) (s : State) : Out :=
  live s fun m =>
    match (getPool m hub pool).held.find? fun h =>
        h.names.contains owner && cellAddr m hub pool (h.pieces.headD (0, 0)).1 == addr with
    | some h => if hub < 4 && pool < 2 then shareHold m hub pool h.id newOwner else m
    | none => m

/-! ### Audit and leaks (R345 to R347) -/

/-- UNACCOUNTED of a pool (R346): its cell count less FREE less the sum of HELD. -/
def unaccounted (s : M8) (hub pool : Nat) : Nat :=
  let x := getPool s hub pool
  poolCells s pool - poolFree s hub pool - (x.held.foldl (fun n h => n + h.cells) 0)

/-- Age in us of a holding (R345). -/
def holdAge (s : M8) (h : Holding) : Nat := (s.clk.now - h.time) / 1000

/-- The audit record of an owner; none when HELD and RESERVE are 0 (R345). -/
def auditRecord (s : M8) (hub pool o : Nat) : Bytes :=
  let x := getPool s hub pool
  let c := ownCfg s pool x o
  let mine := x.held.filter fun h => h.names.head? == some o
  if x.heldBy o = 0 && c.reserve = 0 then []
  else natLe 1 (hub * 4 + pool) ++ natLe 1 o ++ zeros 2 ++ natLe 4 (x.heldBy o) ++ natLe 4 (x.runsOf o) ++ natLe 4 c.reserve ++
    natLe 4 c.limit ++ natLe 8 (mine.foldl (fun n h => max n (holdAge s h)) 0) ++
    natLe 4 (mine.filter fun h => holdAge s h > odNat s Od.AUDIT_AGE_MS * 1000).length

/-- The snapshot POOL_AUDIT returns (R345). -/
def poolAudit (s : M8) : Bytes :=
  [0, 1, 2, 3].flatMap fun hub =>
    ([0, 1].flatMap fun pool => (List.range 256).flatMap fun o => auditRecord s hub pool o) ++
      (natLe 1 (hub * 4) ++ natLe 1 0xFF ++ zeros 2 ++ natLe 4 (unaccounted s hub 0 + unaccounted s hub 1) ++ zeros 24)

/-- Cells unaccounted for in a hub are a hub fault, declared against the member (R346, R519); the pool's source pulses
(R593). -/
def unaccountedFaults (s : M8) : M8 :=
  [0, 1, 2, 3].foldl (fun s hub =>
    if unaccounted s hub 0 + unaccounted s hub 1 = 0 then s else declareSelf (pulse s (0x14E + hub)) 3) s

/-- Reading POOL_AUDIT takes the snapshot (R345, R346). -/
def takePoolAudit (s : M8) : Bytes × M8 :=
  let b := poolAudit s
  (b, unaccountedFaults (odPut s Od.POOL_AUDIT (.bytes b)))

/-- POOL_AUDIT read (R345). -/
def execPoolAuditRead (s : State) : Out := live s fun m => (takePoolAudit m).2

/-- At unload every cell owners 0x01 and 0x80 to 0xFF still hold returns to its pool and is counted (R347); what they
wait for is withdrawn. -/
def returnLeaks (s : M8) : M8 :=
  let job (o : Nat) : Bool := o == 1 || 0x80 ≤ o
  (List.range 8).foldl (fun s k =>
    let x := getPool s (k / 2) (k % 2)
    let kept := x.held.filterMap fun h =>
      let names := h.names.filter fun o => !job o
      if names.isEmpty then none else some { h with names := names }
    let gone := (x.held.filter fun h => h.names.all job).foldl (fun n h => n + h.cells) 0
    odAdd (setPool s (k / 2) (k % 2)
      { x with used := x.used - gone, held := kept, waiting := x.waiting.filter fun q => !job q.owner }) Od.POOL_LEAKED gone) s

/-! ### What hub units do with cells they hold -/

/-- The bytes of a holding's cells as (package address, length), in chain order (R333). -/
def holdSpans (s : M8) (hub pool : Nat) (h : Holding) : List (Nat × Nat) :=
  h.pieces.map fun p => (cellAddr s hub pool p.1, p.2 * cellBytes pool)

/-- Write bytes over spans in order. -/
def writeSpans (s : M8) : List (Nat × Nat) → Bytes → M8
  | [], _ => s
  | p :: ps, b => writeSpans (writeMem s p.1 (b.take p.2)) ps (b.drop p.2)

/-- Read n bytes over spans in order. -/
def readSpans (s : M8) : List (Nat × Nat) → Nat → Bytes
  | [], _ => []
  | p :: ps, n => readMemOnes s p.1 (min n p.2) ++ readSpans s ps (n - p.2)

/-- Give back what a hub unit holds. -/
def giveHold (s : M8) (hub pool id owner : Nat) : M8 := dropName s hub pool id owner

end Machine
end Sys2Proof
end

