-- ==== Sys2Proof/Machine/Dma.lean ====
section
/-!
DEFINITION. Sys2Proof/Machine/Dma.lean: the DMA channels (R348 to R360): descriptors, states, movers, records. The beats
are moved by the hub clock (Machine/DmaMove.lean).
-/
namespace Sys2Proof
namespace Machine

def getDma (s : M8) (hub c : Nat) : DmaCh := s.hubs.dma.get {} (hub * 64 + c)

def setDma (s : M8) (hub c : Nat) (x : DmaCh) : M8 :=
  { s with hubs := { s.hubs with dma := s.hubs.dma.set {} (hub * 64 + c) x } }

def modDma (s : M8) (hub c : Nat) (f : DmaCh → DmaCh) : M8 := setDma s hub c (f (getDma s hub c))

/-- Package address of a channel register. -/
def dmaReg (hub c off : Nat) : Nat := 0x030001000000 + hub * 0x100000 + 0x20000 + c * 0x40 + off

/-- STATE code (R350). -/
def DmaSt.code : DmaSt → Nat
  | .disabled => 0 | .idle => 1 | .running => 2 | .paced => 3 | .preempted => 4 | .stopping => 5 | .halted => 6

/-- Fields of DMA_CH_CFG. -/
def DmaCh.prio (x : DmaCh) : Nat := x.cfg % 8

def DmaCh.isPaced (x : DmaCh) : Bool := x.cfg.testBit 3

def DmaCh.retries (x : DmaCh) : Nat := bits x.cfg 7 4

def DmaCh.low (x : DmaCh) : Nat := x.pace % 2 ^ 32

def DmaCh.high (x : DmaCh) : Nat := x.pace / 2 ^ 32

/-- Bytes of the current descriptor not written (R354, DMA_CH_RESID). -/
def DmaCh.residue (x : DmaCh) : Nat := x.len - x.done

/-- DMA_CH_STAT. -/
def DmaCh.stat (x : DmaCh) : Nat :=
  x.st.code + b2n x.pendingEn * 8 + b2n x.refused * 16 + b2n x.doneBit * 32 + b2n x.err * 64 + (min 255 x.retriesUsed) * 256

/-- A completion record (R360). -/
def dmaRecordBytes (s : M8) (c : Nat) (x : DmaCh) (code errAddr : Nat) : Bytes :=
  natLe 1 code ++ natLe 1 c ++ natLe 1 x.descRetries ++ zeros 1 ++ natLe 4 x.residue ++ natLe 8 x.cur ++ natLe 8 errAddr ++
    natLe 8 s.clk.now

/-- Write a completion record and raise the channel's interrupt (R360, R593). -/
def dmaRecord (s : M8) (hub c code errAddr : Nat) : M8 :=
  let x := getDma s hub c
  let s := if x.sts = 0 then s else writeMem s x.sts (dmaRecordBytes s c x code errAddr)
  let s := modDma s hub c fun x => { x with doneBit := true }
  if code ≠ 0 || x.irqEn then pulse s (0x40 + 64 * hub + c) else s

/-- The holding whose chain starts at an address, with its spans (R332, R349). -/
def chainAt (s : M8) (a : Nat) : Option (List (Nat × Nat)) :=
  (List.range 8).findSome? fun k =>
    ((getPool s (k / 2) (k % 2)).held.find? fun h =>
      h.chain && cellAddr s (k / 2) (k % 2) (h.pieces.headD (0, 0)).1 == a).map (holdSpans s (k / 2) (k % 2))

/-- The address of byte k of a list of spans, and the bytes left in its span; none beyond the end. -/
def spanAddr : List (Nat × Nat) → Nat → Option (Nat × Nat)
  | [], _ => none
  | (a, n) :: r, k => if k < n then some (a + k, n - k) else spanAddr r (k - n)

/-- The address of byte k of a side of a transfer, and how many bytes follow without a break (R349). -/
def dmaByte (s : M8) (base : Nat) (chain : Bool) (k : Nat) : Option (Nat × Nat) :=
  if chain then match chainAt s base with
    | some sp => spanAddr sp k
    | none => none
  else some (base + k, 2 ^ 48)

/-- Does a descriptor keep R348 and R349? -/
def dmaDescOk (s : M8) (b : Bytes) : Bool :=
  let fl := leField b 20 1
  let next := leField b 24 8
  leField b 6 2 == 0 && leField b 14 2 == 0 && 1 ≤ leField b 16 4 && fl < 16 && leField b 21 3 == 0 && next % 32 == 0 && next < 2 ^ 48 &&
    (!fl.testBit 1 || next == 0) && (!fl.testBit 2 || (chainAt s (leField b 0 8)).isSome) &&
    (!fl.testBit 3 || (chainAt s (leField b 8 8)).isSome)

/-- Halt a channel (R349, R355). -/
def dmaHalt (s : M8) (hub c code errAddr : Nat) : M8 :=
  let s := modDma s hub c fun x => { x with st := .halted, err := true, mover := false, buf := [] }
  dmaRecord (odInc s Od.DMA_HALTS) hub c code errAddr

/-- Read the descriptor at an address and run it (R348, R351). A descriptor in a hole is a bus error on every try; one
that breaks the rules halts with code 4. -/
def dmaLoad (s : M8) (hub c addr : Nat) : M8 :=
  let s := modDma s hub c fun x => { x with
    cur := addr, done := 0, len := 0, buf := [], descRetries := 0, accRetries := 0, st := .running, since := s.clk.hclk }
  if addr % 32 ≠ 0 then dmaHalt s hub c 4 0
  else match readMem s addr 32 with
    | none =>
      let n := (getDma s hub c).retries
      let s := modDma s hub c fun x => { x with descRetries := n, retriesUsed := x.retriesUsed + n }
      dmaHalt (odAdd s Od.DMA_BUS_ERRORS (n + 1)) hub c 3 addr
    | some b =>
      let s := modDma s hub c fun x => { x with
        src := leField b 0 8, dst := leField b 8 8, len := leField b 16 4, flags := leField b 20 1, next := leField b 24 8 }
      if dmaDescOk s b then s else dmaHalt s hub c 4 0

/-- The level a paced channel reads (R352): a word of memory, or HELD of a pool owner of its hub. -/
def dmaLevel (s : M8) (hub : Nat) (x : DmaCh) : Option Nat :=
  if x.cfg.testBit 9 then some ((getPool s hub (bits x.lvl 8 8)).heldBy (x.lvl % 256))
  else (readMem s x.lvl 8).map leNat

/-- Must a paced channel pause at a level (R352)? -/
def DmaCh.pauses (x : DmaCh) (level : Nat) : Bool := if x.cfg.testBit 8 then level ≤ x.low else level ≥ x.high

/-- May a paused channel resume (R352)? -/
def DmaCh.resumes (x : DmaCh) (level : Nat) : Bool := if x.cfg.testBit 8 then level ≥ x.high else level ≤ x.low

/-- A write that only a control core may make to a channel (R358). -/
def dmaCore (s : M8) (agent hub c : Nat) (f : DmaCh → M8) : M8 :=
  if hub ≥ 4 || c ≥ 64 then s
  else if isCore agent then f (getDma s hub c) else addressError s agent (dmaReg hub c 0)

/-- START (R351, R352). -/
def dmaStart (s : M8) (agent hub c : Nat) : M8 :=
  dmaCore s agent hub c fun x =>
    if x.st ≠ .idle || x.pendingEn || (x.isPaced && x.low ≥ x.high) then setDma s hub c { x with refused := true }
    else dmaLoad (setDma s hub c { x with retriesUsed := 0 }) hub c x.desc

def execDmaStart (agent hub c : Nat) (s : State) : Out := live s fun m => dmaStart m agent hub c

/-- An abort ends: code 1, then state 1 (R354), or on to the shutdown that came after it (R356). -/
def dmaAbortEnd (s : M8) (hub c : Nat) : M8 :=
  let x := getDma s hub c
  if x.shut then s
  else modDma (dmaRecord s hub c 1 0) hub c fun x => { x with st := .idle, mover := false, buf := [] }

/-- ABORT (R354). -/
def dmaAbort (s : M8) (agent hub c : Nat) : M8 :=
  dmaCore s agent hub c fun x =>
    match x.st with
    | .running =>
      if x.buf.isEmpty then dmaAbortEnd (setDma s hub c { x with st := .stopping, stopCode := 1, shut := false }) hub c
      else setDma s hub c { x with st := .stopping, stopCode := 1, shut := false }
    | .paced => dmaAbortEnd (setDma s hub c { x with st := .stopping, stopCode := 1, shut := false, buf := [] }) hub c
    | .preempted => dmaAbortEnd (setDma s hub c { x with st := .stopping, stopCode := 1, shut := false, buf := [] }) hub c
    | .stopping => s
    | _ => setDma s hub c { x with refused := true }

def execDmaAbort (agent hub c : Nat) (s : State) : Out := live s fun m => dmaAbort m agent hub c

/-- ENABLE 1 (R350, R357): at once in state 0, held pending while a shutdown has not completed. -/
def dmaEnable (s : M8) (agent hub c : Nat) : M8 :=
  dmaCore s agent hub c fun x =>
    if x.st = .disabled then setDma s hub c { x with st := .idle, enable := true }
    else if x.st = .stopping && x.shut then setDma s hub c { x with pendingEn := true, enable := true }
    else setDma s hub c { x with enable := true }

def execDmaEnable (agent hub c : Nat) (s : State) : Out := live s fun m => dmaEnable m agent hub c

/-- ENABLE 0 (R356, R357): a shutdown starts, or a pending enable is cancelled. -/
def dmaDisable (s : M8) (agent hub c : Nat) : M8 :=
  dmaCore s agent hub c fun x =>
    let x := { x with enable := false, pendingEn := false }
    match x.st with
    | .disabled => setDma s hub c x
    | .idle => setDma s hub c { x with st := .stopping, stopCode := 0, shut := true, buf := [] }
    | .halted => setDma s hub c { x with st := .stopping, stopCode := 0, shut := true, buf := [] }
    | .running => setDma s hub c { x with st := .stopping, stopCode := 2, shut := true }
    | .paced => setDma s hub c { x with st := .stopping, stopCode := 2, shut := true, buf := [] }
    | .preempted => setDma s hub c { x with st := .stopping, stopCode := 2, shut := true, buf := [] }
    | .stopping => setDma s hub c { x with shut := true }

def execDmaDisable (agent hub c : Nat) (s : State) : Out := live s fun m => dmaDisable m agent hub c

/-- A shutdown completes (R356, R357): its record, state 0, and a pending enable then applies. -/
def execDmaShutdownDone (hub c : Nat) (s : State) : Out :=
  live s fun m =>
    let x := getDma m hub c
    if x.st = .stopping && x.shut && x.buf.isEmpty then
      let m := if x.stopCode = 0 then m else dmaRecord m hub c x.stopCode 0
      modDma m hub c fun x => { x with
        st := if x.pendingEn then .idle else .disabled, pendingEn := false, mover := false, shut := false, stopCode := 0 }
    else m

/-- Channels of a hub. -/
def hubDma (s : M8) (hub : Nat) : List (Nat × DmaCh) :=
  (s.hubs.dma.filter fun p => p.1 / 64 == hub).map fun p => (p.1 % 64, p.2)

/-- Does a channel wait for a mover (R353)? -/
def DmaCh.waits (x : DmaCh) : Bool := (x.st == .running && !x.mover && x.done < x.len) || x.st == .preempted

/-- The channel a free mover goes to: the highest priority, then the longest wait (R353). -/
def dmaBest (l : List (Nat × DmaCh)) : Option (Nat × DmaCh) :=
  (l.filter fun p => p.2.waits).foldl (fun a p => match a with
    | some q => if p.2.prio > q.2.prio || (p.2.prio == q.2.prio && p.2.since < q.2.since) then some p else some q
    | none => some p) none

/-- The running channel of lowest priority. -/
def dmaWorst (l : List (Nat × DmaCh)) : Option (Nat × DmaCh) :=
  (l.filter fun p => p.2.mover).foldl (fun a p => match a with
    | some q => if p.2.prio < q.2.prio then some p else some q
    | none => some p) none

/-- Give a channel a mover. -/
def dmaGive (s : M8) (hub c : Nat) : M8 :=
  modDma s hub c fun x => { x with mover := true, st := .running }

/-- Take the mover of a channel that loses it (R353): what it has read stays in its buffer. -/
def dmaPreempt (s : M8) (hub c : Nat) : M8 :=
  modDma s hub c fun x => { x with mover := false, since := s.clk.hclk, st := if x.st = .running then .preempted else x.st }

/-- A free mover of the eight goes to the best waiting channel; with none free, the lowest-priority running channel is
preempted for one of strictly higher priority (R353). -/
def execDmaMoverGrant (hub : Nat) (s : State) : Out :=
  live s fun m =>
    let l := hubDma m hub
    match dmaBest l with
    | none => m
    | some (c, x) =>
      if (l.filter fun p => p.2.mover).length < 8 then dmaGive m hub c
      else match dmaWorst l with
        | some (d, y) => if y.prio < x.prio && y.st = .running then dmaGive (dmaPreempt m hub d) hub c else m
        | none => m

/-- A paused channel reads its level, every 64 hclk (R352). -/
def execDmaPacePoll (hub c : Nat) (s : State) : Out :=
  live s fun m =>
    let x := getDma m hub c
    if x.st ≠ .paced then m
    else match dmaLevel m hub x with
      | some v => if x.resumes v then setDma m hub c { x with st := .running, since := m.clk.hclk } else m
      | none => m

/-- A descriptor ends once its last beat is visible at package scope (R351, R360): its record, then the next descriptor
or state 1. -/
def execDmaDescEnd (hub c : Nat) (s : State) : Out :=
  live s fun m =>
    let x := getDma m hub c
    if x.st ≠ .running || x.len = 0 || x.done < x.len then m
    else
      let last := x.flags.testBit 1
      let m := if last || x.flags.testBit 0 then dmaRecord m hub c 0 0 else m
      if last then modDma m hub c fun x => { x with st := .idle, mover := false } else dmaLoad m hub c x.next

end Machine
end Sys2Proof
end

