-- ==== Sys2Proof/Machine/Formats.lean ====
section
/-!
DEFINITION. Sys2Proof/Machine/Formats.lean: number formats and conversions (R260 to R264), the fused multiply-add of
NORM (R257), and Cotillion's layouts (R265 to R268). Values are exact: a finite float is a signed integer times a
power of two.
-/
namespace Sys2Proof
namespace Machine

/-- An exact source value: a finite one is sign, magnitude and exponent of two; an F32 NaN keeps its bits. -/
inductive FVal where
  | fin (neg : Bool) (m : Nat) (e : Int)
  | inf (neg : Bool)
  | nan (bits32 : Nat)
deriving DecidableEq, Repr

/-- Element types of images (R226) and codes of the output formats (R260). -/
def elemSize (ty : Nat) : Nat :=
  if ty = 0x00 then 1 else if ty = 0x02 then 2 else if ty = 0x03 then 2 else if ty = 0x05 then 4 else if ty = 0x06 then 4 else 0

/-- Is the code an image type (R226)? -/
def imageType (ty : Nat) : Bool := elemSize ty != 0

/-- An integer as an exact value. -/
def FVal.ofInt (i : Int) : FVal := .fin (i < 0) i.natAbs 0

/-- The value of F32 bits. -/
def FVal.ofF32 (b : Nat) : FVal :=
  let neg := b.testBit 31
  let ex := bits b 30 23
  let ma := bits b 22 0
  if ex = 255 then (if ma = 0 then .inf neg else .nan b)
  else if ex = 0 then .fin neg ma (-149)
  else .fin neg (ma + 2 ^ 23) ((ex : Int) - 150)

/-- The value of a source element of an image type (R226, R265). -/
def elemVal (ty raw : Nat) : FVal :=
  if ty = 0x06 then .ofF32 raw
  else if ty = 0x03 then .ofInt (signed 16 raw)
  else if ty = 0x05 then .ofInt (signed 32 raw)
  else .ofInt (raw : Int)

/-- num / 2^k rounded to nearest, ties to even. -/
def rneShift (num k : Nat) : Nat :=
  if k = 0 then num else
  let q := num / 2 ^ k
  let r := num % 2 ^ k
  if r > 2 ^ (k - 1) || (r = 2 ^ (k - 1) && q % 2 = 1) then q + 1 else q

/-- m * 2^e as an integer, rounded to nearest, ties to even. -/
def rneInt (m : Nat) (e : Int) : Nat := if e ≥ 0 then m * 2 ^ e.toNat else rneShift m (-e).toNat

/-- A float format (R260): bits, bias, mantissa bits, encoding of the largest finite, of Inf where it has one, and the
NaN written where it has one. -/
structure FloatFmt where
  width : Nat
  bias : Int
  man : Nat
  maxFin : Nat
  inf : Option Nat
  nan : Option Nat
deriving DecidableEq, Repr

/-- The float formats by code (R260). -/
def floatFmt (code : Nat) : Option FloatFmt :=
  if code = 0x06 then some ⟨32, 127, 23, 0x7F7FFFFF, some 0x7F800000, some 0x7FC00000⟩
  else if code = 0x07 then some ⟨16, 15, 10, 0x7BFF, some 0x7C00, some 0x7E00⟩
  else if code = 0x08 then some ⟨16, 127, 7, 0x7F7F, some 0x7F80, some 0x7FC0⟩
  else if code = 0x09 then some ⟨8, 7, 3, 0x7E, none, some 0x7F⟩
  else if code = 0x0A then some ⟨8, 15, 2, 0x7B, some 0x7C, some 0x7E⟩
  else if code = 0x0B then some ⟨6, 3, 2, 0x1F, none, none⟩
  else if code = 0x0C then some ⟨6, 1, 3, 0x1F, none, none⟩
  else if code = 0x0D then some ⟨4, 1, 1, 0x7, none, none⟩
  else none

/-- Bits of an output format (R260). -/
def fmtBits (code : Nat) : Nat :=
  match floatFmt code with
  | some f => f.width
  | none => if code ≤ 1 then 8 else if code ≤ 3 then 16 else if code ≤ 5 then 32 else 0

/-- The magnitude encoding of m * 2^e rounded to nearest even with the exponent range unbounded above (R261). -/
def floatMag (f : FloatFmt) (m : Nat) (e : Int) : Nat :=
  if m = 0 then 0 else
  let top : Int := (Nat.log2 m : Int) + e
  let qe := max (top - f.man) (1 - f.bias - f.man)
  let q := rneInt m (e - qe)
  if q < 2 ^ f.man then q else (qe + f.man + f.bias).toNat * 2 ^ f.man + q - 2 ^ f.man

/-- What an overflow writes (R262): largest finite when saturating; else Inf, or E4M3's NaN, or the largest finite. -/
def overflowEnc (f : FloatFmt) (sat : Bool) : Nat :=
  if sat then f.maxFin else
  match f.inf, f.nan with
  | some i, _ => i
  | none, some n => n
  | none, none => f.maxFin

/-- Conversion to a float format (R261, R262). -/
def toFloat (f : FloatFmt) (sat : Bool) (v : FVal) : Nat :=
  let sign (neg : Bool) := b2n neg * 2 ^ (f.width - 1)
  match v with
  | .fin neg m e => let q := floatMag f m e; sign neg + (if q > f.maxFin then overflowEnc f sat else q)
  | .inf neg => sign neg + overflowEnc f sat
  | .nan b => match f.nan with
    | some n => sign (b.testBit 31) + n
    | none => 0

/-- Least and greatest value of an integer format (R260). -/
def intRange (code : Nat) : Int × Int :=
  if code = 0 then (0, 255) else if code = 1 then (-128, 127) else if code = 2 then (0, 65535)
  else if code = 3 then (-32768, 32767) else if code = 4 then (0, 4294967295) else (-2147483648, 2147483647)

/-- i clamped to lo .. hi. -/
def clampI (i lo hi : Int) : Int := if i < lo then lo else if i > hi then hi else i

/-- Conversion to an integer format (R261): round to nearest even, saturate; NaN gives 0, Inf the extremes. -/
def toInt (code : Nat) (v : FVal) : Nat :=
  let r := intRange code
  let i : Int := match v with
    | .fin neg m e => let q : Int := (rneInt m e : Nat); if neg then -q else q
    | .inf neg => if neg then r.1 else r.2
    | .nan _ => 0
  unsigned (fmtBits code) (clampI i r.1 r.2)

/-- Conversion of a source element of type ty to format code (R261, R262). F32 to F32 copies the bits. -/
def convertElem (code : Nat) (sat : Bool) (ty raw : Nat) : Nat :=
  if code = 0x06 && ty = 0x06 then raw
  else match floatFmt code with
    | some f => toFloat f sat (elemVal ty raw)
    | none => toInt code (elemVal ty raw)

/-- Scale an exact value by 2^k. -/
def FVal.scale (v : FVal) (k : Int) : FVal :=
  match v with
  | .fin neg m e => .fin neg m (e + k)
  | v => v

/-- emax of a block format (R263). -/
def mxEmax (code : Nat) : Int :=
  if code = 0x09 then 8 else if code = 0x0A then 15 else if code = 0x0B then 4 else 2

/-- floor(log2 |v|) of a finite non-zero value. -/
def FVal.log2? (v : FVal) : Option Int :=
  match v with
  | .fin _ m e => if m = 0 then none else some ((Nat.log2 m : Int) + e)
  | _ => none

/-- Is the value finite? -/
def FVal.finite (v : FVal) : Bool :=
  match v with
  | .fin _ _ _ => true
  | _ => false

/-- mx_block (R263): the scale byte and the elements of a block. -/
def mxBlock (code : Nat) (vs : List FVal) : Nat × List Nat :=
  match floatFmt code with
  | none => (0, [])
  | some f =>
    if vs.any fun v => !v.finite then (0xFF, vs.map fun _ => 0)
    else
      let e := match (vs.filterMap FVal.log2?).max? with
        | none => (-127 : Int)
        | some l => max (l - mxEmax code) (-127)
      ((e + 127).toNat, vs.map fun v => toFloat f true (v.scale (-e)))

/-! ### The fused multiply-add of NORM (R257) -/

/-- m * 2^e with sign as an integer multiple of 2^to, for to at most e. -/
def atExp (neg : Bool) (m : Nat) (e low : Int) : Int :=
  let n : Int := (m * 2 ^ (e - low).toNat : Nat)
  if neg then -n else n

/-- The quiet NaN written with a sign (R257). -/
def qnan (neg : Bool) : Nat := b2n neg * 2 ^ 31 + 0x7FC00000

/-- Sign of a value. -/
def FVal.neg (v : FVal) : Bool :=
  match v with
  | .fin n _ _ => n
  | .inf n => n
  | .nan b => b.testBit 31

/-- Is the value zero? -/
def FVal.zero (v : FVal) : Bool :=
  match v with
  | .fin _ m _ => m == 0
  | _ => false

/-- The F32 format. -/
def f32 : FloatFmt := ⟨32, 127, 23, 0x7F7FFFFF, some 0x7F800000, some 0x7FC00000⟩

/-- fma(x, s, b) in binary32 with one rounding (R257). -/
def fma32 (x s b : FVal) : Nat :=
  match x, s, b with
  | .nan p, _, _ => qnan (p.testBit 31)
  | _, .nan p, _ => qnan (p.testBit 31)
  | _, _, .nan p => qnan (p.testBit 31)
  | .fin n1 m1 e1, .fin n2 m2 e2, .fin n3 m3 e3 =>
    let e := min (e1 + e2) e3
    let n := n1 != n2
    let i := atExp n (m1 * m2) (e1 + e2) e + atExp n3 m3 e3 e
    if i = 0 then (if n && n3 then 2 ^ 31 else 0)
    else toFloat f32 false (.fin (i < 0) i.natAbs e)
  | .fin _ _ _, .fin _ _ _, .inf n => toFloat f32 false (.inf n)
  | x, s, b =>
    if x.zero || s.zero then qnan false
    else
      let n := x.neg != s.neg
      match b with
      | .inf n3 => if n = n3 then toFloat f32 false (.inf n) else qnan false
      | _ => toFloat f32 false (.inf n)

/-- An input element converted to F32 (R257). -/
def toF32 (ty raw : Nat) : FVal := if ty = 0x06 then .ofF32 raw else .ofF32 (toFloat f32 false (elemVal ty raw))

/-! ### Cotillion layouts (R265 to R268) -/

/-- A layout record (R265). -/
structure Layout where
  format : Nat := 0
  scale : Nat := 0
  sat : Bool := false
  srcType : Nat := 0
  ndims : Nat := 1
  dims : List Nat := []
  strides : List Nat := []
  slotBytes : Nat := 0
deriving DecidableEq, Repr

/-- The layout of a 64-byte record. -/
def layoutOf (b : Bytes) : Layout :=
  { format := leField b 0 1, scale := leField b 1 1, sat := leField b 2 1 == 1, srcType := leField b 3 1, ndims := leField b 4 1,
    dims := (List.range 4).map fun k => leField b (8 + 4 * k) 4, strides := (List.range 4).map fun k => leField b (24 + 4 * k) 4,
    slotBytes := leField b 40 4 }

/-- E, the elements of a slot (R267). -/
def Layout.elems (l : Layout) : Nat := l.dims.foldl (· * ·) 1

/-- n rounded up to a multiple of k. -/
def roundUp (n k : Nat) : Nat := ceilDiv n k * k

/-- SLOT_BYTES by R267. -/
def Layout.packedSize (l : Layout) : Nat :=
  roundUp (ceilDiv (l.elems * fmtBits l.format) 8 + (if l.scale = 0 then 0 else l.elems / 32)) 64

/-- The innermost dimension. -/
def Layout.inner (l : Layout) : Nat := l.dims.getD (l.ndims - 1) 1

/-- Where in its bytes a layout record is not valid (R265, R267, R268, load limit 0x11). -/
def layoutFault (b : Bytes) : Option Nat :=
  let l := layoutOf b
  let zero (k len : Nat) : Bool := ((b.drop k).take len).all (· == 0#8)
  let inner := 8 + 4 * (l.ndims - 1)
  firstFail ([(decide (l.format ≤ 0x0D), 0), (decide (l.scale ≤ 2), 1), (l.scale == 0 || 0x09 ≤ l.format, 1),
    (decide (leField b 2 1 ≤ 1), 2), (imageType l.srcType, 3), (1 ≤ l.ndims && l.ndims ≤ 4, 4), (zero 5 3, 5)] ++
    ((List.range 4).map fun k => let d := l.dims.getD k 0
      (1 ≤ d && (k < l.ndims || d == 1), 8 + 4 * k)) ++
    [(decide (l.elems ≤ 2 ^ 30), 8), (l.scale == 0 || l.inner % 32 == 0, inner), (l.format != 0x0D || l.inner % 2 == 0, inner),
      (!(l.format == 0x0B || l.format == 0x0C) || l.inner % 4 == 0, inner)] ++
    ((List.range 4).map fun k => let s := l.strides.getD k 0
      (if k < l.ndims then s % elemSize l.srcType == 0 else s == 0, 24 + 4 * k)) ++
    [(l.slotBytes == l.packedSize, 40), (zero 44 20, 44)])

/-- Byte offsets of the source elements in output order, innermost fastest (R266). -/
def elemOffsets : List Nat → List Nat → List Nat
  | d :: ds, st :: sts => (List.range d).flatMap fun i => (elemOffsets ds sts).map (· + i * st)
  | _, _ => [0]

/-- Pack codes of w bits each, least significant first (R264). -/
def packBits (w : Nat) (codes : List Nat) : Bytes :=
  if w = 8 then codes.map fun c => BitVec.ofNat 8 c
  else if w = 16 then codes.flatMap (natLe 2)
  else if w = 32 then codes.flatMap (natLe 4)
  else if w = 4 then (chunksOf2 codes).map fun p => BitVec.ofNat 8 (p.1 + 16 * p.2)
  else sixes codes
where
  chunksOf2 : List Nat → List (Nat × Nat)
    | a :: b :: r => (a, b) :: chunksOf2 r
    | [a] => [(a, 0)]
    | [] => []
  sixes : List Nat → Bytes
    | a :: b :: c :: d :: r => natLe 3 (a + b * 2 ^ 6 + c * 2 ^ 12 + d * 2 ^ 18) ++ sixes r
    | _ => []

/-- Blocks of 32 of a list; fuel bounds the count. -/
def blocks32 : Nat → List FVal → List (List FVal)
  | 0, _ => []
  | f + 1, vs => if vs.isEmpty then [] else vs.take 32 :: blocks32 f (vs.drop 32)

/-- The packed slot of a tensor (R266, R267): elem gives the raw source element at a byte offset from SRC. -/
def packLayout (l : Layout) (elem : Nat → Nat) : Bytes :=
  let raws := (elemOffsets l.dims l.strides).map elem
  let body :=
    if l.scale = 0 then packBits (fmtBits l.format) (raws.map fun r => convertElem l.format l.sat l.srcType r)
    else
      let bs := (blocks32 (l.elems / 32) (raws.map (elemVal l.srcType))).map (mxBlock l.format)
      if l.scale = 1 then bs.flatMap fun b => natLe 1 b.1 ++ packBits (fmtBits l.format) b.2
      else bs.flatMap (fun b => packBits (fmtBits l.format) b.2) ++ bs.flatMap fun b => natLe 1 b.1
  body ++ zeros (l.slotBytes - body.length)

end Machine
end Sys2Proof
end

