-- ==== Sys2Proof/Machine/Jpeg.lean ====
section
/-!
DEFINITION. Sys2Proof/Machine/Jpeg.lean: the JPEG decoder of R235 to R239 (baseline and progressive Huffman,
progressive arithmetic), its header reading and its index pass (R234). The decoding procedures are those of ITU-T
T.81, which the spec names (assumption log 3); a failure answers a quarantine reason of R154.
-/
namespace Sys2Proof
namespace Machine

/-- Zigzag position k to natural position (T.81). -/
def zigzag : List Nat :=
  [0, 1, 8, 16, 9, 2, 3, 10, 17, 24, 32, 25, 18, 11, 4, 5, 12, 19, 26, 33, 40, 48, 41, 34, 27, 20, 13, 6, 7, 14, 21, 28] ++
  [35, 42, 49, 56, 57, 50, 43, 36, 29, 22, 15, 23, 30, 37, 44, 51, 58, 59, 52, 45, 38, 31, 39, 46, 53, 60, 61, 54, 47, 55, 62, 63]

/-! ### The inverse DCT (R239) -/

/-- 4096 * cos(k pi / 16) to the nearest integer for k from 1 to 7, and 4096 / sqrt 2 for k = 0 (R239). -/
def idctBase : List Int := [2896, 4017, 3784, 3406, 2896, 2276, 1567, 799]

/-- 4096 * cos(j pi / 16) to the nearest integer, j any; the case j = 0 has no use. -/
def cosQ (j : Nat) : Int :=
  let j := j % 32
  let j := if j > 16 then 32 - j else j
  if j = 8 then 0 else if j < 8 then idctBase.getD j 0 else -(idctBase.getD (16 - j) 0)

/-- C[u][x] (R239). -/
def idctC (u x : Nat) : Int := if u = 0 then 2896 else cosQ ((2 * x + 1) * u)

/-- Arithmetic shift right of an integer. -/
def sarI (i : Int) (k : Nat) : Int := i / (2 ^ k : Nat)

/-- Sum of g 0 .. g 7. -/
def sum8 (g : Nat → Int) : Int := (List.range 8).foldl (fun a i => a + g i) 0

/-- idct8(F, P): 64 samples in row order from 64 dequantised coefficients in natural order (R239). -/
def idct8 (f : List Int) (p : Nat) : List Nat :=
  let t := (List.range 64).map fun i =>
    let v := i / 8
    let x := i % 8
    sarI (sum8 (fun u => idctC u x * f.getD (8 * v + u) 0) + 1024) 11
  (List.range 64).map fun i =>
    let y := i / 8
    let x := i % 8
    let s := sarI (sum8 (fun v => idctC v y * t.getD (8 * v + x) 0) + 16384) 15 + (2 ^ (p - 1) : Nat)
    if s < 0 then 0 else if s > ((2 ^ p - 1 : Nat) : Int) then 2 ^ p - 1 else s.toNat

/-! ### Tables and frame -/

/-- A Huffman table: how many codes of each length 1 to 16, and their values in code order. -/
structure Huff where
  counts : List Nat := []
  vals : List Nat := []
deriving DecidableEq, Repr

/-- A frame component: identifier, sampling factors, quantisation table. -/
structure JComp where
  id : Nat := 0
  h : Nat := 1
  v : Nat := 1
  tq : Nat := 0
deriving DecidableEq, Repr

/-- A frame header; process 0 baseline, 1 progressive Huffman, 2 progressive arithmetic (R233). -/
structure JFrame where
  process : Nat := 0
  prec : Nat := 8
  width : Nat := 0
  height : Nat := 0
  comps : List JComp := []
deriving DecidableEq, Repr

/-- The tables in force. -/
structure JTables where
  qt : List (List Nat) := [[], [], [], []]
  dc : List Huff := [{}, {}, {}, {}]
  ac : List Huff := [{}, {}, {}, {}]
  condL : List Nat := [0, 0, 0, 0]
  condU : List Nat := [1, 1, 1, 1]
  condK : List Nat := [5, 5, 5, 5]
  ri : Nat := 0
deriving DecidableEq, Repr

/-- Largest horizontal sampling factor. -/
def JFrame.hMax (f : JFrame) : Nat := f.comps.foldl (fun m c => max m c.h) 1

/-- Largest vertical sampling factor. -/
def JFrame.vMax (f : JFrame) : Nat := f.comps.foldl (fun m c => max m c.v) 1

/-- MCUs per MCU row (R233). -/
def JFrame.hMcus (f : JFrame) : Nat := ceilDiv f.width (8 * f.hMax)

/-- MCU rows (R233). -/
def JFrame.vMcus (f : JFrame) : Nat := ceilDiv f.height (8 * f.vMax)

/-- A component's own width (R237). -/
def JFrame.compW (f : JFrame) (c : JComp) : Nat := ceilDiv (f.width * c.h) f.hMax

/-- A component's own height (R237). -/
def JFrame.compH (f : JFrame) (c : JComp) : Nat := ceilDiv (f.height * c.v) f.vMax

/-- Is the marker a frame header, supported or not? -/
def isSof (m : Nat) : Bool := 0xC0 ≤ m && m ≤ 0xCF && m != 0xC4 && m != 0xC8 && m != 0xCC

/-- The process of a supported frame marker (R235). -/
def sofProcess (m : Nat) : Option Nat :=
  if m = 0xC0 then some 0 else if m = 0xC2 then some 1 else if m = 0xCA then some 2 else none

/-- Markers R235 accepts between SOI and EOI. -/
def markerOk (m : Nat) : Bool :=
  m == 0xC0 || m == 0xC2 || m == 0xCA || m == 0xC4 || m == 0xCC || m == 0xDB || m == 0xDD || m == 0xDA ||
    (0xE0 ≤ m && m ≤ 0xEF) || m == 0xFE

/-- The frame header in a segment's body. -/
def frameOf (process : Nat) (b : Bytes) : Option JFrame :=
  let n := beField b 5 1
  if b.length < 6 || b.length ≠ 6 + 3 * n then none
  else some { process := process, prec := beField b 0 1, height := beField b 1 2, width := beField b 3 2,
              comps := (chunks 3 (b.drop 6)).map fun c =>
                { id := beField c 0 1, h := beField c 1 1 / 16, v := beField c 1 1 % 16, tq := beField c 2 1 } }

/-- DQT: tables of 8-bit or 16-bit entries in zigzag order; an entry of 0 is invalid (R236). -/
def readDqt : Nat → Bytes → JTables → Except Nat JTables
  | 0, _, t => .ok t
  | f + 1, b, t =>
    if b.isEmpty then .ok t else
    let pq := beField b 0 1 / 16
    let tq := beField b 0 1 % 16
    let w := if pq = 0 then 1 else 2
    if pq > 1 || tq > 3 || b.length < 1 + 64 * w then .error 0x40
    else
      let es := (chunks w ((b.drop 1).take (64 * w))).map beNat
      if es.any (· == 0) then .error 0x40
      else readDqt f (b.drop (1 + 64 * w)) { t with qt := t.qt.set tq es }

/-- DHT: tables of code counts and values. -/
def readDht : Nat → Bytes → JTables → Except Nat JTables
  | 0, _, t => .ok t
  | f + 1, b, t =>
    if b.isEmpty then .ok t else
    let tc := beField b 0 1 / 16
    let th := beField b 0 1 % 16
    let counts := ((b.drop 1).take 16).map (·.toNat)
    let n := counts.foldl (· + ·) 0
    if tc > 1 || th > 3 || b.length < 17 + n then .error 0x40
    else
      let h : Huff := { counts := counts, vals := ((b.drop 17).take n).map (·.toNat) }
      readDht f (b.drop (17 + n)) (if tc = 0 then { t with dc := t.dc.set th h } else { t with ac := t.ac.set th h })

/-- DAC: arithmetic conditioning, L and U of a DC table, Kx of an AC table. -/
def readDac : Nat → Bytes → JTables → Except Nat JTables
  | 0, _, t => .ok t
  | f + 1, b, t =>
    if b.isEmpty then .ok t else
    let tc := beField b 0 1 / 16
    let tb := beField b 0 1 % 16
    let cs := beField b 1 1
    if tc > 1 || tb > 3 || b.length < 2 then .error 0x40
    else if tc = 0 then
      if cs % 16 > cs / 16 then .error 0x40
      else readDac f (b.drop 2) { t with condL := t.condL.set tb (cs % 16), condU := t.condU.set tb (cs / 16) }
    else if cs = 0 || cs > 63 then .error 0x40
    else readDac f (b.drop 2) { t with condK := t.condK.set tb cs }

/-! ### Entropy decoding -/

/-- State of the entropy decoder in a scan: reader position and bit, EOBRUN, DC predictors and contexts by component,
the arithmetic decoder's registers (ct may be negative), whether it met a marker, its statistics. -/
structure Ent where
  pos : Nat := 0
  bit : Nat := 0
  eobrun : Nat := 0
  preds : List Int := [0, 0, 0, 0]
  ctx : List Nat := [0, 0, 0, 0]
  c : Nat := 0
  a : Nat := 0
  ct : Int := -16
  hit : Bool := false
  dcStats : Array Nat := Array.replicate 256 0
  acStats : Array Nat := Array.replicate 1024 0
deriving DecidableEq, Repr

/-- Byte i of the extent. -/
def jByte (d : Array Nat) (i : Nat) : Nat := d.getD i 0

/-- One bit of Huffman-coded data; a stuffed zero after 0xFF is skipped. Beyond the extent, or at EOI, the stream has
ended (0x41); at another marker the data is invalid (0x40). -/
def readBit (d : Array Nat) (e : Ent) : Except Nat (Nat × Ent) :=
  let b := jByte d e.pos
  if e.pos ≥ d.size then .error 0x41
  else if b = 0xFF && e.pos + 1 ≥ d.size then .error 0x41
  else if b = 0xFF && jByte d (e.pos + 1) ≠ 0 then .error (if jByte d (e.pos + 1) = 0xD9 then 0x41 else 0x40)
  else
    let v := (b >>> (7 - e.bit)) % 2
    if e.bit = 7 then .ok (v, { e with pos := e.pos + (if b = 0xFF then 2 else 1), bit := 0 })
    else .ok (v, { e with bit := e.bit + 1 })

/-- n bits, most significant first. -/
def readBits (d : Array Nat) : Nat → Nat → Ent → Except Nat (Nat × Ent)
  | 0, acc, e => .ok (acc, e)
  | n + 1, acc, e => do
    let (b, e) ← readBit d e
    readBits d n (2 * acc + b) e

/-- Decode a Huffman code over the counts left; first and index are the first code and value index of this length. -/
def huffGo (d : Array Nat) (vals : List Nat) : List Nat → Nat → Nat → Nat → Ent → Except Nat (Nat × Ent)
  | [], _, _, _, _ => .error 0x40
  | n :: ns, code, first, index, e => do
    let (b, e) ← readBit d e
    let code := 2 * code + b
    if code < first + n && first ≤ code then .ok (vals.getD (index + code - first) 0, e)
    else huffGo d vals ns code ((first + n) * 2) (index + n) e

/-- Decode a symbol of a table; an undefined table is invalid (R236). -/
def huffSym (d : Array Nat) (h : Huff) (e : Ent) : Except Nat (Nat × Ent) :=
  if h.counts.isEmpty then .error 0x40 else huffGo d h.vals h.counts 0 0 0 e

/-- EXTEND of T.81: the signed value of s magnitude bits. -/
def extend (v s : Nat) : Int := if s = 0 then 0 else if v < 2 ^ (s - 1) then (v : Int) - (2 ^ s - 1 : Nat) else v

/-- A scan header: its components (index in the frame, DC and AC table), spectral band and approximation. -/
structure JScan where
  comps : List (Nat × Nat × Nat) := []
  ss : Nat := 0
  se : Nat := 63
  ah : Nat := 0
  al : Nat := 0
deriving DecidableEq, Repr

/-- Set coefficient k (zigzag order) of a block. -/
def setCoef (b : Array Int) (k : Nat) (v : Int) : Array Int := b.setIfInBounds k v

/-- The DC difference of a Huffman-coded block. -/
def huffDc (d : Array Nat) (t : JTables) (prec td ci : Nat) (e : Ent) : Except Nat (Int × Ent) := do
  let (s, e) ← huffSym d (t.dc.getD td {}) e
  if s > (if prec = 8 then 11 else 15) then .error 0x40
  else
    let (v, e) ← readBits d s 0 e
    let p := e.preds.getD ci 0 + extend v s
    .ok (p, { e with preds := e.preds.set ci p })

/-- AC coefficients of a sequential block from position k on. -/
def seqAc (d : Array Nat) (h : Huff) : Nat → Nat → Array Int → Ent → Except Nat (Array Int × Ent)
  | 0, _, b, e => .ok (b, e)
  | f + 1, k, b, e =>
    if k > 63 then .ok (b, e)
    else do
      let (rs, e) ← huffSym d h e
      let r := rs / 16
      let s := rs % 16
      if s = 0 then
        if r = 15 then (if k + 16 > 63 then .error 0x40 else seqAc d h f (k + 16) b e)
        else .ok (b, e)
      else if k + r > 63 || s > 10 then .error 0x40
      else
        let (v, e) ← readBits d s 0 e
        seqAc d h f (k + r + 1) (setCoef b (k + r) (extend v s)) e

/-- AC coefficients of a first progressive scan. -/
def progAcFirst (d : Array Nat) (h : Huff) (se al : Nat) : Nat → Nat → Array Int → Ent → Except Nat (Array Int × Ent)
  | 0, _, b, e => .ok (b, e)
  | f + 1, k, b, e =>
    if k > se then .ok (b, e)
    else do
      let (rs, e) ← huffSym d h e
      let r := rs / 16
      let s := rs % 16
      if s = 0 then
        if r = 15 then (if k + 16 > 63 then .error 0x40 else progAcFirst d h se al f (k + 16) b e)
        else
          let (v, e) ← readBits d r 0 e
          .ok (b, { e with eobrun := 2 ^ r + v - 1 })
      else if k + r > se then .error 0x40
      else
        let (v, e) ← readBits d s 0 e
        progAcFirst d h se al f (k + r + 1) (setCoef b (k + r) (extend v s * (2 ^ al : Nat))) e

/-- A correction bit for a coefficient already nonzero. -/
def refineCoef (d : Array Nat) (al k : Nat) (b : Array Int) (e : Ent) : Except Nat (Array Int × Ent) := do
  let (v, e) ← readBit d e
  let c := b.getD k 0
  if v = 1 && (c.natAbs / 2 ^ al) % 2 = 0 then .ok (setCoef b k (if c < 0 then c - (2 ^ al : Nat) else c + (2 ^ al : Nat)), e)
  else .ok (b, e)

/-- Correction bits for the rest of a band that has no new coefficient. -/
def refineRest (d : Array Nat) (se al : Nat) : Nat → Nat → Array Int → Ent → Except Nat (Array Int × Ent)
  | 0, _, b, e => .ok (b, e)
  | f + 1, k, b, e =>
    if k > se then .ok (b, e)
    else if b.getD k 0 = 0 then refineRest d se al f (k + 1) b e
    else do
      let (b, e) ← refineCoef d al k b e
      refineRest d se al f (k + 1) b e

/-- Pass r zero-history coefficients from k on, refining the others; answers the position reached. -/
def refineSkip (d : Array Nat) (se al : Nat) : Nat → Nat → Nat → Array Int → Ent → Except Nat (Nat × Array Int × Ent)
  | 0, k, _, b, e => .ok (k, b, e)
  | f + 1, k, r, b, e =>
    if k > se then .ok (k, b, e)
    else if b.getD k 0 = 0 then (if r = 0 then .ok (k, b, e) else refineSkip d se al f (k + 1) (r - 1) b e)
    else do
      let (b, e) ← refineCoef d al k b e
      refineSkip d se al f (k + 1) r b e

/-- AC coefficients of a refining progressive scan. -/
def progAcRefine (d : Array Nat) (h : Huff) (se al : Nat) : Nat → Nat → Array Int → Ent → Except Nat (Array Int × Ent)
  | 0, _, b, e => .ok (b, e)
  | f + 1, k, b, e =>
    if k > se then .ok (b, e)
    else do
      let (rs, e) ← huffSym d h e
      let r := rs / 16
      let s := rs % 16
      if s = 0 && r < 15 then
        let (v, e) ← readBits d r 0 e
        let (b, e) ← refineRest d se al 64 k b e
        .ok (b, { e with eobrun := 2 ^ r + v - 1 })
      else if s > 1 then .error 0x40
      else
        let (v, e) ← if s = 1 then readBit d e else .ok (0, e)
        let (k, b, e) ← refineSkip d se al 65 k r b e
        if k > se then (if s = 1 then .error 0x40 else .ok (b, e))
        else
          let b := if s = 1 then setCoef b k (if v = 1 then ((2 ^ al : Nat) : Int) else -((2 ^ al : Nat) : Int)) else b
          progAcRefine d h se al f (k + 1) b e

/-- One Huffman-coded block of a scan. -/
def huffBlock (d : Array Nat) (t : JTables) (fr : JFrame) (sc : JScan) (ci td ta : Nat) (b : Array Int) (e : Ent) :
    Except Nat (Array Int × Ent) :=
  if fr.process = 0 then do
    let (p, e) ← huffDc d t fr.prec td ci e
    seqAc d (t.ac.getD ta {}) 64 1 (setCoef b 0 p) e
  else if sc.ss = 0 then
    if sc.ah = 0 then do
      let (p, e) ← huffDc d t fr.prec td ci e
      .ok (setCoef b 0 (p * (2 ^ sc.al : Nat)), e)
    else do
      let (v, e) ← readBit d e
      let c := b.getD 0 0
      .ok (if v = 1 && (c / (2 ^ sc.al : Nat)) % 2 = 0 then setCoef b 0 (c + (2 ^ sc.al : Nat)) else b, e)
  else if e.eobrun > 0 then
    let e' := { e with eobrun := e.eobrun - 1 }
    if sc.ah = 0 then .ok (b, e') else refineRest d sc.se sc.al 64 sc.ss b e'
  else if sc.ah = 0 then progAcFirst d (t.ac.getD ta {}) sc.se sc.al 64 sc.ss b e
  else progAcRefine d (t.ac.getD ta {}) sc.se sc.al 64 sc.ss b e

/-! ### The arithmetic decoder of T.81 annex D -/

/-- Qe, next index after LPS, after MPS, and the MPS switch of each state. -/
def qeTable : List (Nat × Nat × Nat × Nat) :=
   [(0x5a1d,1,1,1), (0x2586,14,2,0), (0x1114,16,3,0), (0x080b,18,4,0), (0x03d8,20,5,0), (0x01da,23,6,0), (0x00e5,25,7,0), (0x006f,28,8,0), (0x0036,30,9,0), (0x001a,33,10,0), (0x000d,35,11,0), (0x0006,9,12,0), (0x0003,10,13,0), (0x0001,12,13,0), (0x5a7f,15,15,1), (0x3f25,36,16,0)] ++
   [(0x2cf2,38,17,0), (0x207c,39,18,0), (0x17b9,40,19,0), (0x1182,42,20,0), (0x0cef,43,21,0), (0x09a1,45,22,0), (0x072f,46,23,0), (0x055c,48,24,0), (0x0406,49,25,0), (0x0303,51,26,0), (0x0240,52,27,0), (0x01b1,54,28,0), (0x0144,56,29,0), (0x00f5,57,30,0), (0x00b7,59,31,0), (0x008a,60,32,0)] ++
   [(0x0068,62,33,0), (0x004e,63,34,0), (0x003b,32,35,0), (0x002c,33,9,0), (0x5ae1,37,37,1), (0x484c,64,38,0), (0x3a0d,65,39,0), (0x2ef1,67,40,0), (0x261f,68,41,0), (0x1f33,69,42,0), (0x19a8,70,43,0), (0x1518,72,44,0), (0x1177,73,45,0), (0x0e74,74,46,0), (0x0bfb,75,47,0), (0x09f8,77,48,0)] ++
   [(0x0861,78,49,0), (0x0706,79,50,0), (0x05cd,48,51,0), (0x04de,50,52,0), (0x040f,50,53,0), (0x0363,51,54,0), (0x02d4,52,55,0), (0x025c,53,56,0), (0x01f8,54,57,0), (0x01a4,55,58,0), (0x0160,56,59,0), (0x0125,57,60,0), (0x00f6,58,61,0), (0x00cb,59,62,0), (0x00ab,61,63,0), (0x008f,61,32,0)] ++
   [(0x5b12,65,65,1), (0x4d04,80,66,0), (0x412c,81,67,0), (0x37d8,82,68,0), (0x2fe8,83,69,0), (0x293c,84,70,0), (0x2379,86,71,0), (0x1edf,87,72,0), (0x1aa9,87,73,0), (0x174e,72,74,0), (0x1424,72,75,0), (0x119c,74,76,0), (0x0f6b,74,77,0), (0x0d51,75,78,0), (0x0bb6,77,79,0), (0x0a40,77,48,0)] ++
   [(0x5832,80,81,1), (0x4d1c,88,82,0), (0x438e,89,83,0), (0x3bdd,90,84,0), (0x34ee,91,85,0), (0x2eae,92,86,0), (0x299a,93,87,0), (0x2516,86,71,0), (0x5570,88,89,1), (0x4ca9,95,90,0), (0x44d9,96,91,0), (0x3e22,97,92,0), (0x3824,99,93,0), (0x32b4,99,94,0), (0x2e17,93,86,0), (0x56a8,95,96,1)] ++
   [(0x4f46,101,97,0), (0x47e5,102,98,0), (0x41cf,103,99,0), (0x3c3d,104,100,0), (0x375e,99,93,0), (0x5231,105,102,0), (0x4c0f,106,103,0), (0x4639,107,104,0), (0x415e,103,99,0), (0x5627,105,106,1), (0x50e7,108,107,0), (0x4b85,109,103,0), (0x5597,110,109,0), (0x504f,111,107,0), (0x5a10,110,111,1), (0x5522,112,109,0)] ++
   [(0x59eb,112,111,1)]

/-- The row of a state; 113 is the fixed probability of one half. -/
def qeRow (i : Nat) : Nat × Nat × Nat × Nat := qeTable.getD i (0x5a1d, 113, 113, 0)

/-- The next data byte: zero once a marker has been met, which the position stays at; beyond the extent the stream has
ended (0x41). fuel passes fill bytes. -/
def arithByte (d : Array Nat) (e : Ent) : Except Nat (Nat × Ent) :=
  if e.hit then .ok (0, e)
  else if e.pos ≥ d.size then .error 0x41
  else if jByte d e.pos ≠ 0xFF then .ok (jByte d e.pos, { e with pos := e.pos + 1 })
  else if e.pos + 1 ≥ d.size then .error 0x41
  else if jByte d (e.pos + 1) = 0 then .ok (0xFF, { e with pos := e.pos + 2 })
  else .ok (0, { e with hit := true })

/-- Renormalise: shift A up to 0x8000, taking bytes in; fuel bounds the shifts. -/
def arithRenorm (d : Array Nat) : Nat → Ent → Except Nat Ent
  | 0, e => .ok e
  | f + 1, e =>
    if e.a ≥ 0x8000 then .ok e
    else do
      let e ← if e.ct - 1 < 0 then do
          let (v, e) ← arithByte d e
          let ct := e.ct - 1 + 8
          let c := e.c * 256 + v
          if ct < 0 then
            let ct := ct + 1
            .ok { e with c := c, ct := ct, a := if ct = 0 then 0x8000 else e.a }
          else .ok { e with c := c, ct := ct }
        else .ok { e with ct := e.ct - 1 }
      arithRenorm d f { e with a := e.a * 2 }

/-- Decode one decision with state word st (index, MPS in bit 7); answers the decision and the new state word. -/
def arithDecide (d : Array Nat) (st : Nat) (e : Ent) : Except Nat (Nat × Nat × Ent) := do
  let e ← arithRenorm d 64 e
  let (qe, nl, nm, sw) := qeRow (st % 128)
  let mps := st / 128
  let a := e.a - qe
  let temp := a * 2 ^ e.ct.toNat
  let lps := (1 - mps, nl + 128 * (if sw = 1 then 1 - mps else mps))
  let more := (mps, nm + 128 * mps)
  if e.c ≥ temp then
    let r := if a < qe then more else lps
    .ok (r.1, r.2, { e with c := e.c - temp, a := qe })
  else if a < 0x8000 then
    let r := if a < qe then lps else more
    .ok (r.1, r.2, { e with a := a })
  else .ok (mps, st, { e with a := a })

/-- Decode with a DC statistics bin. -/
def arithDcBin (d : Array Nat) (i : Nat) (e : Ent) : Except Nat (Nat × Ent) := do
  let (v, st, e) ← arithDecide d (e.dcStats.getD i 0) e
  .ok (v, { e with dcStats := e.dcStats.setIfInBounds i st })

/-- Decode with an AC statistics bin. -/
def arithAcBin (d : Array Nat) (i : Nat) (e : Ent) : Except Nat (Nat × Ent) := do
  let (v, st, e) ← arithDecide d (e.acStats.getD i 0) e
  .ok (v, { e with acStats := e.acStats.setIfInBounds i st })

/-- Decode with the fixed probability of one half. -/
def arithFixed (d : Array Nat) (e : Ent) : Except Nat (Nat × Ent) := do
  let (v, _, e) ← arithDecide d 113 e
  .ok (v, e)

/-- The magnitude category: m doubles while bins from i up decide 1; past 0x4000 the data is invalid. -/
def arithMag (d : Array Nat) (bin : Array Nat → Nat → Ent → Except Nat (Nat × Ent)) :
    Nat → Nat → Nat → Ent → Except Nat (Nat × Nat × Ent)
  | 0, _, _, _ => .error 0x40
  | f + 1, m, i, e => do
    let (v, e) ← bin d i e
    if v = 0 then .ok (m, i, e)
    else if 2 * m = 0x8000 then .error 0x40
    else arithMag d bin f (2 * m) (i + 1) e

/-- The magnitude bits below the category. -/
def arithPattern (d : Array Nat) (bin : Array Nat → Nat → Ent → Except Nat (Nat × Ent)) (i : Nat) :
    Nat → Nat → Nat → Ent → Except Nat (Nat × Ent)
  | 0, _, v, e => .ok (v, e)
  | f + 1, m, v, e =>
    if m / 2 = 0 then .ok (v, e)
    else do
      let (b, e) ← bin d i e
      arithPattern d bin i f (m / 2) (if b = 1 then v + m / 2 else v) e

/-- The DC difference of an arithmetic-coded block. -/
def arithDc (d : Array Nat) (t : JTables) (td ci : Nat) (e : Ent) : Except Nat Ent := do
  let base := 64 * td
  let st := base + e.ctx.getD ci 0
  let (z, e) ← arithDcBin d st e
  if z = 0 then .ok { e with ctx := e.ctx.set ci 0 }
  else
    let (sign, e) ← arithDcBin d (st + 1) e
    let (m0, e) ← arithDcBin d (st + 2 + sign) e
    let (m, i, e) ← if m0 = 0 then .ok (0, st + 2 + sign, e) else arithMag d arithDcBin 16 1 (base + 20) e
    let ctx := if m < 2 ^ (t.condL.getD td 0) / 2 then 0
      else if m > 2 ^ (t.condU.getD td 1) / 2 then 12 + 4 * sign else 4 + 4 * sign
    let (v, e) ← arithPattern d arithDcBin (i + 14) 16 m m e
    let diff : Int := if sign = 1 then -((v + 1 : Nat) : Int) else (v + 1 : Nat)
    .ok { e with ctx := e.ctx.set ci ctx, preds := e.preds.set ci (e.preds.getD ci 0 + diff) }

/-- The run of zero coefficients: answers the bin and position of the next nonzero one. -/
def arithRun (d : Array Nat) (se : Nat) : Nat → Nat → Nat → Ent → Except Nat (Nat × Nat × Ent)
  | 0, _, _, _ => .error 0x40
  | f + 1, st, k, e => do
    let k := k + 1
    let (v, e) ← arithAcBin d (st + 1) e
    if v = 1 then .ok (st, k, e)
    else if k ≥ se then .error 0x40
    else arithRun d se f (st + 3) k e

/-- AC coefficients of a first arithmetic scan; k is the last position done. -/
def arithAcFirst (d : Array Nat) (kx ta se al : Nat) : Nat → Nat → Array Int → Ent → Except Nat (Array Int × Ent)
  | 0, _, b, e => .ok (b, e)
  | f + 1, k, b, e =>
    if k ≥ se then .ok (b, e)
    else do
      let (eob, e) ← arithAcBin d (256 * ta + 3 * k) e
      if eob = 1 then .ok (b, e)
      else
        let (st, k, e) ← arithRun d se 64 (256 * ta + 3 * k) k e
        let (sign, e) ← arithFixed d e
        let (m0, e) ← arithAcBin d (st + 2) e
        let (m, i, e) ← if m0 = 0 then .ok (0, st + 2, e) else do
          let (m1, e) ← arithAcBin d (st + 2) e
          if m1 = 0 then .ok (1, st + 2, e)
          else arithMag d arithAcBin 16 2 (256 * ta + (if k ≤ kx then 189 else 217)) e
        let (v, e) ← arithPattern d arithAcBin (i + 14) 16 m m e
        let c : Int := ((v + 1) * 2 ^ al : Nat)
        arithAcFirst d kx ta se al f k (setCoef b k (if sign = 1 then -c else c)) e

/-- One coefficient of a refining arithmetic scan and the zero run before it. -/
def arithRefineOne (d : Array Nat) (se al : Nat) : Nat → Nat → Nat → Array Int → Ent → Except Nat (Nat × Array Int × Ent)
  | 0, _, _, _, _ => .error 0x40
  | f + 1, st, k, b, e => do
    let k := k + 1
    let p : Int := (2 ^ al : Nat)
    let c := b.getD k 0
    if c ≠ 0 then
      let (v, e) ← arithAcBin d (st + 2) e
      .ok (k, if v = 1 then setCoef b k (if c < 0 then c - p else c + p) else b, e)
    else
      let (v, e) ← arithAcBin d (st + 1) e
      if v = 1 then
        let (sign, e) ← arithFixed d e
        .ok (k, setCoef b k (if sign = 1 then -p else p), e)
      else if k ≥ se then .error 0x40
      else arithRefineOne d se al f (st + 3) k b e

/-- AC coefficients of a refining arithmetic scan; kex is the previous stage's end of block. -/
def arithAcRefine (d : Array Nat) (ta se al kex : Nat) : Nat → Nat → Array Int → Ent → Except Nat (Array Int × Ent)
  | 0, _, b, e => .ok (b, e)
  | f + 1, k, b, e =>
    if k ≥ se then .ok (b, e)
    else do
      let (eob, e) ← if k ≥ kex then arithAcBin d (256 * ta + 3 * k) e else .ok (0, e)
      if eob = 1 then .ok (b, e)
      else
        let (k, b, e) ← arithRefineOne d se al 64 (256 * ta + 3 * k) k b e
        arithAcRefine d ta se al kex f k b e

/-- The last nonzero position of a block at or below se; 0 for none. -/
def lastNonzero (b : Array Int) (se : Nat) : Nat :=
  (List.range (se + 1)).foldl (fun m k => if b.getD k 0 ≠ 0 then k else m) 0

/-- One arithmetic-coded block of a scan. -/
def arithBlock (d : Array Nat) (t : JTables) (sc : JScan) (ci td ta : Nat) (b : Array Int) (e : Ent) :
    Except Nat (Array Int × Ent) :=
  if sc.ss = 0 then
    if sc.ah = 0 then do
      let e ← arithDc d t td ci e
      .ok (setCoef b 0 (e.preds.getD ci 0 * (2 ^ sc.al : Nat)), e)
    else do
      let (v, e) ← arithFixed d e
      let c := b.getD 0 0
      .ok (if v = 1 && (c / (2 ^ sc.al : Nat)) % 2 = 0 then setCoef b 0 (c + (2 ^ sc.al : Nat)) else b, e)
  else if sc.ah = 0 then arithAcFirst d (t.condK.getD ta 5) ta sc.se sc.al 64 (sc.ss - 1) b e
  else arithAcRefine d ta sc.se sc.al (lastNonzero b sc.se) 64 (sc.ss - 1) b e

/-! ### Scans -/

/-- The coefficients of a component: blocks per row, and 64 values per block in zigzag order. -/
structure CPlane where
  bw : Nat := 0
  data : Array Int := #[]
deriving DecidableEq, Repr

/-- Where a scan stood at the start of an MCU row (R234), and whether a restart marker (or the scan's start) is
there. -/
structure Resume where
  pos : Nat := 0
  bit : Nat := 0
  eobrun : Nat := 0
  preds : List Int := []
  fresh : Bool := false
deriving DecidableEq, Repr

/-- Decode one block of component ci at block index i into the planes. -/
def scanBlock (d : Array Nat) (t : JTables) (fr : JFrame) (sc : JScan) (x : Nat × Nat × Nat) (i : Nat)
    (ps : List CPlane) (e : Ent) : Except Nat (List CPlane × Ent) := do
  let p := ps.getD x.1 {}
  let b : Array Int := (p.data.extract (64 * i) (64 * i + 64))
  let (b, e) ← if fr.process = 2 then arithBlock d t sc x.1 x.2.1 x.2.2 b e else huffBlock d t fr sc x.1 x.2.1 x.2.2 b e
  let data := (List.range 64).foldl (fun a k => a.setIfInBounds (64 * i + k) (b.getD k 0)) p.data
  .ok (ps.set x.1 { p with data := data }, e)

/-- The blocks of MCU m of a scan, as (component of the scan, block index). -/
def mcuBlocks (fr : JFrame) (sc : JScan) (m : Nat) : List ((Nat × Nat × Nat) × Nat) :=
  match sc.comps with
  | [x] =>
    let c := fr.comps.getD x.1 {}
    let w := ceilDiv (fr.compW c) 8
    [(x, (m / max 1 w) * (fr.hMcus * c.h) + m % max 1 w)]
  | xs => xs.flatMap fun x =>
    let c := fr.comps.getD x.1 {}
    (List.range (c.h * c.v)).map fun j =>
      (x, ((m / max 1 fr.hMcus) * c.v + j / max 1 c.h) * (fr.hMcus * c.h) + (m % max 1 fr.hMcus) * c.h + j % max 1 c.h)

/-- MCUs of a scan, and MCUs of it per MCU row of the frame. -/
def scanSize (fr : JFrame) (sc : JScan) : Nat × Nat :=
  match sc.comps with
  | [x] =>
    let c := fr.comps.getD x.1 {}
    let w := ceilDiv (fr.compW c) 8
    (w * ceilDiv (fr.compH c) 8, w * c.v)
  | _ => (fr.hMcus * fr.vMcus, fr.hMcus)

/-- Skip fill bytes before a marker. -/
def skipFill (d : Array Nat) : Nat → Nat → Nat
  | 0, p => p
  | f + 1, p => if jByte d p = 0xFF && jByte d (p + 1) = 0xFF then skipFill d f (p + 1) else p

/-- The end of entropy-coded data: where the next marker stands. Data left over is invalid in Huffman coding. -/
def entropyEnd (d : Array Nat) (arith : Bool) : Nat → Ent → Except Nat Nat
  | 0, _ => .error 0x41
  | f + 1, e =>
    let p := skipFill d d.size (if e.bit = 0 then e.pos else e.pos + (if jByte d e.pos = 0xFF then 2 else 1))
    if p + 1 ≥ d.size then .error 0x41
    else if jByte d p = 0xFF && jByte d (p + 1) ≠ 0 then .ok p
    else if arith then entropyEnd d arith f { e with pos := p + 1, bit := 0 }
    else .error 0x40

/-- A restart: the marker RSTn must be the expected one (R235); predictors, contexts and statistics start anew. -/
def restart (d : Array Nat) (arith : Bool) (n : Nat) (e : Ent) : Except Nat Ent := do
  let p ← entropyEnd d arith (d.size + 1) e
  if jByte d (p + 1) = 0xD0 + n % 8 then .ok { pos := p + 2 } else .error 0x40

/-- Decode the MCUs of a scan from m on; resume points at the starts of MCU rows are collected, newest first. -/
def scanMcus (d : Array Nat) (t : JTables) (fr : JFrame) (sc : JScan) (total perRow : Nat) :
    Nat → Nat → List CPlane → List Resume → Ent → Except Nat (List CPlane × List Resume × Ent)
  | 0, _, ps, rs, e => .ok (ps, rs, e)
  | f + 1, m, ps, rs, e =>
    if m ≥ total then .ok (ps, rs, e)
    else do
      let again := t.ri ≠ 0 && m ≠ 0 && m % t.ri = 0
      let e ← if again then restart d (fr.process = 2) (m / t.ri - 1) e else .ok e
      let rs := if m % max 1 perRow = 0 then
        { pos := e.pos, bit := e.bit, eobrun := e.eobrun, preds := e.preds, fresh := again || m = 0 } :: rs else rs
      let (ps, e) ← (mcuBlocks fr sc m).foldlM (fun (x : List CPlane × Ent) b => scanBlock d t fr sc b.1 b.2 x.1 x.2) (ps, e)
      scanMcus d t fr sc total perRow f (m + 1) ps rs e

/-- What has been decoded: tables, frame, coefficients, the quantisation table of each component as latched at its
first scan, and the resume points of every scan. -/
structure JDec where
  t : JTables := {}
  frame : Option JFrame := none
  planes : List CPlane := []
  qts : List (List Nat) := []
  scans : List (List Resume) := []
  err : Nat := 0
  restarts : Bool := false
deriving DecidableEq, Repr

/-- Are a scan's parameters those of the frame's process (R235)? -/
def scanOk (fr : JFrame) (sc : JScan) : Bool :=
  !sc.comps.isEmpty &&
  (if fr.process = 0 then sc.ss == 0 && sc.se == 63 && sc.ah == 0 && sc.al == 0
   else sc.al ≤ 13 && (sc.ah == 0 || sc.ah == sc.al + 1) &&
     (if sc.ss = 0 then sc.se == 0 else sc.ss ≤ sc.se && sc.se ≤ 63 && sc.comps.length == 1))

/-- Decode the scan whose SOS body is b, the entropy-coded data starting at pos. Answers where it ends. -/
def decodeScan (d : Array Nat) (b : Bytes) (pos : Nat) (x : JDec) : Except Nat (JDec × Nat) :=
  match x.frame with
  | none => .error 0x40
  | some fr =>
    let n := beField b 0 1
    let comps := (chunks 2 ((b.drop 1).take (2 * n))).map fun c =>
      ((fr.comps.findIdx? fun k => k.id == beField c 0 1), beField c 1 1 / 16, beField c 1 1 % 16)
    if b.length ≠ 4 + 2 * n || n = 0 || n > 4 || comps.any (fun c => c.1.isNone || c.2.1 > 3 || c.2.2 > 3) then .error 0x40
    else
      let sc : JScan := { comps := comps.map fun c => (c.1.getD 0, c.2.1, c.2.2), ss := beField b (1 + 2 * n) 1,
                          se := beField b (2 + 2 * n) 1, ah := beField b (3 + 2 * n) 1 / 16, al := beField b (3 + 2 * n) 1 % 16 }
      if !scanOk fr sc then .error 0x02
      else
        let qts := sc.comps.foldl (fun q c => if (q.getD c.1 []).isEmpty then q.set c.1 (x.t.qt.getD (fr.comps.getD c.1 {}).tq []) else q) x.qts
        if sc.comps.any fun c => (qts.getD c.1 []).isEmpty then .error 0x40
        else do
          let (total, perRow) := scanSize fr sc
          let (ps, rs, e) ← scanMcus d x.t fr sc total perRow total 0 x.planes [] { pos := pos }
          let p ← entropyEnd d (fr.process = 2) (d.size + 1) e
          .ok ({ x with planes := ps, qts := qts, scans := x.scans ++ [rs.reverse], restarts := x.restarts || x.t.ri ≠ 0 }, p)

/-- Empty planes of a frame: whole MCUs. -/
def emptyPlanes (fr : JFrame) : List CPlane :=
  fr.comps.map fun c => { bw := fr.hMcus * c.h, data := Array.replicate (64 * (fr.hMcus * c.h) * (fr.vMcus * c.v)) 0 }

/-- The markers from position p on, to EOI. maxScans bounds the scans (reason 0x18). A fault ends the pass with its
reason in err; what was decoded before stands. -/
def decodeMarkers (d : Array Nat) (maxScans : Nat) : Nat → Nat → JDec → JDec
  | 0, _, x => { x with err := 0x41 }
  | f + 1, p0, x =>
    let p := skipFill d d.size p0
    let m := jByte d (p + 1)
    if p + 1 ≥ d.size then { x with err := 0x41 }
    else if jByte d p ≠ 0xFF then { x with err := 0x40 }
    else if m = 0xD9 then (if x.qts.any (·.isEmpty) || x.qts.isEmpty then { x with err := 0x41 } else x)
    else if !markerOk m then { x with err := 0x02 }
    else
      let len := jByte d (p + 2) * 256 + jByte d (p + 3)
      if p + 2 + len > d.size || len < 2 then { x with err := 0x41 }
      else
        let b : Bytes := ((d.extract (p + 4) (p + 2 + len)).toList).map fun n => BitVec.ofNat 8 n
        let go (t : Except Nat JTables) : JDec :=
          match t with
          | .ok t => decodeMarkers d maxScans f (p + 2 + len) { x with t := t }
          | .error r => { x with err := r }
        if m = 0xDB then go (readDqt b.length b x.t)
        else if m = 0xC4 then go (readDht b.length b x.t)
        else if m = 0xCC then go (readDac b.length b x.t)
        else if m = 0xDD then
          if b.length = 2 then go (.ok { x.t with ri := beField b 0 2 }) else { x with err := 0x40 }
        else if m = 0xDA then
          if x.scans.length ≥ maxScans then { x with err := 0x18 }
          else match decodeScan d b (p + 2 + len) x with
            | .ok (x, p) => decodeMarkers d maxScans f p x
            | .error r => { x with err := r }
        else if isSof m then
          match x.frame, sofProcess m with
          | none, some pr => match frameOf pr b with
            | some fr => decodeMarkers d maxScans f (p + 2 + len)
                { x with frame := some fr, planes := emptyPlanes fr, qts := fr.comps.map fun _ => [] }
            | none => { x with err := 0x40 }
          | _, _ => { x with err := 0x02 }
        else decodeMarkers d maxScans f (p + 2 + len) x

/-- Decode a whole extent. -/
def jpegDecode (ext : Bytes) (maxScans : Nat) : JDec :=
  let d := (ext.map (·.toNat)).toArray
  if jByte d 0 = 0xFF && jByte d 1 = 0xD8 then decodeMarkers d maxScans d.size 2 {} else { err := 0x40 }

/-- The samples of a block of component ci: dequantised (R238) and transformed (R239). -/
def blockSamples (x : JDec) (fr : JFrame) (ci i : Nat) : List Nat :=
  let p := x.planes.getD ci {}
  let q := x.qts.getD ci []
  let nat := zigzag.zip ((List.range 64).map fun k => p.data.getD (64 * i + k) 0 * ((q.getD k 0 : Nat) : Int))
  idct8 ((List.range 64).map fun n => ((nat.find? fun z => z.1 == n).map Prod.snd).getD 0) fr.prec

/-! ### Reading the header (R152, R154, R235) -/

/-- The markers of a header: (marker, offset of its first byte, body), until the first SOS, a byte that is no marker, or
the end of what may be read. -/
def headerMarkers (d : Array Nat) (limit : Nat) : Nat → Nat → List (Nat × Nat × Bytes)
  | 0, _ => []
  | f + 1, p0 =>
    let p := skipFill d limit p0
    let m := jByte d (p + 1)
    let len := jByte d (p + 2) * 256 + jByte d (p + 3)
    if p + 4 > limit || jByte d p ≠ 0xFF || m = 0xD9 || m = 0xDA then []
    else if (0xD0 ≤ m && m ≤ 0xD8) || m = 0x01 then (m, p, []) :: headerMarkers d limit f (p + 2)
    else if p + 2 + len > limit || len < 2 then []
    else (m, p, ((d.extract (p + 4) (p + 2 + len)).toList).map fun n => BitVec.ofNat 8 n) ::
      headerMarkers d limit f (p + 2 + len)

end Machine
end Sys2Proof
end

