-- ==== Sys2Proof/Machine/Image.lean ====
section
/-!
DEFINITION. Sys2Proof/Machine/Image.lean: the program image and the job record as bytes: their tables, the Reel
instruction encoding (R184 to R207), the load limits of R219 that need no primitive or codec table, the job checks of
R141 that need the image alone, and the job identity (R142).
-/
namespace Sys2Proof
namespace Machine

/-! ### Instruction words (R184 to R207) -/

/-- The fields of an instruction word. -/
structure InsWord where
  op : Nat := 0
  nd : Bool := false
  sd : Nat := 0
  sa : Nat := 0
  sb : Nat := 0
  func : Nat := 0
  imm : Nat := 0
deriving DecidableEq, Repr

/-- Split a 64-bit word into its fields (R184). -/
def insOf (w : Nat) : InsWord :=
  { op := bits w 63 56, nd := bit w 55, sd := bits w 54 50, sa := bits w 49 45, sb := bits w 44 40, func := bits w 39 32,
    imm := bits w 31 0 }

/-- Is a field of the word that its opcode does not use 0, and its FUNC value listed (R185 to R208)? -/
def insFieldsOk (i : InsWord) : Bool :=
  let z (n : Nat) := n == 0
  let o := i.op
  if o = 0x00 then z i.sd && z i.sa && z i.sb && z i.func && z i.imm
  else if 0x01 ≤ o && o ≤ 0x10 then z i.func
  else if o = 0x11 then z i.sb && z i.func
  else if o = 0x12 then z i.sa && z i.sb && z i.imm && i.func ≤ 3
  else if o = 0x20 then z i.sb && i.func < 8
  else if o = 0x21 then z i.sd && i.func < 4
  else if 0x30 ≤ o && o ≤ 0x35 then z i.sd && z i.func
  else if o = 0x36 then z i.sa && z i.sb && z i.func
  else if o = 0x37 then z i.sb && z i.func
  else if o = 0x38 then z i.sd && z i.sa && z i.sb && z i.func && z i.imm
  else if o = 0x40 then z i.sd && i.func ≤ 1
  else if o = 0x41 then z i.sd && z i.func
  else if o = 0x42 || o = 0x43 then z i.sd && z i.sb && z i.func
  else if o = 0x44 then z i.sb && i.func ≤ 1 && (i.func == 1 || z i.sd)
  else if o = 0x45 then z i.sd && z i.sb && z i.func
  else if o = 0x46 then z i.sb && z i.func
  else if o = 0x47 then z i.sd && z i.func
  else if o = 0x48 then z i.sb && z i.func
  else if o = 0x50 then z i.imm && i.func ≤ 3
  else if o = 0x60 then z i.sd && z i.func
  else if o = 0x61 then z i.sd && i.func ≤ 3
  else if o = 0x62 then z i.sd && z i.func
  else if o = 0x63 then z i.sd && z i.func && z i.imm
  else if o = 0x64 then z i.sd && z i.sb
  else if o = 0x65 then z i.sd && z i.sb && z i.func && z i.imm
  else if o = 0x70 then
    if i.func % 4 = 3 then z i.sa && i.func < 8 && (i.func.testBit 2 || (z i.sb && z i.imm))
    else i.func < 4 && z i.sd && z i.sa && z i.sb && z i.imm
  else if o = 0x78 then z i.sd && z i.sb && z i.func && z i.imm
  else if o = 0x79 then z i.func && z i.imm
  else if o = 0x7A then z i.sd && z i.sa && z i.sb && z i.func && z i.imm
  else false

/-- Must the word carry the ND mark (R207)? -/
def insNd (i : InsWord) : Bool := i.op == 0x78 || i.op == 0x79 || (i.op == 0x61 && i.func.testBit 0)

/-- Is it a branch or JAL (R187)? -/
def isBranch (i : InsWord) : Bool := (0x30 ≤ i.op && i.op ≤ 0x35) || i.op == 0x36

/-- The index a branch or JAL at index k goes to, as an integer. -/
def branchIndex (k : Nat) (i : InsWord) : Int := (k : Int) + signed 32 i.imm

/-- The successors of instruction k within a list of n, returns being the return points of the list (R194). -/
def successors (code : List InsWord) (returns : List Nat) (k : Nat) : List Nat :=
  match code[k]? with
  | none => []
  | some i =>
    if i.op = 0x38 then []
    else if i.op = 0x37 then (k + 1) :: returns
    else if i.op = 0x36 then [k + 1, (branchIndex k i).toNat]
    else if isBranch i then [k + 1, (branchIndex k i).toNat]
    else [k + 1]

/-- The return points of a list (R194). -/
def returnPoints (code : List InsWord) : List Nat :=
  (List.range code.length).filterMap fun k => match code[k]? with
    | some i => if i.op = 0x36 || i.op = 0x37 then some (k + 1) else none
    | none => none

/-- What can be reached from the instructions todo, seen already left out; fuel bounds the walk by list length. -/
def reachFuel (code : List InsWord) (returns : List Nat) : Nat → List Nat → List Nat → List Nat
  | 0, _, seen => seen
  | _ + 1, [], seen => seen
  | f + 1, k :: todo, seen =>
    if seen.contains k || k ≥ code.length then reachFuel code returns f todo seen
    else reachFuel code returns f (successors code returns k ++ todo) (k :: seen)

/-- The instructions a thread started at index k can reach (R194). -/
def reachable (code : List InsWord) (k : Nat) : List Nat :=
  let r := returnPoints code
  reachFuel code r ((code.length + 1) * (r.length + 3)) [k] []

/-! ### The image (R216, R217) -/

/-- A parsed section directory (R216). -/
def sectionsOf (b : Bytes) : List Section :=
  (chunks 16 ((b.drop 128).take (16 * leField b 112 4))).map fun e =>
    { type := leField e 0 2, tile := leField e 2 1, length := leField e 4 4, offset := leField e 8 8 }

/-- A section's bytes. -/
def secBytes (b : Bytes) (x : Section) : Bytes := (b.drop x.offset).take x.length

/-- The sections of a type for a tile (0xFF for the package). -/
def secsOf (b : Bytes) (type tile : Nat) : List Section := (sectionsOf b).filter fun x => x.type == type && x.tile == tile

/-- The bytes of the one section of a type, empty where there is none. -/
def oneSec (b : Bytes) (type tile : Nat) : Bytes :=
  match secsOf b type tile with
  | x :: _ => secBytes b x
  | [] => []

/-- A window descriptor (R127). -/
def windowOfWord (w : Nat) : Window :=
  { openOff := bits w 63 58, closeOff := bits w 57 52, openPu := bits w 51 36, closePu := bits w 35 20, kind := bits w 19 18,
    channel := bits w 17 6, valid := bit w 0, rsv := bits w 5 1 }

/-- The instruction list of a tile as words. -/
def codeWords (b : Bytes) (t : Nat) : List Nat := (chunks 8 (oneSec b 0x01 t)).map leNat

/-- The instruction list of a tile as fields. -/
def codeOf (b : Bytes) (t : Nat) : List InsWord := (codeWords b t).map insOf

/-- The thread-table entries of a tile (R217). -/
def threadTable (b : Bytes) (t : Nat) : List Bytes := chunks 16 (oneSec b 0x02 t)

/-- The sync table of a tile (R217). -/
def syncTable (b : Bytes) (t : Nat) : List SyncObj := (chunks 16 (oneSec b 0x04 t)).map fun e => SyncObj.ofWord (leNat e)

/-- A declared-field descriptor (R153). -/
def fieldOf (e : Bytes) : FieldDesc :=
  { offset := leField e 0 2, size := leField e 2 1, inProduct := leField e 3 1, min := leField e 4 4, max := leField e 8 8 }

/-- A limit record with the bytes of its declared fields behind it (R153). -/
def streamOf (e fs : Bytes) : StreamRec :=
  { kind := leField e 0 1, hdrLimit := leField e 2 2, maxCoded := leField e 4 4, maxDecoded := leField e 8 8,
    minWidth := leField e 16 2, maxWidth := leField e 18 2, minHeight := leField e 20 2, maxHeight := leField e 22 2,
    maxComponents := leField e 24 1, precision := leField e 25 1, process := leField e 26 1, sampling := leField e 27 1,
    maxRestart := leField e 28 2, maxScans := leField e 30 1, elemStored := leField e 32 2, elemDecoded := leField e 34 2,
    payloadOff := leField e 36 4, fields := (chunks 16 fs).map fieldOf }

/-- The n stream records of the streams section, each with its raw 64 bytes (R153, R217). -/
def streamsOf : Nat → Bytes → List (Bytes × StreamRec)
  | 0, _ => []
  | n + 1, b =>
    if b.length < 64 then [] else
    let e := b.take 64
    let k := leField e 1 1 * 16
    (e, streamOf e ((b.drop 64).take k)) :: streamsOf n (b.drop (64 + k))

/-- Where in its bytes a limit record with its declared fields breaks R153 or the bound of R402 on MAX_CODED. -/
def streamFault (e : Bytes) (x : StreamRec) : Option Nat :=
  let n := leField e 1 1
  let zero (k len : Nat) : Bool := ((e.drop k).take len).all (· == 0#8)
  let fields := (List.range n).flatMap fun k =>
    let f := x.fields.getD k {}
    let at_ := 64 + 16 * k
    [(decide (k < x.fields.length), at_), (f.size == 1 || f.size == 2 || f.size == 4 || f.size == 8, at_ + 2),
      (decide (f.inProduct ≤ 1), at_ + 3), (decide (f.offset + f.size ≤ x.hdrLimit * 16), at_)]
  firstFail ([(decide (x.kind ≤ 1), 0), (if x.kind = 0 then n == 0 else 1 ≤ n && n ≤ 8, 1), (1 ≤ x.hdrLimit && x.hdrLimit ≤ 4096, 2),
    (decide (x.maxCoded ≤ 64 * 2 ^ 20), 4)] ++
    (if x.kind = 0 then
       [(decide (1 ≤ x.minWidth), 16), (decide (1 ≤ x.minHeight), 20), (1 ≤ x.maxComponents && x.maxComponents ≤ 4, 24),
         (decide (x.precision < 4), 25), (decide (x.process < 8), 26), (decide (x.sampling < 16), 27), (decide (1 ≤ x.maxScans), 30),
         (zero 31 1, 31), (zero 32 8, 32), (zero 40 24, 40)]
     else [(zero 16 15, 16), (zero 31 1, 31), (zero 40 24, 40)] ++ fields))

/-- The tiles of a mask, ascending. -/
def maskTiles (mask : Nat) : List Nat := (List.range 64).filter fun t => mask.testBit t

/-- The package-wide tables of an image. layouts splits the layouts section into its n layouts. -/
def imageOf (hash b : Bytes) (layouts : Nat → Bytes → List Bytes) : Image :=
  { hash := hash, fwIface := leField b 12 4, schemaHash := slice b 48 32, minPeriod := leField b 80 8,
    proofPeriod := leField b 88 8, lead := leField b 96 1,
    streams := (streamsOf (leField b 97 1) (oneSec b 0x06 0xFF)).map Prod.snd,
    layouts := layouts (leField b 98 2) (oneSec b 0x07 0xFF),
    windows := (chunks 8 (oneSec b 0x05 0xFF)).map fun w => windowOfWord (leNat w),
    channels := leField b 102 2, tileMask := leField b 104 8, dedupEntries := leField b 116 4,
    cachePoints := oneSec b 0x08 0xFF, datasetLink := oneSec b 0x0A 0xFF, proof := oneSec b 0x0B 0xFF }

/-! ### Load limits (R219) -/

/-- A failed load limit: its code, tile (0xFF for the package) and byte offset in the image. -/
structure LoadFail where
  limit : Nat := 0
  tile : Nat := 0xFF
  offset : Nat := 0
deriving DecidableEq, Repr

/-- Is a type per tile (R217)? -/
def perTile (type : Nat) : Bool := [0x01, 0x02, 0x03, 0x04, 0x09].contains type

/-- Limit 0x01. -/
def limit01 (b : Bytes) : Option LoadFail :=
  let n := leField b 112 4
  let secs := sectionsOf b
  match firstFail [
    (b.length ≥ 128, ⟨1, 0xFF, b.length⟩), (leField b 0 4 == 0x3150474E, ⟨1, 0xFF, 0⟩), (leField b 4 4 == 1, ⟨1, 0xFF, 4⟩),
    (1 ≤ leField b 97 1 && leField b 97 1 ≤ 64, ⟨1, 0xFF, 97⟩), (1 ≤ leField b 98 2 && leField b 98 2 ≤ 1024, ⟨1, 0xFF, 98⟩),
    (leField b 100 2 ≤ 4096, ⟨1, 0xFF, 100⟩), (1 ≤ leField b 102 2 && leField b 102 2 ≤ 4096, ⟨1, 0xFF, 102⟩),
    (128 + 16 * n ≤ b.length, ⟨1, 0xFF, 112⟩), (leField b 116 4 ≤ 1048576, ⟨1, 0xFF, 116⟩),
    (leField b 120 8 == 0, ⟨1, 0xFF, 120⟩)] with
  | some f => some f
  | none =>
    match firstOver (List.range secs.length) (fun i => match secs[i]? with
      | some x =>
        let at_ := 128 + 16 * i
        firstFail [
          (1 ≤ x.type && x.type ≤ 0x0B, ⟨1, 0xFF, at_⟩),
          (if perTile x.type then x.tile < 64 else x.tile == 0xFF, ⟨1, 0xFF, at_ + 2⟩),
          (leField b (at_ + 3) 1 == 0, ⟨1, 0xFF, at_ + 3⟩),
          (x.offset + x.length ≤ b.length, ⟨1, if perTile x.type then x.tile else 0xFF, at_ + 8⟩),
          (perTile x.type || !((secs.take i).any fun y => y.type == x.type), ⟨1, 0xFF, at_⟩)]
      | none => none) with
    | some f => some f
    | none =>
      let times (t : Nat) := (secs.filter fun x => x.type == t).length
      firstFail [
        (times 0x06 == 1 && times 0x07 == 1 && times 0x08 == 1 && times 0x0A == 1 && times 0x0B == 1, ⟨1, 0xFF, 112⟩),
        (if leField b 100 2 = 0 then times 0x05 ≤ 1 else times 0x05 == 1, ⟨1, 0xFF, 112⟩)]

/-- The offsets in the image of the directory entries of a type for a tile. -/
def entriesOf (b : Bytes) (type tile : Nat) : List Nat :=
  ((List.range (sectionsOf b).length).filter fun i => (sectionsOf b)[i]?.any fun x => x.type == type && x.tile == tile).map fun i =>
    128 + 16 * i

/-- Limit 0x03. A section that is missing fails at TILE_MASK, one too many at its directory entry. -/
def limit03 (s : M8) (b : Bytes) : Option LoadFail :=
  let mask := leField b 104 8
  match firstOver (maskTiles mask) (fun t =>
    firstFail ([((getTile s t).st != .quarantined, ⟨3, t, 104⟩)] ++
      ([1, 2, 4, 9].map fun ty => let es := entriesOf b ty t
        (es.length == 1, ⟨3, t, (es.drop 1).headD 104⟩)) ++
      [(decide ((entriesOf b 3 t).length ≤ 1), ⟨3, t, ((entriesOf b 3 t).drop 1).headD 104⟩)])) with
  | some f => some f
  | none => firstOver (List.range (sectionsOf b).length) fun i => match (sectionsOf b)[i]? with
    | some x => if perTile x.type && !mask.testBit x.tile then some ⟨3, x.tile, 128 + 16 * i⟩ else none
    | none => none

/-- The offset of instruction k of a tile in the image. -/
def insOffset (b : Bytes) (t k : Nat) : Nat := ((secsOf b 1 t).headD {}).offset + 8 * k

/-- A check of every instruction of every tile; g answers the limit it breaks. -/
def overCode (b : Bytes) (g : Nat → List InsWord → Nat → InsWord → Option Nat) : Option LoadFail :=
  firstOver (maskTiles (leField b 104 8)) fun t =>
    let code := codeOf b t
    firstOver (List.range code.length) fun k => match code[k]? with
      | some i => (g t code k i).map fun c => ⟨c, t, insOffset b t k⟩
      | none => none

/-- Limit 0x04. -/
def limit04 (b : Bytes) : Option LoadFail :=
  match firstOver (maskTiles (leField b 104 8)) (fun t =>
    let x := (secsOf b 1 t).headD {}
    firstFail [(x.length % 8 == 0 && x.length ≤ 262144, ⟨4, t, x.offset + min (x.length / 8 * 8) 262144⟩)]) with
  | some f => some f
  | none => overCode b fun _ _ _ i => if insFieldsOk i then none else some 4

/-- Limit 0x05. -/
def limit05 (b : Bytes) : Option LoadFail :=
  overCode b fun _ code k i =>
    if isBranch i && !(0 ≤ branchIndex k i && branchIndex k i < (code.length : Int)) then some 5 else none

/-- Limit 0x06. -/
def limit06 (b : Bytes) : Option LoadFail :=
  firstOver (maskTiles (leField b 104 8)) fun t =>
    let x := (secsOf b 2 t).headD {}
    let es := threadTable b t
    match firstFail [(x.length % 16 == 0 && 1 ≤ es.length && es.length ≤ 8, ⟨6, t, x.offset⟩)] with
    | some f => some f
    | none => firstOver (List.range es.length) fun k =>
      let e := es.getD k []
      let at_ := x.offset + 16 * k
      firstFail [
        (leField e 0 4 % 8 == 0 && leField e 0 4 < 8 * (codeOf b t).length, ⟨6, t, at_⟩),
        (decide (leField e 4 2 < leField b 102 2), ⟨6, t, at_ + 4⟩), (decide (leField e 6 1 ≤ 1), ⟨6, t, at_ + 6⟩),
        (leField e 7 1 == 0, ⟨6, t, at_ + 7⟩)]

/-- Limit 0x07. -/
def limit07 (b : Bytes) : Option LoadFail := overCode b fun _ _ _ i => if i.nd = insNd i then none else some 7

/-- Limit 0x08. -/
def limit08 (b : Bytes) : Option LoadFail :=
  firstOver (maskTiles (leField b 104 8)) fun t =>
    let code := codeOf b t
    firstOver (threadTable b t) fun e =>
      if leField e 6 1 = 1 then none
      else firstOver (reachable code (leField e 0 4 / 8)) fun k => match code[k]? with
        | some i => if i.op = 0x50 || (i.op = 0x12 && i.func = 1) then some ⟨8, t, insOffset b t k⟩ else none
        | none => none

/-- Limit 0x09. -/
def limit09 (b : Bytes) : Option LoadFail :=
  firstOver (maskTiles (leField b 104 8)) fun t =>
    firstOver (secsOf b 3 t) fun x => if x.length ≤ 0xFC0000 then none else some ⟨9, t, x.offset + 0xFC0000⟩

/-- Limit 0x0A. -/
def limit0A (b : Bytes) : Option LoadFail :=
  firstOver (maskTiles (leField b 104 8)) fun t =>
    let x := (secsOf b 4 t).headD {}
    let os := syncTable b t
    match firstFail [(x.length % 16 == 0 && os.length ≤ 4032, ⟨0x0A, t, x.offset + 16 * min (x.length / 16) 4032⟩)] with
    | some f => some f
    | none => firstOver (List.range os.length) fun k =>
      let o := os.getD k {}
      let at_ := x.offset + 16 * k
      firstFail [
        (decide (o.kind ≤ 5), ⟨0x0A, t, at_ + 15⟩), (bits (leField b at_ 16) 119 113 == 0, ⟨0x0A, t, at_ + 14⟩),
        (o.kind ≠ 3 || o.value ≤ o.limit, ⟨0x0A, t, at_ + 8⟩), (o.kind ≠ 4 || (1 ≤ o.limit && o.limit ≤ 65535), ⟨0x0A, t, at_ + 8⟩)]

/-- Is the instruction one whose SA names an object (R189)? -/
def isSyncIns (i : InsWord) : Bool := 0x40 ≤ i.op && i.op ≤ 0x48

/-- Is the instruction one whose SB names a completion or NOTIFY counter (R195, R204)? -/
def hasCounter (i : InsWord) : Bool :=
  i.op == 0x60 || i.op == 0x61 || i.op == 0x62 || (i.op == 0x70 && i.func % 4 == 3 && i.func.testBit 2)

/-- Limit 0x0B. -/
def limit0B (b : Bytes) : Option LoadFail :=
  let mask := leField b 104 8
  overCode b fun t _ _ i =>
    let ref := i.imm % 2 ^ 18
    let named := mask.testBit (ref / 4096) && ref % 4096 < 4032
    if isSyncIns i && i.sa = 0 then (if named then none else some 0x0B)
    else if hasCounter i && i.sb = 0 then
      (if named && ref / 4096 = t && ((syncTable b t).getD (ref % 4096) {}).kind = 1 then none else some 0x0B)
    else none

/-- Is a window descriptor valid for a lead and channel count (R127, R128)? -/
def windowOk (w : Window) (lead channels : Nat) : Bool :=
  if w.valid then
    w.openOff ≤ 32 && w.openOff ≤ lead && w.closeOff ≤ 32 && w.closeOff ≤ lead && w.rsv == 0 && w.channel < channels &&
      ((w.closePu : Int) - 65536 * w.closeOff > (w.openPu : Int) - 65536 * w.openOff)
  else w = ({} : Window)

/-- Limit 0x0C. -/
def limit0C (b : Bytes) : Option LoadFail :=
  let lead := leField b 96 1
  let sec := (secsOf b 5 0xFF).headD {}
  let ws := (chunks 8 (oneSec b 5 0xFF)).map fun w => windowOfWord (leNat w)
  match firstFail [(1 ≤ lead && lead ≤ 32, ⟨0x0C, 0xFF, 96⟩), (sec.length == 8 * leField b 100 2, ⟨0x0C, 0xFF, sec.offset⟩)] with
  | some f => some f
  | none => firstOver (List.range ws.length) fun k =>
    if windowOk (ws.getD k {}) lead (leField b 102 2) then none else some ⟨0x0C, 0xFF, sec.offset + 8 * k⟩

/-- Limit 0x0D. -/
def limit0D (b : Bytes) : Option LoadFail :=
  firstFail [
    (1000000 ≤ leField b 80 8 && leField b 80 8 ≤ 60000000000, ⟨0x0D, 0xFF, 80⟩),
    (leField b 88 8 ≤ leField b 80 8 * 64 / 65, ⟨0x0D, 0xFF, 88⟩)]

/-- The first fault of the stream records from offset at_ of the image on. -/
def streamsFault : Nat → List (Bytes × StreamRec) → Option Nat
  | _, [] => none
  | at_, x :: r => match streamFault x.1 x.2 with
    | some k => some (at_ + k)
    | none => streamsFault (at_ + 64 + 16 * leField x.1 1 1) r

/-- Limit 0x0E (R153, R402; assumption log 113). -/
def limit0E (b : Bytes) : Option LoadFail :=
  let sec := (secsOf b 6 0xFF).headD {}
  let ss := streamsOf (leField b 97 1) (oneSec b 6 0xFF)
  match streamsFault sec.offset ss with
  | some k => some ⟨0x0E, 0xFF, k⟩
  | none =>
    let len := ss.foldl (fun n x => n + 64 + 16 * leField x.1 1 1) 0
    firstFail [(ss.length == leField b 97 1, ⟨0x0E, 0xFF, sec.offset + sec.length⟩), (len == sec.length, ⟨0x0E, 0xFF, sec.offset + len⟩)]

/-- Every QUAR satisfies R197 (limit 0x10). -/
def limit10Quar (b : Bytes) : Option LoadFail :=
  overCode b fun _ _ _ i =>
    if i.op = 0x64 && !(i.func < leField b 97 1 && i.imm < 256 && [0x02, 0x18, 0x40, 0x41, 0x42].contains i.imm) then some 0x10
    else none

/-- The threads of an image, in order: tile, channel, class and where the class stands in the image. -/
def threadClasses (b : Bytes) : List (Nat × Nat × Nat × Nat) :=
  (maskTiles (leField b 104 8)).flatMap fun t =>
    let es := threadTable b t
    (List.range es.length).map fun k => let e := es.getD k []
      (t, leField e 4 2, leField e 6 1, ((secsOf b 2 t).headD {}).offset + 16 * k + 6)

/-- The first thread whose class is not that of its channel: 1 where a window names the channel, else that of the channel's
first thread (R134). classes holds the channels met so far. -/
def classFault (classes : List (Nat × Nat)) : List (Nat × Nat × Nat × Nat) → Option LoadFail
  | [] => none
  | (t, ch, c, at_) :: r => match classes.find? fun p => p.1 == ch with
    | some p => if p.2 = c then classFault classes r else some ⟨0x12, t, at_⟩
    | none => classFault ((ch, c) :: classes) r

/-- Limit 0x12. -/
def limit12 (b : Bytes) : Option LoadFail :=
  let ws := ((chunks 8 (oneSec b 5 0xFF)).map fun w => windowOfWord (leNat w)).filter fun w => w.valid
  classFault (ws.map fun w => (w.channel, 1)) (threadClasses b)

/-! ### The job record (R138 to R142) -/

/-- A rank entry (R139). -/
def rankOfBytes (e : Bytes) : Rank :=
  { rank := leField e 0 2, kind := leField e 2 1, credit := leField e 3 1, bufKey := leField e 4 4, bufBase := leField e 8 8,
    bufStride := leField e 16 8, slotStride := leField e 24 4, slots := leField e 28 4, commitKey := leField e 32 4,
    nrec := leField e 36 2, excMax := leField e 38 2, commitBase := leField e 40 8, layout := leField e 48 2,
    nbuf := leField e 50 2, conn := leField e 52 4 }

/-- Length of a job record with a given header (R138). -/
def jobRecLen (b : Bytes) : Nat :=
  96 + 64 * leField b 76 4 + (if leField b 80 1 = 1 then 8 * leField b 72 4 else 0)

/-- A job record (R138 to R140). -/
def jobRecOf (b : Bytes) : JobRec :=
  let n := leField b 76 4
  { datasetId := leField b 0 2, datasetVersion := leField b 4 4, seed := leField b 8 16, programHash := slice b 24 32,
    firstStep := leField b 56 6, firstEpoch := leField b 64 3, epochs := leField b 68 4, batch := leField b 72 4,
    slotmapMode := leField b 80 1, ctrlAddr := leField b 84 2,
    ranks := (chunks 64 ((b.drop 96).take (64 * n))).map rankOfBytes,
    slotMap := if leField b 80 1 = 1 then
      (chunks 8 ((b.drop (96 + 64 * n)).take (8 * leField b 72 4))).map fun e => (leField e 0 2, leField e 4 4) else [] }

/-- Do the reserved fields and encodings of a record hold (R138, R139, code 0x0008)? -/
def jobRecOk (b : Bytes) : Bool :=
  let r := jobRecOf b
  let n := leField b 76 4
  b.length ≥ jobRecLen b && leField b 2 2 == 0 && leField b 62 2 == 0 && leField b 67 1 == 0 && leField b 81 3 == 0 &&
  leField b 86 10 == 0 && r.slotmapMode ≤ 1 && 1 ≤ r.epochs && r.epochs ≤ 2 ^ 24 - r.firstEpoch && 1 ≤ r.batch &&
  r.batch ≤ 16777216 && 1 ≤ n && n ≤ 65536 &&
  ((List.range n).all fun i =>
    let e := (b.drop (96 + 64 * i)).take 64
    let k := rankOfBytes e
    k.rank == i && k.kind ≤ 1 && k.credit ≤ 1 && 1 ≤ k.slots && k.excMax ≤ 1024 && k.nrec ≤ 4096 && 1 ≤ k.nbuf && k.nbuf ≤ 64 &&
      (k.kind == 0 || (k.bufKey == 0 && k.commitKey == 0 && k.conn == 0)) && leField e 56 8 == 0) &&
  (r.slotmapMode == 0 ||
    (chunks 8 ((b.drop (96 + 64 * n)).take (8 * r.batch))).all fun e => leField e 2 2 == 0)

/-- Sum of SLOTS over ranks. -/
def slotSum (r : JobRec) : Nat := r.ranks.foldl (fun n k => n + k.slots) 0

/-- The (rank, slot) of batch offset q in blocked mode, over the ranks left (R140). -/
def blockedSlot : List Rank → Nat → Nat → Nat × Nat
  | [], i, q => (i, q)
  | k :: ks, i, q => if q < k.slots then (i, q) else blockedSlot ks (i + 1) (q - k.slots)

/-- The slot map: batch offset q to (rank, slot) (R140). -/
def slotOf (r : JobRec) (q : Nat) : Nat × Nat :=
  if r.slotmapMode = 0 then blockedSlot r.ranks 0 q else r.slotMap.getD q (0, 0)

/-- Does the slot map reach every (rank, slot) exactly once (code 0x0004)? -/
def slotMapOk (r : JobRec) : Bool :=
  r.slotmapMode == 0 ||
    (r.slotMap.all (fun p => p.1 < r.ranks.length && p.2 < (r.ranks.getD p.1 {}).slots) && r.slotMap.Nodup)

/-- LAYOUT_HASH (R142). -/
def layoutHash (b : Bytes) : Bytes :=
  let r := jobRecOf b
  sha256 (natLe 4 r.batch ++ natLe 4 r.ranks.length ++ natLe 1 r.slotmapMode ++
    r.ranks.flatMap (fun k => natLe 4 k.slots ++ natLe 2 k.layout) ++
    (if r.slotmapMode = 1 then (b.drop (96 + 64 * r.ranks.length)).take (8 * r.batch) else []))

/-- The job identity (R142). -/
def jobIdOf (b : Bytes) : Nat :=
  leField (sha256 (ascii "M8-JOB" ++ slice b 0 2 ++ slice b 4 4 ++ slice b 24 32 ++ slice b 8 16 ++ slice b 56 6 ++
    slice b 64 3 ++ layoutHash b)) 0 8

/-- The largest OPEN_OFF among the delivery windows of an image (R141 code 0x0006). -/
def maxDeliveryOff (img : Image) : Nat :=
  img.windows.foldl (fun n w => if w.valid && w.kind = 2 then max n w.openOff else n) 0

/-- Is n a power of two? -/
def isPow2 (n : Nat) : Bool := n != 0 && n &&& (n - 1) == 0

/-- SPE (R146). -/
def stepsPerEpoch (n batch : Nat) : Nat := n / max 1 batch

/-- The epoch and first position of target step n (R146). -/
def locate (s : M8) (n : Nat) : Option (Nat × Nat) :=
  let r := s.job.jr
  let spe := stepsPerEpoch s.job.sampleCount r.batch
  if n < r.firstStep || n - r.firstStep ≥ r.epochs * spe then none
  else
    let k := n - r.firstStep
    some (r.firstEpoch + k / spe, (k % spe) * r.batch)

/-- The address of slot k of rank r for step n (R159). -/
def slotAddr (r : Rank) (n k : Nat) : Nat := r.bufBase + (n % max 1 r.nbuf) * r.bufStride + k * r.slotStride

end Machine
end Sys2Proof
end

