-- ==== Sys2Proof/Machine/Reel.lean ====
section
/-!
DEFINITION. Sys2Proof/Machine/Reel.lean: the Reel instructions that need no unit outside the tile: ALU and control
(R186), sync objects (R189 to R191), fences (R204 to R206), VCLR (R208), and REEL_CTL (R214, R215).
-/
namespace Sys2Proof
namespace Machine

/-! ### ALU and control (R186) -/

/-- NOP (R186). -/
def execNop (t th : Nat) (f : RFields) (s : State) : Out := reel s t th fun m y => complete m t th 0 f.nd y

/-- ADD (R186): arithmetic wraps modulo 2^64. -/
def execAdd (t th : Nat) (f : RFields) (s : State) : Out := alu s t th f fun a b => a + b

/-- SUB (R186). -/
def execSub (t th : Nat) (f : RFields) (s : State) : Out := alu s t th f fun a b => a - b

/-- AND (R186). -/
def execAnd (t th : Nat) (f : RFields) (s : State) : Out := alu s t th f fun a b => a &&& b

/-- OR (R186). -/
def execOr (t th : Nat) (f : RFields) (s : State) : Out := alu s t th f fun a b => a ||| b

/-- XOR (R186). -/
def execXor (t th : Nat) (f : RFields) (s : State) : Out := alu s t th f fun a b => a ^^^ b

/-- The shift amount op2[5:0] (R186). -/
def shamt (b : Word64) : Nat := b.toNat % 64

/-- SHL (R186). -/
def execShl (t th : Nat) (f : RFields) (s : State) : Out := alu s t th f fun a b => a <<< shamt b

/-- SHR, zero fill (R186). -/
def execShr (t th : Nat) (f : RFields) (s : State) : Out := alu s t th f fun a b => a >>> shamt b

/-- SAR, sign fill (R186). -/
def execSar (t th : Nat) (f : RFields) (s : State) : Out := alu s t th f fun a b => a.sshiftRight (shamt b)

/-- MUL, low 64 bits (R186). -/
def execMul (t th : Nat) (f : RFields) (s : State) : Out := alu s t th f fun a b => a * b

/-- MULHU, high 64 bits of the unsigned product (R186). -/
def execMulhu (t th : Nat) (f : RFields) (s : State) : Out :=
  alu s t th f fun a b => BitVec.ofNat 64 (a.toNat * b.toNat / 2 ^ 64)

/-- DIVU; a divisor of 0 traps 0x05 (R186, R210). -/
def execDivu (t th : Nat) (f : RFields) (s : State) : Out :=
  reel s t th fun m y =>
    if op2 y f = 0 then trapHere m t th y 0x05 0
    else completeSd m t th 28 f y ((y.reg f.sa).udiv (op2 y f))

/-- REMU; a divisor of 0 traps 0x05 (R186, R210). -/
def execRemu (t th : Nat) (f : RFields) (s : State) : Out :=
  reel s t th fun m y =>
    if op2 y f = 0 then trapHere m t th y 0x05 0
    else completeSd m t th 28 f y ((y.reg f.sa).umod (op2 y f))

/-- SLTU (R186). -/
def execSltu (t th : Nat) (f : RFields) (s : State) : Out :=
  alu s t th f fun a b => if ltU a b then 1 else 0

/-- SLT (R186). -/
def execSlt (t th : Nat) (f : RFields) (s : State) : Out :=
  alu s t th f fun a b => if ltS a b then 1 else 0

/-- MINU (R186). -/
def execMinu (t th : Nat) (f : RFields) (s : State) : Out :=
  alu s t th f fun a b => if ltU b a then b else a

/-- MAXU (R186). -/
def execMaxu (t th : Nat) (f : RFields) (s : State) : Out :=
  alu s t th f fun a b => if ltU a b then b else a

/-- LUI: SD := (IMM << 32) or S[SA][31:0] (R186). -/
def execLui (t th : Nat) (f : RFields) (s : State) : Out :=
  reel s t th fun m y => completeSd m t th 28 f y
    (BitVec.ofNat 64 ((f.imm % 2 ^ 32) * 2 ^ 32 + (y.reg f.sa).toNat % 2 ^ 32))

/-- RDTIME FUNC 0: the cycle counter (R179, R186). -/
def execRdtimeCycle (t th : Nat) (f : RFields) (s : State) : Out :=
  reel s t th fun m y => completeSd m t th 0 f y (BitVec.ofNat 64 (getTile m t).cycle)

/-- RDTIME FUNC 1: PAV_NOW; a free-class thread traps 0x0D (R186, R194). -/
def execRdtimePav (t th : Nat) (f : RFields) (s : State) : Out :=
  reel s t th fun m y =>
    if y.locked then completeSd m t th 0 f y (BitVec.ofNat 64 m.pav.tb) else trapHere m t th y 0x0D 0

/-- RDTIME FUNC 2: the tile number (R186). -/
def execRdtimeTile (t th : Nat) (f : RFields) (s : State) : Out :=
  reel s t th fun m y => completeSd m t th 0 f y (BitVec.ofNat 64 t)

/-- RDTIME FUNC 3: the thread's channel (R186). -/
def execRdtimeChannel (t th : Nat) (f : RFields) (s : State) : Out :=
  reel s t th fun m y => completeSd m t th 0 f y (BitVec.ofNat 64 y.channel)

/-- BEQ (R186). -/
def execBeq (t th : Nat) (f : RFields) (s : State) : Out := branch s t th f fun a b => a == b

/-- BNE (R186). -/
def execBne (t th : Nat) (f : RFields) (s : State) : Out := branch s t th f fun a b => a != b

/-- BLT, signed (R186). -/
def execBlt (t th : Nat) (f : RFields) (s : State) : Out := branch s t th f fun a b => ltS a b

/-- BGE, signed (R186). -/
def execBge (t th : Nat) (f : RFields) (s : State) : Out := branch s t th f fun a b => !ltS a b

/-- BLTU (R186). -/
def execBltu (t th : Nat) (f : RFields) (s : State) : Out := branch s t th f fun a b => ltU a b

/-- BGEU (R186). -/
def execBgeu (t th : Nat) (f : RFields) (s : State) : Out := branch s t th f fun a b => !ltU a b

/-- JAL: SD := PC + 8; PC := PC + sext(IMM) * 8 (R186). -/
def execJal (t th : Nat) (f : RFields) (s : State) : Out :=
  reel s t th fun m y =>
    let m := complete m t th 30 f.nd (y.setReg f.sd (BitVec.ofNat 64 (y.pc + 8)))
    setThread m t th { getThread m t th with pc := branchTarget y f.imm }

/-- JALR: PC := S[SA] + sext(IMM) * 8; a target that is no multiple of 8 or lies at or beyond the end of the list
traps 0x02 (R186, R187). -/
def execJalr (t th : Nat) (f : RFields) (s : State) : Out :=
  reel s t th fun m y =>
    let target := (y.reg f.sa + sext f.imm * 8).toNat
    if target % 8 ≠ 0 || target ≥ 8 * (getTile m t).ilen then trapHere m t th y 0x02 target
    else
      let m := complete m t th 30 f.nd (y.setReg f.sd (BitVec.ofNat 64 (y.pc + 8)))
      setThread m t th { getThread m t th with pc := target }

/-- HALT: the thread ends (R186). -/
def execHalt (t th : Nat) (_f : RFields) (s : State) : Out :=
  reel s t th fun m y => modTile (setThread m t th { y with tstate := .halted, wait := .none }) t
    fun x => { x with lastIssue := th }

/-! ### Sync objects (R189 to R191) -/

/-- The shape of a sync operation: a reference to the firmware's objects traps 0x04 (R184), a kind the table does not
allow traps 0x06 (R189); else the operation runs on the object. -/
def syncOp (s : State) (t th : Nat) (f : RFields) (allowed : Nat → Bool)
    (g : M8 → Thread → Nat → SyncObj → M8) : Out :=
  reel s t th fun m y =>
    let r := syncRef y f
    let o := getSync m r
    if r % 4096 ≥ 4032 then trapHere m t th y 0x04 r
    else if allowed o.kind then g m y r o
    else trapHere m t th y 0x06 r

/-- A sync operation that wrote the object completes, and releases follow (R48); a release is progress (R606). -/
def syncDone (m : M8) (t th : Nat) (f : RFields) (y : Thread) (r : Nat) (o : SyncObj) : M8 :=
  let m := if releases o (getSync m r).gen then progressed m t else m
  releaseWaiters (complete (setSync m r o) t th 31 f.nd y) r

/-- SADD FUNC[0] = 0: VALUE := VALUE + S[SB] (R189). -/
def execSadd (t th : Nat) (f : RFields) (s : State) : Out :=
  syncOp s t th f (· == 1) fun m y r o =>
    syncDone m t th f y r { o with value := (o.value + (y.reg f.sb).toNat) % 2 ^ 64 }

/-- SADD FUNC[0] = 1: LIMIT := LIMIT + S[SB] modulo 2^48 (R189). -/
def execSaddLimit (t th : Nat) (f : RFields) (s : State) : Out :=
  syncOp s t th f (· == 1) fun m y r o =>
    syncDone m t th f y r { o with limit := (o.limit + (y.reg f.sb).toNat) % 2 ^ 48 }

/-- SWAIT: goes on at once where the object releases, else the thread waits on it (R189). -/
def execSwait (t th : Nat) (f : RFields) (s : State) : Out :=
  syncOp s t th f waitKind fun m y r o =>
    let gen := (y.reg f.sb).toNat % 16
    if releases o gen then complete m t th 31 f.nd y
    else count (setThread m t th { y with tstate := .waitObj, wait := .obj r gen }) t 31 1

/-- SSET: VALUE[0] := 1 and waiters are released (R189). -/
def execSset (t th : Nat) (f : RFields) (s : State) : Out :=
  syncOp s t th f (· == 2) fun m y r o => syncDone m t th f y r { o with value := o.value ||| 1 }

/-- SCLR: VALUE[0] := 0 (R189). -/
def execSclr (t th : Nat) (f : RFields) (s : State) : Out :=
  syncOp s t th f (· == 2) fun m y r o => syncDone m t th f y r { o with value := o.value - o.value % 2 }

/-- STAKE FUNC[0] = 0: takes a unit, or waits until VALUE is above 0 (R189, R190). -/
def execStake (t th : Nat) (f : RFields) (s : State) : Out :=
  syncOp s t th f (· == 3) fun m y r o =>
    if o.value > 0 then complete (setSync m r { o with value := o.value - 1 }) t th 31 f.nd y
    else count (setThread m t th { y with tstate := .waitObj, wait := .take r }) t 31 1

/-- STAKE FUNC[0] = 1: takes a unit if there is one, SD := 1, else SD := 0 (R189). -/
def execStakeTry (t th : Nat) (f : RFields) (s : State) : Out :=
  syncOp s t th f (· == 3) fun m y r o =>
    if o.value > 0 then completeSd (setSync m r { o with value := o.value - 1 }) t th 31 f y 1
    else completeSd m t th 31 f y 0

/-- SGIVE: VALUE := VALUE + 1, local takes are served first; at LIMIT it traps 0x07 (R189, R190). -/
def execSgive (t th : Nat) (f : RFields) (s : State) : Out :=
  syncOp s t th f (· == 3) fun m y r o =>
    if o.value ≥ o.limit then trapHere m t th y 0x07 r
    else serveTakes (complete (setSync (progressed m t) r { o with value := o.value + 1 }) t th 31 f.nd y) r

/-- A barrier after one more arrival: at LIMIT it returns to 0 and GEN moves on modulo 16 (R45). -/
def SyncObj.arrive (o : SyncObj) : SyncObj :=
  if o.value + 1 = o.limit then { o with value := 0, gen := (o.gen + 1) % 16 }
  else { o with value := (o.value + 1) % 2 ^ 64 }

/-- SARRIVE: SD := GEN before the arrival (R189). -/
def execSarrive (t th : Nat) (f : RFields) (s : State) : Out :=
  syncOp s t th f (· == 4) fun m y r o =>
    syncDone m t th f (y.setReg f.sd (BitVec.ofNat 64 o.gen)) r o.arrive

/-- SARM: VALUE := S[SB], FIRED := 0; waiters stay and wait for the new target (R189, R191). -/
def execSarm (t th : Nat) (f : RFields) (s : State) : Out :=
  syncOp s t th f (· == 5) fun m y r o =>
    syncDone m t th f y r { o with value := (y.reg f.sb).toNat, fired := false }

/-- SREAD: SD := VALUE of any object but a Free one (R189). -/
def execSread (t th : Nat) (f : RFields) (s : State) : Out :=
  syncOp s t th f (fun k => 1 ≤ k && k ≤ 5) fun m y _ o => completeSd m t th 31 f y (BitVec.ofNat 64 o.value)

/-- A tile retries a take of another tile's semaphore when it sees a release; it succeeds only if a unit is left
(R190). -/
def execRemoteTakeRetry (t th : Nat) (s : State) : Out :=
  live s fun m =>
    let y := getThread m t th
    match y.wait with
    | .take r =>
      let o := getSync m r
      if (getTile m t).st = .running && r / 4096 ≠ t && o.value > 0 then
        setThread (setSync m r { o with value := o.value - 1 }) t th y.advance
      else m
    | _ => m

/-- A step latch fires once the timebase reaches its target, and its waiters are released (R45, R100, R191). -/
def execStepLatchFire (t obj : Nat) (s : State) : Out :=
  live s fun m =>
    let r := t * 4096 + obj
    let o := getSync m r
    if o.kind = 5 && !o.fired && m.pav.tb ≥ o.value then releaseWaiters (setSync m r { o with fired := true }) r
    else m

/-! ### Fences (R204 to R206) and VCLR (R208) -/

/-- FENCE, cell scope: every access made before is already visible, since a command is indivisible (R54, R204). -/
def execFenceCell (t th : Nat) (f : RFields) (s : State) : Out := reel s t th fun m y => complete m t th 33 f.nd y

/-- FENCE, tile scope (R54, R204). -/
def execFenceTile (t th : Nat) (f : RFields) (s : State) : Out := reel s t th fun m y => complete m t th 34 f.nd y

/-- FENCE, package scope (R54, R204). -/
def execFencePackage (t th : Nat) (f : RFields) (s : State) : Out := reel s t th fun m y => complete m t th 35 f.nd y

/-- The next fence sequence: 1 to 65,535, wrapping to 1 (R205). -/
def nextFenceSeq (n : Nat) : Nat := if n ≥ 65535 then 1 else n + 1

/-- A remote-fence token (R205). -/
def fenceToken (t seq : Nat) : Nat := t * 2 ^ 26 + seq % 2 ^ 16

/-- Take an entry of the remote-fence table covering every PLACE write not yet acknowledged, or merge into the newest
entry when the table is full (R205). Answers the tile and the entry's sequence. -/
def issueFence (x : Tile) (notify : List Nat) : Tile × Nat :=
  if x.rfences.length < 1024 then
    let e : RFence := { seq := x.nextFence, covers := x.placesOut, notify := notify }
    ({ x with rfences := x.rfences ++ [e], nextFence := nextFenceSeq x.nextFence }, x.nextFence)
  else
    match x.rfences.getLast? with
    | some e =>
      ({ x with rfences := x.rfences.dropLast ++ [{ e with covers := x.placesOut, notify := e.notify ++ notify }] }, e.seq)
    | none => (x, 0)

/-- FENCE, remote scope: SD := token; FUNC[2] NOTIFY names a counter of the issuing tile, else trap 0x0C, 0x04 in the reserve (R204,
R205). The thread never waits. -/
def execFenceRemote (t th : Nat) (f : RFields) (s : State) : Out :=
  reel s t th fun m y =>
    let c := compRef y f
    let notify := f.func.testBit 2
    if notify && !ownCounter m t c then trapHere m t th y (counterCause m t c) c
    else
      let (x, seq) := issueFence (getTile m t) (if notify then [c] else [])
      completeSd (setTile m t x) t th 36 f y (BitVec.ofNat 64 (fenceToken t seq))

/-- A remote fence completes once every covered write is acknowledged; it adds 1 to each counter given to it (R205,
R206). -/
def execRemoteFenceComplete (t seq : Nat) (s : State) : Out :=
  live s fun m =>
    match (getTile m t).rfences.find? fun e => e.seq == seq && e.covers.isEmpty with
    | some e =>
      let m := modTile m t fun x => { x with rfences := x.rfences.filter fun e' => e'.seq != seq }
      e.notify.foldl notifyCounter m
    | none => m

/-- VCLR clears VARY (R208). -/
def execVclr (t th : Nat) (f : RFields) (s : State) : Out :=
  reel s t th fun m y => complete m t th 0 f.nd { y with vary := false }

/-! ### REEL_CTL (R214, R215) -/

/-- The package address of a tile's register (R37). -/
def tileRegAddr (t off : Nat) : Nat := 0x030000000000 + t * 0x10000 + off

/-- Is an action allowed in a state (R214)? -/
def reelAllowed (a : ReelAct) (st : TileSt) : Bool :=
  match a with
  | .start => st == .loaded
  | .halt => st == .running
  | .unload => st == .loaded || st == .halted || st == .trapped
  | .tileReset => st == .empty || st == .halted || st == .trapped || st == .quarantined
  | .quarantine => true

/-- A thread as a thread-table entry starts it (R180, R217). -/
def threadStart (e : Bytes) : Thread :=
  let x : Thread := { pc := leField e 0 4, channel := leField e 4 2, locked := leField e 6 1 == 1, tstate := .ready }
  x.setReg 1 (BitVec.ofNat 64 (leField e 8 8))

/-- START: every thread starts at its START_PC with its registers 0 but S1; the cycle counter and the fence sequence
start anew (R179, R180, R205, R214). -/
def startTile (s : M8) (t : Nat) : M8 :=
  let ths := (getTile s t).initThreads
  let s := modTile s t fun x => { x with
    cycle := 0, quarters := 0, canaryAt := 0, nextFence := 1, rfences := [], dispQ := [], cells := [], reqQ := [], placesOut := [],
    lastIssue := 7, threads := (List.range ths.length).map fun i => (i, threadStart (ths.getD i [])) }
  let s := { s with safe := { s.safe with hubStart := s.clk.hclk, hubRuns := [] } }
  enterTileSt (progressed s t) t .running

/-- An empty tile: what an unload leaves; retired cells stay retired (R32, R214). -/
def emptyTile (x : Tile) : Tile :=
  { retired := x.retired, refused := x.refused, pendingAct := x.pendingAct, cellCanary := x.cellCanary, safeTest := x.safeTest,
    canaryAt := x.canaryAt, st := x.st }

/-- Take an allowed action (R214, R215). START, TILE_RESET and QUARANTINE complete at once; HALT and UNLOAD stay in
progress until TILE_HALTED and REEL_UNLOAD_DONE. An UNLOAD discards the dispatches with no item running. -/
def reelApply (s : M8) (t : Nat) (a : ReelAct) : M8 :=
  match a with
  | .start => startTile s t
  | .halt => modTile s t fun x => { x with busy := some .halt }
  | .unload => modTile s t fun x => { x with
      busy := some .unload, dispQ := x.dispQ.filter fun d => x.cells.any fun c => c.2.disp == d.id }
  | .tileReset => enterTileSt (modTile s t fun x =>
      { emptyTile x with retired := 0, pendingAct := x.pendingAct, cellCanary := [] }) t .empty
  | .quarantine => quarantineTile s t

/-- A write of an action to REEL_CTL: only a control core may write it (R214); while an action is in progress the new
one is held pending; an action not allowed is dropped and REFUSED is set (R215). -/
def reelCtl (s : M8) (agent t : Nat) (a : ReelAct) : M8 :=
  if !isCore agent then addressError s agent (tileRegAddr t 0)
  else
    let x := getTile s t
    if x.busy.isSome then setTile s t { x with pendingAct := some a }
    else if reelAllowed a x.st then reelApply s t a
    else setTile s t { x with refused := true }

/-- REEL_CTL START (R214). -/
def execReelStart (agent t : Nat) (s : State) : Out := live s fun m => reelCtl m agent t .start

/-- REEL_CTL HALT (R214). -/
def execReelHalt (agent t : Nat) (s : State) : Out := live s fun m => reelCtl m agent t .halt

/-- REEL_CTL UNLOAD (R215). -/
def execReelUnload (agent t : Nat) (s : State) : Out := live s fun m => reelCtl m agent t .unload

/-- REEL_CTL TILE_RESET: the program is unloaded and every retired cell returns to service (R32, R214). -/
def execTileReset (agent t : Nat) (s : State) : Out := live s fun m => reelCtl m agent t .tileReset

/-- REEL_CTL QUARANTINE (R213, R214). -/
def execReelQuarantine (agent t : Nat) (s : State) : Out := live s fun m => reelCtl m agent t .quarantine

/-- A pending action takes effect when the earlier one has completed, if it is allowed in the state reached; else it
is dropped and REFUSED is set (R215). -/
def execReelPendingApply (t : Nat) (s : State) : Out :=
  live s fun m =>
    let x := getTile m t
    match x.busy, x.pendingAct with
    | none, some a =>
      let m := setTile m t { x with pendingAct := none }
      if reelAllowed a x.st then reelApply m t a else modTile m t fun x => { x with refused := true }
    | _, _ => m

/-- Work in flight of a tile: dispatches, running items, requests at the hub (R202, R215). -/
def workInFlight (x : Tile) : Bool := !x.dispQ.isEmpty || !x.cells.isEmpty || !x.reqQ.isEmpty

/-- Have all threads in use halted (R215)? -/
def allHalted (x : Tile) : Bool :=
  !x.threads.isEmpty && x.threads.all fun p => p.2.tstate == .halted || p.2.tstate == .notInUse

/-- A running tile enters state 3 once a HALT is in progress, or all its threads have halted, and its work in flight
has finished (R202, R214, R215). -/
def execTileHalted (t : Nat) (s : State) : Out :=
  live s fun m =>
    let x := getTile m t
    if x.st = .running && (x.busy = some .halt || allHalted x) && !workInFlight x then
      enterTileSt (setTile m t { x with busy := none }) t .halted
    else m

/-- An UNLOAD completes when every dispatch has finished or been discarded, every accepted hub request has completed
and every remote fence has completed; the tile is empty (R215). -/
def execReelUnloadDone (t : Nat) (s : State) : Out :=
  live s fun m =>
    let x := getTile m t
    if x.busy = some .unload && !workInFlight x && x.rfences.isEmpty then
      enterTileSt (setTile m t (emptyTile x)) t .empty
    else m

/-- A hardware-class trap of a tile (R210, R213): uncorrectable ECC 0x20 is mode 0x05, Reel parity 0x21 and a tile
canary 0x23 are mode 0x03, both with the reaction of R549; a second retired cell 0x22 is a plain tile fault. -/
def execTileHwFault (t th cause arg : Nat) (s : State) : Out :=
  live s fun m =>
    let x := getTile m t
    if t ≥ 64 || x.st = .quarantined || !hwCause cause then m
    else
      let pc := (getThread m t th).pc
      if cause = 0x22 then trap m t th cause pc arg
      else
        let m := writeTrap m t th cause pc arg
        react m (if cause = 0x20 then 0x05 else 0x03) 1 t 0xFFFF cause

/-- A cell fails a self-check during an item: it is retired, its item is queued again (R31, R201); the detection is
contained (R548 mode 0x01) and logged (R557). -/
def execCellSelfCheckFail (t cell : Nat) (s : State) : Out :=
  live s fun m =>
    if t < 64 && cell < 16 && (getTile m t).st ≠ .quarantined && !(getTile m t).retired.testBit cell then
      let (d, m) := drawFree m
      react m 0x01 0 (t + cell * 256) 0xFFFF d
    else m

end Machine
end Sys2Proof
end

