-- ==== Sys2Proof/Machine/Pavane.lean ====
section
/-!
DEFINITION. Sys2Proof/Machine/Pavane.lean: the step timebase, its sources, correction, windows and deadlines
(R99 to R136, R172, R193, R645).
-/
namespace Sys2Proof
namespace Machine

/-- The counter entry of a PAV_EVENT bit (R104); 0 for HOLDOVER_WARN, which has none. -/
def pavCounter (b : Nat) : Nat :=
  if b = 0 then Od.SRC_LOSSES else if b = 1 then Od.SRC_RETURNS else if b = 2 then Od.HOLDOVER_ENTRIES
  else if b = 3 then Od.SRC_SWITCHES else if b = 4 then Od.JUMPS else if b = 5 then Od.PERIOD_REJECTS
  else if b = 6 then Od.MISSED_COMMITS else if b = 7 then Od.TOO_LONG_COUNT else if b = 8 then Od.PKT_REJECTS else 0

/-- A PAV_EVENT bit is set: its counter counts, the shared source stays asserted, the event is recorded (R104,
R593). -/
def pavEvent (s : M8) (b : Nat) : M8 :=
  let s := { s with pav := { s.pav with event := s.pav.event ||| 2 ^ b } }
  let s := if pavCounter b = 0 then s else odInc s (pavCounter b)
  setLine (record s 0x80 2 0 b) 0x148 true

/-- Does Pavane take events: a job is loaded and has reached Armed (R106, R109)? -/
def pavListens (s : M8) : Bool := jobState s ≥ 2

/-! ### The phase (R116) -/

/-- The phase gained in one hub clock (0.625 ns) at the nominal rate, in 2^-32 pu; the fraction left over is dropped
(assumption log 19). -/
def hclkPhase (periodFx : Nat) : Nat := if periodFx = 0 then 0 else 65536 * 2 ^ 48 * 5 / (8 * periodFx)

/-- The extra phase of one hub clock while slewing: 1/64 of the nominal one (R116). -/
def slewPhase (periodFx : Nat) : Nat := hclkPhase periodFx / 64

/-- The timebase moves on by d of 2^-32 pu; in holdover a new step counts in HOLDOVER_STEPS (R99, R104, R122). -/
def advanceTb (s : M8) (d : Nat) : M8 :=
  let p := s.pav
  let total := p.tb * 2 ^ 32 + p.frac + d
  let tb := total / 2 ^ 32 % 2 ^ 64
  let s := if p.src = 3 && tb / 65536 > p.tb / 65536 then odAdd s Od.HOLDOVER_STEPS (tb / 65536 - p.tb / 65536) else s
  { s with pav := { p with tb := tb, frac := total % 2 ^ 32, highest := max p.highest tb } }

/-- One hub clock of Pavane: the phase runs at the filtered period, faster or slower by 1/64 while SLEW_LEFT is
not 0, and what was gained or lost is taken from SLEW_LEFT (R116). The hub clock in which SLEW_LEFT reaches 0 is the
event SLEW_DONE. -/
def pavTick (s : M8) : M8 :=
  let p := s.pav
  if !p.running then s else
  let d := hclkPhase p.periodFx
  let e := slewPhase p.periodFx
  if p.slewFx ≥ (e : Int) && p.slewFx > 0 then
    advanceTb { s with pav := { p with slewFx := p.slewFx - (e : Int) } } (d + e)
  else if -p.slewFx ≥ (e : Int) && p.slewFx < 0 then
    advanceTb { s with pav := { p with slewFx := p.slewFx + (e : Int) } } (d - e)
  else advanceTb s d

/-- SLEW_LEFT reaches 0 in this hub clock: less than one hub clock's slew is left, it is made up and the adjusted rate
ends (R116). -/
def execSlewDone (s : State) : Out :=
  live s fun m =>
    let p := m.pav
    let e := slewPhase p.periodFx
    if p.running && p.slewFx ≠ 0 && p.slewFx.natAbs < e + 1 then
      let d := hclkPhase p.periodFx
      let m' := { m with pav := { p with slewFx := 0 } }
      if p.slewFx > 0 then advanceTb m' (d + p.slewFx.natAbs) else advanceTb m' (d - p.slewFx.natAbs)
    else m

/-! ### Measuring the period (R114, R115) -/

/-- Is |a - b| at most b / k, for fractions (numerator, denominator)? -/
def within (k : Nat) (a b : Nat × Nat) : Bool :=
  let x := a.1 * b.2
  let y := b.1 * a.2
  (if x > y then x - y else y - x) * k ≤ y

/-- The mean of fractions with 16 fractional bits, truncated (R115). -/
def meanFx (ms : List (Nat × Nat)) : Nat :=
  let sum := ms.foldl (fun (a : Nat × Nat) m => (a.1 * m.2 + m.1 * a.2, a.2 * m.2)) (0, 1)
  if ms.isEmpty || sum.2 = 0 then 0 else sum.1 * 65536 / (sum.2 * ms.length)

/-- The filter takes measurements ms, newest first. -/
def setFilter (s : M8) (ms : List (Nat × Nat)) : M8 :=
  { s with pav := { s.pav with meas := ms, outliers := [], periodFx := meanFx ms } }

/-- One measurement (numerator, denominator) in ns: out of range it is rejected and breaks a run of outliers; off by
more than 1/8 it is rejected and starts or extends a run, the last four restarting the filter once each two of them
agree within 1/64; else it is averaged in and ends the run (R115). -/
def takeMeasurement (s : M8) (m : Nat × Nat) : M8 :=
  let p := s.pav
  if m.1 < 1000000 * m.2 || m.1 > 60000000000 * m.2 then
    pavEvent { s with pav := { p with outliers := [] } } 5
  else if within 8 m (p.periodFx, 65536) then
    setFilter s ((m :: p.meas).take (odNat s Od.PERIOD_AVG))
  else
    let run := (m :: p.outliers).take 4
    let s := pavEvent s 5
    if run.length = 4 && (run.all fun a => run.all fun b => within 64 a b) then setFilter s run else { s with pav := { s.pav with outliers := run } }

/-! ### Correcting the phase (R118 to R120) -/

/-- The pu that d ns last at PERIOD_NS, truncated; 0 before any period has been filtered. -/
def periodPu (s : M8) (d : Nat) : Nat := d * 65536 * 65536 / s.pav.periodFx

/-- The error E against the source value v0 of local time t, carried forward to the hub clock of its acceptance: slewed
when |E| is at most 32,768 pu, else a pending jump (R118 to R120; assumption log 20). -/
def correct (s : M8) (t : Nat) (v0 : Int) : M8 :=
  let p := s.pav
  let v := v0 + (periodPu s (s.clk.now - t) : Int)
  let e := v - (p.tb : Int)
  if e.natAbs ≤ 32768 then { s with pav := { p with slewFx := e * 2 ^ 32, jump := none } }
  else { s with pav := { p with jump := some (s.clk.now, v), jumpFrom := p.tb } }

/-- The nearest step boundary to the local value of time t, the next one from phase 32,768 (R112; assumption log 20). -/
def nearestBoundary (s : M8) (t : Nat) : Int :=
  ((s.pav.tb : Int) - (periodPu s (s.clk.now - t) : Int) + 32768) / 65536 * 65536

/-! ### Sources (R105 to R113, R123 to R126) -/

def getPavSrc (s : M8) (src : Nat) : PavSrc := if src = 1 then s.pav.pkt else s.pav.stepin

def setPavSrc (s : M8) (src : Nat) (x : PavSrc) : M8 :=
  if src = 1 then { s with pav := { s.pav with pkt := x } } else { s with pav := { s.pav with stepin := x } }

/-- The active source changes while RUNNING (R123, R124). -/
def switchSrc (s : M8) (src : Nat) : M8 :=
  if s.pav.running && s.pav.src ≠ src then pavEvent { s with pav := { s.pav with src := src } } 3 else s

/-- Pavane enters holdover (R124). -/
def enterHoldover (s : M8) : M8 :=
  let s := { s with pav := { s.pav with jump := none, holdFrom := s.pav.tb / 65536, warned := false } }
  pavEvent (switchSrc s 3) 2

/-- The newest events of a numbered run that all agree with one another once carried forward to t at period fx: they
span at most 1,024 pu (R106). Values are scaled by fx, so nothing is rounded; lo and hi bound those already taken. -/
def agreeingTail (fx t : Nat) : Int → Int → List (Nat × Int) → List (Nat × Int)
  | _, _, [] => []
  | lo, hi, e :: es =>
    let c := e.2 * (fx : Int) + ((t : Int) - (e.1 : Int)) * 2 ^ 32
    let lo := min lo c
    let hi := max hi c
    if hi - lo ≤ 1024 * (fx : Int) then e :: agreeingTail fx t lo hi es else []

/-- Does a pulse edge at t continue a run: its spacing lies within 1/64 of PERIOD_NS, or before any period of the
run's first spacing (R106)? -/
def pulseAgree (periodFx : Nat) (run : List (Nat × Int)) (t : Nat) : Bool :=
  match run with
  | [] => true
  | e :: _ =>
    if periodFx ≠ 0 then within 64 (t - e.1, 1) (periodFx, 65536)
    else match run.reverse with
      | a :: b :: _ => within 64 (t - e.1, 1) (b.1 - a.1, 1)
      | _ => true

/-- The run of a source after an accepted event (R106). pulse: the event carries no number. Coded words are carried forward
at the first spacing of their run before any period has been filtered (assumption log 20). -/
def extendRun (s : M8) (x : PavSrc) (t : Nat) (v : Int) (pulse : Bool) (ownPeriod : Nat) : List (Nat × Int) :=
  if pulse then (if pulseAgree s.pav.periodFx x.run t then (t, v) :: x.run else [(t, v)])
  else
    let fx := if s.pav.periodFx ≠ 0 then s.pav.periodFx else
      if ownPeriod ≠ 0 then ownPeriod * 65536 else
      match (((t, v) :: x.run).reverse) with
      | a :: b :: _ => if b.2 > a.2 then (b.1 - a.1) * 65536 * 65536 / (b.2 - a.2).toNat else 1
      | _ => 1
    (t, v) :: agreeingTail fx t (v * (fx : Int)) (v * (fx : Int)) x.run

/-- In pulse mode the last edge takes the boundary nearest to it in the timebase just set: until then it had none (R112,
R126; assumption log 20). -/
def numberPulse (s : M8) : M8 :=
  if odNat s Od.STEPIN_MODE = 1 then s
  else { s with pav := { s.pav with stepin := { s.pav.stepin with last := s.pav.stepin.last.map fun e => (e.1, nearestBoundary s e.1) } } }

/-- The direct set at the first qualification (R126): the timebase takes the source value, the period is seeded, RUNNING
is set and the job enters Running; every tile of TILE_MASK is started (R220). -/
def directSet (s : M8) (src : Nat) (run : List (Nat × Int)) (v : Int) (pulse : Bool) (ownPeriod : Nat) : M8 :=
  let q := odNat s Od.QUAL_EVENTS
  let start := s.job.jr.firstStep - s.job.img.lead
  let value := if pulse then (start + (q - 1)) * 65536 else v.toNat
  let newest := run.headD (0, 0)
  let oldest := (run.take q).getLastD (0, 0)
  let seed : Nat × Nat :=
    if src = 1 then (ownPeriod, 1)
    else if pulse then (newest.1 - oldest.1, q - 1)
    else (65536 * (newest.1 - oldest.1), max 1 (newest.2 - oldest.2).toNat)
  let p := s.pav
  let s := { s with pav := { p with
    tb := value % 2 ^ 64, frac := 0, running := true, src := src, highest := value % 2 ^ 64, slewFx := 0, jump := none } }
  let s := setFilter s [seed]
  let s := enterJobState (numberPulse s) 3
  (List.range 64).foldl (fun s t =>
    if s.job.img.tileMask.testBit t && (getTile s t).st = .loaded then startTile s t else s) s

/-- A step source gives an accepted event at local time t with source value v (R106, R107, R114, R118, R123, R126).
ownPeriod is a packet's PERIOD_NS, else 0. A job armed after edges have begun does not start on pulse edges, which it
cannot number (R126). -/
def sourceEvent (s : M8) (src t : Nat) (v : Int) (pulse : Bool) (ownPeriod : Nat) : M8 :=
  let x := getPavSrc s src
  let run := extendRun s x t v pulse ownPeriod
  let nowQual := x.qualified || run.length ≥ odNat s Od.QUAL_EVENTS
  let newly := nowQual && !x.qualified
  let prev := x.last
  let x' := { x with run := if nowQual then [] else run, qualified := nowQual, last := some (t, v),
                     wasLost := x.wasLost && !newly }
  let s := setPavSrc s src x'
  if !s.pav.running then
    if newly && jobState s = 2 && !(pulse && s.pav.edgesBegun) then directSet s src run v pulse ownPeriod else s
  else
    let s := if newly && x.wasLost then pavEvent s 1 else s
    if newly && (s.pav.src = 3 || s.pav.src = 0 || src < s.pav.src) then correct (switchSrc s src) t v
    else if s.pav.src = src then
      let s := match prev with
        | some (t0, v0) =>
          if v - v0 ≥ 32768 then takeMeasurement s (65536 * (t - t0), (v - v0).toNat) else s
        | none => s
      correct s t v
    else s

/-- The offset of the sender's timestamp from the local one, where it is measured (R110, R487). -/
def senderOffset (s : M8) (src : Nat) : Int :=
  if odNat s Od.OFFSET_SRC_ADDR = src then signed 64 (odNat s Od.OFFSET_SRC_NS) else 0

/-- The source value a packet gives at t (R110); the division truncates. -/
def projectPacket (s : M8) (src t : Nat) (b : Bytes) : Int :=
  let elapsed : Int := (t : Int) - (leField b 8 8 : Int) - senderOffset s src
  let fx := if s.pav.periodFx ≠ 0 then s.pav.periodFx else leField b 16 8 * 65536
  ((leField b 0 6 * 65536 + leField b 6 2 : Nat) : Int) + Int.tdiv (elapsed * 65536 * 65536) (max 1 fx : Nat)

/-- Does a timing packet pass the checks of R109? -/
def packetOk (s : M8) (src : Nat) (b : Bytes) : Bool :=
  b.length == 32 && leField b 28 4 == jobTag s &&
  (odNat s Od.PKT_SOURCE == 0xFFFF || odNat s Od.PKT_SOURCE == src) &&
  (match s.pav.pkt.seq with
   | some q => serialNewer 16 (leField b 24 2) q
   | none => true) &&
  1000000 ≤ leField b 16 8 && leField b 16 8 ≤ 60000000000 && leField b 26 2 / 2 == 0

/-- The sixteenth exchange is in: the offset of the exchange with the smallest round trip is kept (R487). -/
def offsetDone (s : M8) (o : OffsetMeas) : M8 :=
  match o.best with
  | none => s
  | some (rtt, off) =>
    let s := if o.peer = s.grp.master then odSet s Od.OFFSET_MASTER_NS (unsigned 64 off) else s
    if o.src then
      odSet (odSet (odSet s Od.OFFSET_SRC_ADDR o.peer) Od.OFFSET_SRC_NS (unsigned 64 off)) Od.OFFSET_RTT_NS (unsigned 32 rtt)
    else s

/-- A measurement of the offset to a peer is begun where none stands; src tells that it is a timing source (R487). -/
def beginOffset (s : M8) (peer : Nat) (src : Bool) : M8 :=
  match s.fab.offsets.find? fun o => o.peer == peer with
  | none => { s with fab := { s.fab with offsets := s.fab.offsets ++ [{ peer := peer, src := src }] } }
  | some o =>
    let o' := { o with src := o.src || src }
    let s := { s with fab := { s.fab with offsets := s.fab.offsets.map fun x => if x.peer = peer then o' else x } }
    if o'.src && !o.src && o.done = 16 then offsetDone s o' else s

/-- A timing packet arrives (R106, R109, R110). It is used only after its sender's offset has been measured; the first
one of a source begins the measurement (R487). -/
def timingPacket (s : M8) (src : Nat) (b : Bytes) : M8 :=
  if !pavListens s || !(odNat s Od.PAV_SRC_ENABLE).testBit 0 then s
  else if !packetOk s src b then pavEvent s 8
  else
    let s := setPavSrc s 1 { s.pav.pkt with seq := some (leField b 24 2) }
    if odNat s Od.OFFSET_SRC_ADDR != src then beginOffset s src true
    else sourceEvent s 1 s.clk.now (projectPacket s src s.clk.now b) false (leField b 16 8)

/-- A timing packet arrives from a fabric address. -/
def execTimingPacket (src : Nat) (payload : Bytes) (s : State) : Out := live s fun m => timingPacket m src payload

/-- Does an edge at t come less than half the filtered period after the last accepted one (R111)? -/
def edgeTooSoon (s : M8) (t : Nat) : Bool :=
  match s.pav.stepin.last with
  | some (t0, _) => s.pav.periodFx ≠ 0 && (t - t0) * 2 * 65536 < s.pav.periodFx
  | none => false

/-- Does an edge at t lie inside the word of the coded-mode edge before it, which ends 6.12 us after that edge (R113)? -/
def insideWord (s : M8) (t : Nat) : Bool := odNat s Od.STEPIN_MODE = 1 && s.pav.edge.any fun t0 => t < t0 + 6120

/-- A rising edge of STEP_IN (R111 to R113): timestamped less STEPIN_DELAY_NS; in pulse mode it is a boundary event,
in coded mode it waits for its word, and edges inside that word are no step edges. One that comes before the job is Armed is only noted (R106, R126; assumption log
111). -/
def execStepInEdge (s : State) : Out :=
  live s fun m =>
    if !(odNat m Od.PAV_SRC_ENABLE).testBit 1 then m
    else if !pavListens m then { m with pav := { m.pav with edgesBegun := true } }
    else
      let t := m.clk.now - odNat m Od.STEPIN_DELAY_NS
      if insideWord m t then m
      else if edgeTooSoon m t then pavEvent m 5
      else if odNat m Od.STEPIN_MODE = 1 then { m with pav := { m.pav with edge := some t } }
      else sourceEvent m 2 t (nearestBoundary m t) true 0

/-- Does a coded word pass the checks of R113? -/
def codedOk (s : M8) (word : Nat) : Bool :=
  crc32c (natLe 12 word) == bits word 127 96 && bits word 63 48 == jobTag s % 65536 &&
    bits word 79 65 == 0 && bits word 95 80 == 0

/-- The coded word of the last edge has been received whole (R113). -/
def execStepInCodedWord (word : Nat) (s : State) : Out :=
  live s fun m =>
    if !pavListens m || !(odNat m Od.PAV_SRC_ENABLE).testBit 1 || odNat m Od.STEPIN_MODE ≠ 1 then m
    else match m.pav.edge with
      | none => m
      | some t =>
        let m := { m with pav := { m.pav with edge := none } }
        if codedOk m word then sourceEvent m 2 t ((bits word 47 0 * 65536 : Nat) : Int) false 0
        else pavEvent m 8

/-- Have LOSS_STEPS step boundaries passed by the filtered period since the source value v of local time t (R106)? -/
def boundariesPassed (s : M8) (t : Nat) (v : Int) : Bool :=
  (odNat s Od.LOSS_STEPS * 65536 - (v % 65536).toNat) * s.pav.periodFx ≤ (s.clk.now - t) * 65536 * 65536

/-- LOSS_STEPS expected boundaries have passed without an accepted event of a qualified source: it is lost; when it was
the active one, Pavane switches to another qualified source or enters holdover (R106, R123, R124). -/
def execSrcLost (src : Nat) (s : State) : Out :=
  live s fun m =>
    let x := getPavSrc m src
    match x.last with
    | some (t, v) =>
      if (src = 1 || src = 2) && x.qualified && pavListens m && m.pav.periodFx ≠ 0 && boundariesPassed m t v then
        let m := pavEvent (setPavSrc m src { x with qualified := false, run := [], wasLost := true }) 0
        if m.pav.src = src then
          let other := if src = 1 then 2 else 1
          if (getPavSrc m other).qualified then switchSrc m other else enterHoldover m
        else m
      else m
    | none => m

/-- Holdover has lasted HOLDOVER_WARN_STEPS (R124). -/
def execHoldoverWarn (s : State) : Out :=
  live s fun m =>
    if m.pav.src = 3 && !m.pav.warned && m.pav.tb / 65536 - m.pav.holdFrom ≥ odNat m Od.HOLDOVER_WARN_STEPS then
      pavEvent { m with pav := { m.pav with warned := true } } 9
    else m

/-- No source qualified within START_TIMEOUT (R126, R144): the job fails with 0x000A. -/
def execStartTimeout (s : State) : Out :=
  live s fun m =>
    if jobState m = 2 && m.clk.now ≥ m.pav.armedAt + odNat m Od.START_TIMEOUT * 1000000 then
      failJob m 0x000A m.job.jr.firstStep
    else m

/-- At unload or at the end of a stop Pavane stops and forgets what it measured; the timebase holds its value, and
PAV_EVENT its bits (R645). -/
def pavStop (s : M8) : M8 :=
  { s with pav := { tb := s.pav.tb, frac := s.pav.frac, event := s.pav.event, highest := s.pav.tb } }

/-! ### Windows and deadlines (R127 to R132) -/

/-- The open point of a window for target n, as a timebase value (R128). -/
def openPoint (w : Window) (n : Nat) : Int := ((n : Int) - w.openOff) * 65536 + w.openPu

/-- The close point of a window for target n (R128). -/
def closePoint (w : Window) (n : Nat) : Int := ((n : Int) - w.closeOff) * 65536 + w.closePu

/-- The last target step of the job (R146, R178). -/
def lastTarget (s : M8) : Nat := odNat s Od.LAST_STEP

/-- Is n a target step of the loaded job? -/
def isTarget (s : M8) (n : Nat) : Bool := s.job.jr.firstStep ≤ n && n ≤ lastTarget s

/-- The window descriptor idx of the loaded program, when it is in use. -/
def windowOf (s : M8) (idx : Nat) : Option Window :=
  match s.job.img.windows[idx]? with
  | some w => if w.valid then some w else none
  | none => none

/-- The record of a window and target. -/
def winRec (s : M8) (idx n : Nat) : Option WinRec := s.pav.wins.find? fun r => r.idx == idx && r.target == n

/-- Is the window open for target n? -/
def windowOpen (s : M8) (idx n : Nat) : Bool :=
  match winRec s idx n with
  | some r => !r.closed
  | none => false

/-- Is every rank's commit of step n issued by this owner, so that its windows do not reopen (R122)? -/
def committed (s : M8) (n : Nat) : Bool := n < lowestUnsealed s && s.job.loaded

/-- A window opens for a target, once (R122, R128). -/
def openWindow (s : M8) (idx n : Nat) : M8 :=
  if (winRec s idx n).isSome then s
  else { s with pav := { s.pav with wins := { idx := idx, target := n, closed := false } :: s.pav.wins } }

/-- A window closes for a target (R128). -/
def closeWindow (s : M8) (idx n : Nat) : M8 :=
  { s with pav := { s.pav with wins := s.pav.wins.map fun r => if r.idx = idx && r.target = n then { r with closed := true } else r } }

/-- The timebase has reached a window's close point for a target (R128). -/
def execWindowClose (idx n : Nat) (s : State) : Out :=
  live s fun m =>
    match windowOf m idx with
    | some w => if m.pav.running && windowOpen m idx n && (m.pav.tb : Int) ≥ closePoint w n then closeWindow m idx n else m
    | none => m

/-- The owner's assembly of a (step, rank); empty where nothing has been reported (R166). -/
def getAsm (s : M8) (n r : Nat) : Assembly :=
  (s.job.asm.find? fun a => a.step == n && a.rank == r).getD { step := n, rank := r }

/-- Put an assembly back. -/
def setAsm (s : M8) (a : Assembly) : M8 :=
  { s with job := { s.job with asm := a :: s.job.asm.filter fun b => !(b.step == a.step && b.rank == a.rank) } }

def rankOf (s : M8) (r : Nat) : Rank := s.job.jr.ranks.getD r {}

/-- The slots of a batch not yet reported, in ascending order (R166). -/
def missingSlots (s : M8) (n r : Nat) : List Nat :=
  let a := getAsm s n r
  (List.range (rankOf s r).slots).filter fun k => !(a.terms.has k)

/-- The last sealed step of a rank is at or above n. -/
def sealedTo (s : M8) (n r : Nat) : Bool :=
  match (s.job.ranks.get {} r).sealedTo with
  | some k => n ≤ k
  | none => false

/-- A 40-byte notice (R165). -/
def notice (type reason flags tag step rank slot sample term : Nat) : Bytes :=
  natLe 1 type ++ natLe 1 reason ++ natLe 1 flags ++ natLe 1 0 ++ natLe 4 tag ++ natLe 6 step ++ natLe 2 rank ++
    natLe 4 slot ++ natLe 6 sample ++ zeros 2 ++ natLe 8 term ++ zeros 4

/-- The owner misses the deadline of (n, r): DEADLINE_MISS is set and counted, MISS goes to CTRL_ADDR, the record will
carry LATE (R129, R172). -/
def missDeadline (s : M8) (n r : Nat) : M8 :=
  let miss := missingSlots s n r
  let s := setAsm s { getAsm s n r with late := true }
  let s := pavEvent s 6
  if s.job.jr.ctrlAddr = 0xFFFF then s
  else sendFrame s s.job.jr.ctrlAddr 0x5 (miss.headD 0 % 65536)
    (notice 4 0 0 (jobTag s) n r (miss.headD 0) 0 miss.length)

/-- A commit deadline of target n passes (R129, R122: once). For each owned rank not yet sealed: an incomplete batch is
a miss; a complete one whose seal is still held is watched by the safety controller (R550), as is a miss that no MISS
reports. A missed deadline triggers a wait-for graph while WFG_ENABLE is 1 (R606). -/
def passDeadline (s : M8) (idx n : Nat) : M8 :=
  if s.pav.passedDeadlines.contains (idx, n) then s else
  let s := { s with pav := { s.pav with passedDeadlines := (idx, n) :: s.pav.passedDeadlines } }
  (ownedRanks s).foldl (fun s r =>
    if sealedTo s n r || !targetMine s n r then s
    else if (missingSlots s n r).isEmpty then
      { s with safe := { s.safe with watches := { step := n, rank := r, time := s.clk.hclk } :: s.safe.watches } }
    else
      let s := missDeadline s n r
      let s := if odNat s Od.WFG_ENABLE = 1 && s.dbg.wfgTrigger.isNone then
        { s with dbg := { s.dbg with wfgTrigger := some (s.clk.now, 2) } } else s
      if s.job.jr.ctrlAddr = 0xFFFF then
        { s with safe := { s.safe with watches := { step := n, rank := r, time := s.clk.hclk } :: s.safe.watches } }
      else s) s

/-- The timebase has reached a commit deadline: the close point of a KIND 3 window (R129). -/
def commitDeadline (m : M8) (idx n : Nat) : M8 :=
  match windowOf m idx with
  | some w =>
    if w.kind = 3 && m.pav.running && (jobState m = 3 || jobState m = 4) && isTarget m n &&
        (m.pav.tb : Int) ≥ closePoint w n && !m.grp.fenced then passDeadline m idx n
    else m
  | none => m

/-- The targets n of the job whose point (n - off) * 65536 + pu lies above lo and at or below hi. -/
def targetsBetween (s : M8) (off pu lo hi : Nat) : List Nat :=
  let n0 := max s.job.jr.firstStep ((lo + off * 65536 - pu) / 65536)
  let n1 := min (lastTarget s) ((hi + off * 65536 - pu) / 65536)
  (List.range (n1 + 1 - n0)).map (· + n0) |>.filter fun n => lo < (n + 0) * 65536 + pu - off * 65536 && (n * 65536 + pu - off * 65536) ≤ hi

/-- What lies in the span a forward jump skips acts at once (R121): windows close and open, closes first, a window whose
both points were skipped has opened and closed; deadlines count as missed; latches fire. -/
def skipSpan (s : M8) (lo hi : Nat) : M8 :=
  let ws := (List.range s.job.img.windows.length).filterMap fun i => (windowOf s i).map fun w => (i, w)
  let s := ws.foldl (fun s iw => (targetsBetween s iw.2.closeOff iw.2.closePu lo hi).foldl (fun s n => closeWindow s iw.1 n) s) s
  let s := ws.foldl (fun s iw => (targetsBetween s iw.2.openOff iw.2.openPu lo hi).foldl (fun s n =>
    if committed s n then s else
    let s := openWindow s iw.1 n
    if closePoint iw.2 n ≤ (hi : Int) then closeWindow s iw.1 n else s) s) s
  let s := ws.foldl (fun s iw =>
    if iw.2.kind = 3 then (targetsBetween s iw.2.closeOff iw.2.closePu lo hi).foldl (fun s n => passDeadline s iw.1 n) s else s) s
  s.sync.foldl (fun s p =>
    if p.2.kind = 5 && !p.2.fired && p.2.value ≤ hi then releaseWaiters (setSync s p.1 { p.2 with fired := true }) p.1
    else s) s

/-- At the next local step boundary a pending jump takes the source's value projected to this hub clock; SLEW_LEFT
becomes 0 and JUMP_DONE is set (R120 to R122). -/
def hardJump (m : M8) : M8 :=
  match m.pav.jump with
  | some (t, v) =>
    if m.pav.running && m.pav.tb / 65536 > m.pav.jumpFrom / 65536 then
      let v' := v + (((m.clk.now - t) * 65536 * 65536 / max 1 m.pav.periodFx : Nat) : Int)
      let new := v'.toNat % 2 ^ 64
      let hi := m.pav.highest
      let m := { m with pav := { m.pav with tb := new, frac := 0, slewFx := 0, jump := none, highest := max hi new } }
      let m := pavEvent m 4
      if new > hi then skipSpan m hi new else m
    else m
  | none => m

/-! ### Transfers (R130, R131, R193) -/

/-- A transfer's duration in ns on a channel (R130): bytes at the declared rate, rounded up, plus the setup time. -/
def transferNs (s : M8) (channel bytes : Nat) : Nat :=
  ceilDiv (bytes * 1000000000) (max 1 (Config.channelRate s.job.img.proof channel)) +
    Config.channelSetup s.job.img.proof channel

/-- The ns that d pu of phase last at the current rate, slew included (R116, R130). -/
def phaseNs (s : M8) (d : Nat) : Nat :=
  let p := s.pav
  let ns := d * p.periodFx
  if p.slewFx > 0 then ns * 64 / 65 / 2 ^ 32 else if p.slewFx < 0 then ns * 64 / 63 / 2 ^ 32 else ns / 2 ^ 32

/-- Time left in a window of target n, in ns (R130). -/
def timeLeft (s : M8) (w : Window) (n : Nat) : Nat := phaseNs s (closePoint w n - (s.pav.tb : Int)).toNat

/-- The windows of a channel and KIND, with their table numbers. -/
def channelWindows (s : M8) (channel kind : Nat) : List (Nat × Window) :=
  (List.range s.job.img.windows.length).filterMap fun i =>
    (windowOf s i).bind fun w => if w.channel = channel && w.kind = kind then some (i, w) else none

/-- Does a transfer exceed the whole length of every window of its channel and KIND at the current period (R131)? -/
def tooLong (s : M8) (channel kind bytes : Nat) : Bool :=
  (channelWindows s channel kind).all fun iw =>
    transferNs s channel bytes > ((closePoint iw.2 0 - openPoint iw.2 0).toNat * s.pav.periodFx) / 2 ^ 32

/-- Does a point lie before the commit deadline of target n, the latest KIND 3 close point (R129, R130)? A program with no
KIND 3 window has no deadline. -/
def beforeDeadline (s : M8) (n : Nat) (x : Int) : Bool :=
  let ws := s.job.img.windows.filter fun w => w.valid && w.kind == 3
  ws.isEmpty || ws.any fun w => x < closePoint w n

/-- Is a window of its own target n no longer for a transfer that lasts ns (R130)? It has closed, or is open for less time
than that, or is still to open and does so at or after the commit deadline. -/
def windowSpent (s : M8) (idx : Nat) (w : Window) (n ns : Nat) : Bool :=
  match winRec s idx n with
  | some r => r.closed || timeLeft s w n < ns
  | none => closePoint w n ≤ (s.pav.tb : Int) || !beforeDeadline s n (openPoint w n)

/-- May a transfer of target n0 that lasts ns run in a window of target n (R130)? In a window of its own target; in another
only when every window of its own target is spent. -/
def targetAllowed (s : M8) (channel kind n0 n ns : Nat) : Bool :=
  n == n0 || (channelWindows s channel kind).all fun iw => windowSpent s iw.1 iw.2 n0 ns

/-- May a transfer of target n0 start in the open window w of target n: its target allows it and its duration is at most
the time left (R130)? -/
def fitsNow (s : M8) (w : Window) (channel kind n0 n bytes : Nat) : Bool :=
  let ns := transferNs s channel bytes
  !tooLong s channel kind bytes && targetAllowed s channel kind n0 n ns && ns ≤ timeLeft s w n

/-- Does a waiting transfer of the channel, of an older target than n0, that has been moved to this window of target n go
first (R130)? Moved work runs ahead of the window's own, oldest target first. -/
def olderFirst (s : M8) (w : Window) (channel kind n0 n : Nat) : Bool :=
  s.tiles.any fun p => p.2.st == .running && p.2.threads.any fun q => match q.2.wait with
    | .window bytes n1 k _ => q.2.channel == channel && k == kind && n1 < n0 && n1 != n && fitsNow s w channel kind n1 n bytes
    | _ => false

/-- A step-locked thread's transfer is admitted in an open window of its channel and KIND whose time left covers it
(R130, R193); when it exceeds every window TOO_LONG is set once for the transfer, and it stays eligible (R131;
assumption log 112). -/
def execTransferAdmit (t th idx n : Nat) (s : State) : Out :=
  live s fun m =>
    let y := getThread m t th
    match y.wait, windowOf m idx with
    | .window bytes n0 kind sd, some w =>
      if (getTile m t).st ≠ .running || !m.pav.running || m.grp.fenced then m
      else if tooLong m y.channel kind bytes then
        if y.told then m else setThread (pavEvent m 7) t th { y with told := true }
      else if w.channel = y.channel && w.kind = kind && windowOpen m idx n && fitsNow m w y.channel kind n0 n bytes &&
          !olderFirst m w y.channel kind n0 n then
        setThread m t th { (y.setReg sd (BitVec.ofNat 64 n)).advance with told := false }
      else m
    | _, _ => m

/-- WOPEN: a step-locked thread waits for admission of S[SA] bytes for target S[SB] in a window of KIND FUNC[1:0] of
its own channel; a free-class thread traps 0x0D (R193, R194). -/
def execWopen (t th : Nat) (f : RFields) (s : State) : Out :=
  reel s t th fun m y =>
    if y.locked then
      let m := modTile m t fun x => { x with lastIssue := th }
      setThread m t th { y with tstate := .waitWindow,
                                wait := .window (y.reg f.sa).toNat (y.reg f.sb).toNat (f.func % 4) f.sd }
    else trapHere m t th y 0x0D 0

end Machine
end Sys2Proof
end

