-- ==== Sys2Proof/Machine/Shuffle.lean ====
section
/-!
DEFINITION. Sys2Proof/Machine/Shuffle.lean: Quadrille, the keyed permutation of positions (R271 to R277), and the
Philox draws (R278 to R280).
-/
namespace Sys2Proof
namespace Machine

/-- mix64 (R272). -/
def mix64 (z : Word64) : Word64 :=
  let z := z ^^^ (z >>> 31)
  let z := z * 0x8C3A5E17B46D92F5#64
  let z := z ^^^ (z >>> 29)
  let z := z * 0xE7C13B59A2064D8B#64
  z ^^^ (z >>> 32)

/-- The round constant RC[i] (R272). -/
def qdrRc (i : Nat) : Word64 := BitVec.ofNat 64 (i + 1) * 0x9E3779B97F4A7C15#64

/-- S_lo: bytes 8 to 15 of the job record (R273). -/
def seedLo (seed : Nat) : Word64 := BitVec.ofNat 64 seed

/-- S_hi: bytes 16 to 23 of the job record (R273). -/
def seedHi (seed : Nat) : Word64 := BitVec.ofNat 64 (seed / 2 ^ 64)

/-- The tag T of the key derivations: a top byte, the dataset id and the epoch (R273, R279). -/
def keyTag (top datasetId epoch : Nat) : Word64 := BitVec.ofNat 64 (top * 2 ^ 56 + datasetId * 2 ^ 24 + epoch)

/-- The eight round keys of an epoch (R273). -/
def qdrKeys (seed datasetId epoch : Nat) : List Word64 :=
  let t := keyTag 0x51 datasetId epoch
  (List.range 8).map fun r =>
    mix64 (seedLo seed ^^^ qdrRc (2 * r)) ^^^ mix64 (seedHi seed ^^^ t ^^^ qdrRc (2 * r + 1))

/-- h = m / 2 for N samples: the least h of at least 1 with 4^h >= N (R271). -/
def qdrHalf (n : Nat) : Nat :=
  ((List.range 25).find? fun h => 1 ≤ h && n ≤ 4 ^ h).getD 24

/-- A round function's value: mix64 (half xor key), cut to h bits (R274). -/
def qdrF (h : Nat) (x : Nat) (k : Word64) : Nat := (mix64 (BitVec.ofNat 64 x ^^^ k)).toNat % 2 ^ h

/-- One pass over the round keys, (L, R) at a time (R274). -/
def feistelRounds (h : Nat) : List Word64 → Nat × Nat → Nat × Nat
  | [], x => x
  | k :: ks, (l, r) => feistelRounds h ks (r, l ^^^ qdrF h r k)

/-- feistel(x, K) (R274). -/
def feistel (h : Nat) (ks : List Word64) (x : Nat) : Nat :=
  let y := feistelRounds h ks (x / 2 ^ h, x % 2 ^ h)
  y.1 * 2 ^ h + y.2

/-- The rounds backwards, over the keys in reverse order (R275). -/
def feistelInvRounds (h : Nat) : List Word64 → Nat × Nat → Nat × Nat
  | [], x => x
  | k :: ks, (l, r) => feistelInvRounds h ks (r ^^^ qdrF h l k, l)

/-- feistel_inv(y, K) (R275). -/
def feistelInv (h : Nat) (ks : List Word64) (y : Nat) : Nat :=
  let x := feistelInvRounds h ks.reverse (y / 2 ^ h, y % 2 ^ h)
  x.1 * 2 ^ h + x.2

/-- Walk with g until the value is below n; the number of passes made is counted. fuel bounds the walk, which never
leaves a cycle of at most 2^m values (R276). -/
def qdrWalk (g : Nat → Nat) (n : Nat) : Nat → Nat → Nat → Nat × Nat
  | 0, x, c => (x, c)
  | f + 1, x, c => let y := g x; if y < n then (y, c + 1) else qdrWalk g n f y (c + 1)

/-- quadrille(epoch, pos) with its pass count (R274, R277). -/
def quadrilleP (seed datasetId n epoch pos : Nat) : Nat × Nat :=
  let h := qdrHalf n
  qdrWalk (feistel h (qdrKeys seed datasetId epoch)) n (4 ^ h) pos 0

/-- quadrille(epoch, pos) (R274). -/
def quadrille (seed datasetId n epoch pos : Nat) : Nat := (quadrilleP seed datasetId n epoch pos).1

/-- quadrille_inv(epoch, sample) (R275). -/
def quadrilleInv (seed datasetId n epoch sample : Nat) : Nat :=
  let h := qdrHalf n
  (qdrWalk (feistelInv h (qdrKeys seed datasetId epoch)) n (4 ^ h) sample 0).1

/-- Quadrille of the loaded job. -/
def jobQuadrille (s : M8) (epoch pos : Nat) : Nat :=
  quadrille s.job.jr.seed s.job.jr.datasetId s.job.sampleCount epoch pos

/-- The position of a sample in an epoch of the loaded job. -/
def jobPosition (s : M8) (epoch sample : Nat) : Nat :=
  quadrilleInv s.job.jr.seed s.job.jr.datasetId s.job.sampleCount epoch sample

/-- The batch offset of a sample in target step n, when it is in that batch (R146). -/
def offsetIn (s : M8) (n sample : Nat) : Option Nat :=
  match locate s n with
  | some (epoch, base) =>
    let p := jobPosition s epoch sample
    if sample < s.job.sampleCount && base ≤ p && p < base + s.job.jr.batch then some (p - base) else none
  | none => none

/-- The positions of a target step are evaluated when its fetch windows open: the passes count (R277, R290;
assumption log 22). -/
def evaluateStep (s : M8) (n : Nat) : M8 :=
  match locate s n with
  | some (epoch, base) =>
    odAdd s Od.QDR_PASSES ((List.range s.job.jr.batch).foldl (fun c q =>
      c + (quadrilleP s.job.jr.seed s.job.jr.datasetId s.job.sampleCount epoch (base + q)).2) 0)
  | none => s

/-- Has a fetch window opened for target n? -/
def fetchOpened (s : M8) (n : Nat) : Bool := s.pav.wins.any fun r => r.target == n && (windowOf s r.idx).any fun v => v.kind == 0

/-- The timebase has reached a window's open point for a target of the running job (R128, R145). While the job drains,
only targets whose fetch window has opened go on (R144; assumption log 37). -/
def execWindowOpen (idx n : Nat) (s : State) : Out :=
  live s fun m =>
    match windowOf m idx with
    | some w =>
      if m.pav.running && (jobState m = 3 || (jobState m = 4 && fetchOpened m n)) && isTarget m n && (m.pav.tb : Int) ≥ openPoint w n then
        let first := w.kind = 0 && !fetchOpened m n
        let m := openWindow m idx n
        if first then evaluateStep m n else m
      else m
    | none => m

/-! ### Philox-4x32-10 (R278) -/

/-- The four words of a draw. -/
structure Draw where
  w0 : Nat := 0
  w1 : Nat := 0
  w2 : Nat := 0
  w3 : Nat := 0
deriving DecidableEq, Repr

/-- One round (R278). -/
def philoxRound (c : Draw) (k0 k1 : Nat) : Draw :=
  let p0 := 0xD2511F53 * c.w0
  let p1 := 0xCD9E8D57 * c.w2
  ⟨(p1 / 2 ^ 32) ^^^ c.w1 ^^^ k0, p1 % 2 ^ 32, (p0 / 2 ^ 32) ^^^ c.w3 ^^^ k1, p0 % 2 ^ 32⟩

/-- Rounds with the key stepped before every round but the first (R278). -/
def philoxRounds : Nat → Nat → Nat → Draw → Draw
  | 0, _, _, c => c
  | n + 1, k0, k1, c =>
    philoxRounds n ((k0 + 0x9E3779B9) % 2 ^ 32) ((k1 + 0xBB67AE85) % 2 ^ 32) (philoxRound c k0 k1)

/-- philox(c0, c1, c2, c3, k0, k1) (R278). -/
def philox (c : Draw) (k0 k1 : Nat) : Draw := philoxRounds 10 k0 k1 c

/-- PK of philox_key (R279). -/
def philoxKey (seed datasetId epoch : Nat) : Nat :=
  (mix64 (seedLo seed ^^^ mix64 (seedHi seed ^^^ keyTag 0x50 datasetId epoch))).toNat

/-- Draw d of a sample for an operation and an epoch (R229, R279). -/
def drawOf (seed datasetId epoch sample opnum d : Nat) : Draw :=
  let pk := philoxKey seed datasetId epoch
  philox ⟨sample % 2 ^ 32, bits sample 47 32 + opnum * 2 ^ 16, d % 2 ^ 32, bits d 47 32⟩ (pk % 2 ^ 32) (pk / 2 ^ 32)

/-- uniform_int(w, n) (R229). -/
def uniformInt (w n : Nat) : Nat := w * n / 2 ^ 32

/-- uniform_fix(w, a, b) (R229). -/
def uniformFix (w a b : Nat) : Nat := a + (b - a) * w / 2 ^ 32

/-- chance(w, p) (R229). -/
def chance (w p : Nat) : Bool := w / 2 ^ 16 < p

end Machine
end Sys2Proof
end

