-- ==== Sys2Proof/Machine/Desc.lean ====
section
/-!
DEFINITION. Sys2Proof/Machine/Desc.lean: the dispatch descriptor (R198), its checks (R199, R225 to R229, R646) and the
limits of each primitive's PARAMS, and the byte extents a dispatch reads and writes (R228).
-/
namespace Sys2Proof
namespace Machine

/-! ### Addresses of a tile (R183, R184) -/

/-- The package address an address of tile t names: the local view's SRAM, sync objects and registers, or a package
address; none for a hole of the local view. -/
def localToPkg (t a : Nat) : Option Nat :=
  if a < 2 ^ 47 then some a
  else
    let o := a - 2 ^ 47
    if o < 0x1000000 then some (0x020000000000 + t * 0x1000000 + o)
    else if 0x1000000 ≤ o && o < 0x1010000 then some (0x020200000000 + t * 0x10000 + (o - 0x1000000))
    else if 0x2000000 ≤ o && o < 0x2010000 then some (0x030000000000 + t * 0x10000 + (o - 0x2000000))
    else none

/-- Is a package address in a tile SRAM's firmware reserve (R184)? -/
def inReserve (a : Nat) : Bool :=
  0x020000000000 ≤ a && a < 0x020040000000 && (a - 0x020000000000) % 0x1000000 ≥ 0xFC0000

/-- The memory cell a primitive item's access to address a reaches; none where its tile traps 0x04: a hole, or the
firmware reserve (R41, R184). Items reach memory alone (assumption log 23). -/
def cellKey (t a : Nat) : Option Nat :=
  match localToPkg t a with
  | some p => if inReserve p then none else memKey p
  | none => none

/-- n bytes at address a as a primitive item of tile t reads them; an inadmissible address is the error. -/
def cellRead (s : M8) (t : Nat) : Nat → Nat → Except Nat Bytes
  | _, 0 => .ok []
  | a, n + 1 =>
    match cellKey t a with
    | none => .error a
    | some k => match cellRead s t (a + 1) n with
      | .ok bs => .ok (Sparse.get (0 : Byte) s.mem k :: bs)
      | .error e => .error e

/-- A little-endian number of n bytes as an item reads it. -/
def cellNat (s : M8) (t a n : Nat) : Except Nat Nat :=
  match cellRead s t a n with
  | .ok b => .ok (leNat b)
  | .error e => .error e

/-- May an item write all n bytes at a? The first address it may not is the error. -/
def cellWritable (t : Nat) : Nat → Nat → Except Nat Unit
  | _, 0 => .ok ()
  | a, n + 1 => if (cellKey t a).isSome then cellWritable t (a + 1) n else .error a

/-- Write bytes as an item of tile t does. -/
def cellWrite (s : M8) (t a : Nat) (b : Bytes) : M8 :=
  match localToPkg t a with
  | some p => writeMem s p b
  | none => s

/-! ### Descriptors -/

/-- The common fields of a dispatch descriptor (R198). -/
structure Desc where
  prim : Nat := 0
  flags : Nat := 0
  items : Nat := 0
  inAddr : Nat := 0
  outAddr : Nat := 0
  inStride : Nat := 0
  outStride : Nat := 0
  sidx : Nat := 0
  epoch : Nat := 0
  opnum : Nat := 0
  p : Bytes := []
deriving DecidableEq, Repr

/-- The descriptor in 128 bytes (R198). -/
def descOf (b : Bytes) : Desc :=
  { prim := leField b 0 2, flags := leField b 2 1, items := leField b 4 4, inAddr := leField b 8 8, outAddr := leField b 16 8,
    inStride := leField b 24 4, outStride := leField b 28 4, sidx := leField b 32 8, epoch := leField b 40 3,
    opnum := leField b 44 2, p := slice b 64 64 }

/-- A field of PARAMS. -/
def Desc.par (d : Desc) (o k : Nat) : Nat := leField d.p o k

/-- STATUS_ADDR (R225). -/
def Desc.status (d : Desc) : Nat := d.par 0 8

/-- An image descriptor (R226). -/
structure Img where
  w : Nat := 0
  h : Nat := 0
  c : Nat := 0
  ty : Nat := 0
  rsv : Nat := 0
  row : Nat := 0
  plane : Nat := 0
deriving DecidableEq, Repr

/-- The image descriptor at an offset of PARAMS. -/
def Desc.img (d : Desc) (o : Nat) : Img :=
  { w := d.par o 2, h := d.par (o + 2) 2, c := d.par (o + 4) 1, ty := d.par (o + 5) 1, rsv := d.par (o + 6) 2,
    row := d.par (o + 8) 4, plane := d.par (o + 12) 4 }

/-- Element size of an image. -/
def Img.size (i : Img) : Nat := elemSize i.ty

/-- n is a multiple of k. -/
def mult (n k : Nat) : Bool := k != 0 && n % k == 0

/-- Does an image descriptor satisfy R226? -/
def Img.ok (i : Img) : Bool :=
  1 ≤ i.w && 1 ≤ i.h && 1 ≤ i.c && i.c ≤ 4 && imageType i.ty && i.rsv == 0 && i.w * i.size ≤ i.row && mult i.row i.size &&
    i.h * i.row ≤ i.plane && mult i.plane i.size

/-- Offset of element (p, y, x) of an image (R226). -/
def Img.off (i : Img) (p y x : Nat) : Nat := p * i.plane + y * i.row + x * i.size

/-- Bytes from the first to the last byte of an image (R228). -/
def Img.extent (i : Img) : Nat := i.off (i.c - 1) (i.h - 1) (i.w - 1) + i.size

/-- Are bytes lo .. 63 of PARAMS 0? -/
def Desc.zeroFrom (d : Desc) (lo : Nat) : Bool := (d.p.drop lo).all (· == 0#8)

/-- Is BANDS at an offset valid with the item count (R227)? -/
def Desc.bandsOk (d : Desc) (o : Nat) : Bool := 1 ≤ d.par o 2 && d.par o 2 ≤ 1024 && mult d.items (d.par o 2)

/-- Addresses and strides aligned to an element size (R226, R646). -/
def Desc.aligned (d : Desc) (inSize outSize : Nat) : Bool :=
  mult d.inAddr inSize && mult d.inStride inSize && mult d.outAddr outSize && mult d.outStride outSize

/-- The primitives (R224). -/
def isPrim (p : Nat) : Bool :=
  [0x0001, 0x0010, 0x0011, 0x0020, 0x0030, 0x0031, 0x0032, 0x0040, 0x0041, 0x0050, 0x0051, 0x0060, 0x0070].contains p

/-- The position of a primitive in the table of R224, which numbers its counter (R602). -/
def primIndex (p : Nat) : Nat :=
  ([0x0001, 0x0010, 0x0011, 0x0020, 0x0030, 0x0031, 0x0032, 0x0040, 0x0041, 0x0050, 0x0051, 0x0060, 0x0070].findIdx? (· == p)).getD 0

/-- Drawing primitives (R224). -/
def isDrawing (p : Nat) : Bool := p == 0x0031 || p == 0x0032 || p == 0x0040 || p == 0x0041

/-- Banded primitives and where BANDS stands in PARAMS (R227). -/
def bandsOff (p : Nat) : Option Nat :=
  if p = 0x0020 then some 46 else if p = 0x0030 || p = 0x0031 then some 50 else if p = 0x0040 then some 36
  else if p = 0x0041 then some 28 else if p = 0x0060 then some 48 else none

/-- BANDS, 1 for a primitive that is not banded. -/
def Desc.bands (d : Desc) : Nat :=
  match bandsOff d.prim with
  | some o => d.par o 2
  | none => 1

/-- U8 or U16. -/
def byteWord (ty : Nat) : Bool := ty == 0x00 || ty == 0x02

/-- Does TYPE fit PREC (8: U8, 12: U16)? Notes: assumption log 24. -/
def precFits (ty prec : Nat) : Bool := (prec == 8 && byteWord ty) || (prec == 12 && ty == 0x02)

/-- Same width, height, planes and type. -/
def Img.sameShape (a b : Img) : Bool := a.w == b.w && a.h == b.h && a.c == b.c && a.ty == b.ty

/-- GATE's PARAMS (R231); streams are those of the program. -/
def gateOk (streams : List StreamRec) (d : Desc) : Bool :=
  match streams[d.par 8 1]? with
  | some x => d.par 10 2 == 0 && (if x.kind = 0 then 64 + 8 + 16 * x.maxScans else 64) ≤ d.par 12 4 &&
      mult (d.par 24 8) 4 && mult (d.par 32 4) 4 && d.zeroFrom 36 && d.par 12 4 ≤ d.outStride
  | none => false

/-- CCONV's PARAMS (R241). -/
def cconvOk (d : Desc) : Bool :=
  let a := d.img 8
  let b := d.img 24
  let mode := d.par 40 1
  a.ok && b.ok && a.w == b.w && a.h == b.h && a.ty == b.ty && byteWord a.ty && mode ≤ 3 && d.par 41 1 ≤ 1 &&
  (d.par 42 1 == 1 || d.par 42 1 == 2) && (d.par 43 1 == 1 || d.par 43 1 == 2) && precFits a.ty (d.par 44 1) &&
  d.par 45 1 == 0 && d.bandsOk 46 && d.zeroFrom 48 && d.aligned a.size b.size &&
  (if mode = 0 then a.c == b.c else if mode = 1 then a.c == 3 && b.c == 3 else if mode = 2 then b.c == 1
   else a.c == 3 && d.par 42 1 == 1 && d.par 43 1 == 1 && b.c == 1)

/-- CROP_RESIZE's PARAMS (R244). -/
def cropOk (d : Desc) : Bool :=
  let a := d.img 8
  let b := d.img 24
  let cw := d.par 44 2
  let ch := d.par 46 2
  a.ok && b.ok && byteWord a.ty && a.ty == b.ty && a.c == b.c && 1 ≤ cw && 1 ≤ ch && d.par 40 2 + cw ≤ a.w && d.par 42 2 + ch ≤ a.h &&
  d.par 48 1 ≤ 2 && d.par 49 1 == 0 && d.bandsOk 50 && d.zeroFrom 52 && d.aligned a.size b.size &&
  (d.par 48 1 != 2 || (mult cw b.w && mult ch b.h && (cw / b.w) * (ch / b.h) ≤ 256))

/-- RAND_CROP's PARAMS (R246). -/
def randCropOk (d : Desc) : Bool :=
  let a := d.img 8
  let b := d.img 24
  a.ok && b.ok && byteWord a.ty && a.ty == b.ty && a.c == b.c && 0 < d.par 40 4 && d.par 40 4 ≤ d.par 44 4 && d.par 44 4 ≤ 0x10000 &&
  1 ≤ d.par 48 1 && d.par 48 1 ≤ d.par 49 1 && d.bandsOk 50 && d.par 52 1 ≤ 1 && 1 ≤ d.par 53 1 && d.par 53 1 ≤ 10 &&
  d.zeroFrom 54 && d.aligned a.size b.size

/-- FLIP_ROT's PARAMS (R247). -/
def flipOk (d : Desc) : Bool :=
  let a := d.img 8
  let b := d.img 24
  let r := d.par 44 1
  a.ok && b.ok && a.sameShape b && 1 ≤ r && r ≤ 15 && (!(r.testBit 1 || r.testBit 3) || a.w == a.h) && d.zeroFrom 45 &&
    d.aligned a.size b.size

/-- PHOTO's PARAMS (R248). -/
def photoOk (d : Desc) : Bool :=
  let a := d.img 8
  let lo := signed 16 (d.par 24 2)
  let hi := signed 16 (d.par 26 2)
  a.ok && a.ty == 0x00 && a.c == 3 && -255 ≤ lo && lo ≤ hi && hi ≤ 255 && d.par 28 2 ≤ d.par 30 2 && d.par 32 2 ≤ d.par 34 2 &&
    d.bandsOk 36 && d.zeroFrom 38

/-- NOISE's PARAMS (R249). -/
def noiseOk (d : Desc) : Bool :=
  let a := d.img 8
  a.ok && byteWord a.ty && d.bandsOk 28 && d.zeroFrom 30 && d.aligned a.size a.size

/-- RANGE_PROJ's PARAMS (R251, R253). -/
def rangeOk (d : Desc) : Bool :=
  let az := d.par 12 2
  let rows := d.par 14 2
  isPow2 az && 64 ≤ az && az ≤ 8192 && 1 ≤ rows && rows ≤ 256 && 2 * az ≤ d.par 24 4 && mult (d.par 24 4) 2 &&
    rows * d.par 24 4 ≤ d.par 28 4 && mult (d.par 28 4) 2 && mult (d.par 36 8) 8 && d.zeroFrom 44 && mult d.outAddr 2 &&
    d.inStride == 0 && d.outStride == 0 && ceilDiv (d.par 8 4) d.items ≤ 4096

/-- VOXEL's PARAMS (R253, R254). -/
def voxelOk (d : Desc) : Bool :=
  let nx := d.par 12 2
  let ny := d.par 14 2
  let nz := d.par 16 1
  1 ≤ nx && nx ≤ 1024 && 1 ≤ ny && ny ≤ 1024 && 1 ≤ nz && nz ≤ 64 && nx * ny * nz ≤ 16777216 && d.par 17 3 == 0 &&
    mult (d.par 20 8) 4 && 1 ≤ d.par 40 4 && 1 ≤ d.par 44 4 && d.zeroFrom 52 && mult d.outAddr 2 && d.inStride == 0 &&
    d.outStride == 0 && ceilDiv (d.par 8 4) d.items ≤ 4096

/-- NORM's PARAMS (R257). -/
def normOk (d : Desc) : Bool :=
  let a := d.img 8
  let b := d.img 24
  a.ok && b.ok && b.ty == 0x06 && a.w == b.w && a.h == b.h && a.c == b.c && mult (d.par 40 8) 4 && d.bandsOk 48 && d.zeroFrom 50 &&
    d.aligned a.size b.size

/-- CHECK's PARAMS (R258). -/
def checkOk (d : Desc) : Bool :=
  let ty := d.par 8 1
  imageType ty && d.par 9 3 == 0 && 1 ≤ d.par 12 4 && d.zeroFrom 32 &&
    (ty != 0x06 || (d.par 20 4 == 0 && d.par 28 4 == 0)) && mult d.inAddr (elemSize ty) && mult d.inStride (elemSize ty)

/-- JPEG_DECODE's PARAMS (R237). -/
def jpegOk (d : Desc) : Bool :=
  let a := d.img 16
  d.inStride == 0 && a.ok && byteWord a.ty && d.zeroFrom 32 && mult d.outAddr a.size && mult d.outStride a.size

/-- IDCT8's PARAMS (R240). -/
def idctOk (d : Desc) : Bool :=
  let sz := if d.par 16 1 = 8 then 1 else 2
  128 ≤ d.inStride && (d.par 16 1 == 8 || d.par 16 1 == 12) && d.par 17 3 == 0 && mult (d.par 8 8) 2 && 8 * sz ≤ d.par 20 4 &&
    mult (d.par 20 4) sz && d.zeroFrom 24 && d.aligned 2 sz

/-- The check of R199: everything the descriptor's own bytes must satisfy. -/
def descOk (streams : List StreamRec) (b : Bytes) : Bool :=
  let d := descOf b
  isPrim d.prim && d.flags ≤ 1 && leField b 3 1 == 0 && 1 ≤ d.items && d.items ≤ 65536 && leField b 43 1 == 0 &&
  ((b.drop 46).take 18).all (· == 0#8) &&
  (if isDrawing d.prim then d.sidx != 0 && mult d.sidx 8 else d.sidx == 0 && d.epoch == 0 && d.opnum == 0) &&
  mult d.status 4 && (d.status != 0 || !(d.prim == 0x0001 || d.prim == 0x0010 || d.prim == 0x0070)) &&
  (if d.prim = 0x0001 then gateOk streams d
   else if d.prim = 0x0010 then jpegOk d
   else if d.prim = 0x0011 then idctOk d
   else if d.prim = 0x0020 then cconvOk d
   else if d.prim = 0x0030 then cropOk d
   else if d.prim = 0x0031 then randCropOk d
   else if d.prim = 0x0032 then flipOk d
   else if d.prim = 0x0040 then photoOk d
   else if d.prim = 0x0041 then noiseOk d
   else if d.prim = 0x0050 then rangeOk d
   else if d.prim = 0x0051 then voxelOk d
   else if d.prim = 0x0060 then normOk d
   else checkOk d)

/-! ### Extents (R228) -/

/-- A byte extent: first address and length. -/
abbrev Ext := Nat × Nat

/-- The band of rows of an image of height h: first row, one past the last (R227). -/
def bandRows (h bands b : Nat) : Nat × Nat := (b * h / bands, (b + 1) * h / bands)

/-- The extents of rows y0 .. y1 - 1 of every plane of an image at a: each row's elements, one extent for rows that follow
one another without a gap (R228, assumption log 109). -/
def rowExtents (i : Img) (a y0 y1 : Nat) : List Ext :=
  (List.range i.c).flatMap fun p =>
    if i.row = i.w * i.size then (if y1 ≤ y0 then [] else [(a + i.off p y0 0, (y1 - y0) * i.row)])
    else (List.range (y1 - y0)).map fun k => (a + i.off p (y0 + k) 0, i.w * i.size)

/-- The images a banded dispatch works on. -/
def Desc.images (d : Desc) : Nat := d.items / max 1 d.bands

/-- The output image descriptor of an image primitive. -/
def Desc.outImg (d : Desc) : Img :=
  if d.prim = 0x0010 then d.img 16 else if d.prim = 0x0040 || d.prim = 0x0041 then d.img 8 else d.img 24

/-- Output extents other than the status words (R228). -/
def outExtents (d : Desc) : List Ext :=
  let per (g : Nat → List Ext) : List Ext := (List.range d.items).flatMap g
  if d.prim = 0x0001 then per fun i => [(d.outAddr + i * d.outStride, d.par 12 4)]
  else if d.prim = 0x0010 then [(d.outAddr, (d.img 16).extent)]
  else if d.prim = 0x0011 then
    let sz := if d.par 16 1 = 8 then 1 else 2
    per fun i => [(d.outAddr + i * d.outStride, 7 * d.par 20 4 + 8 * sz)]
  else if d.prim = 0x0032 then per fun i => [(d.outAddr + i * d.outStride, (d.img 24).extent)]
  else if d.prim = 0x0050 then
    let az := d.par 12 2
    let rows := d.par 14 2
    (List.range 3).map (fun p => (d.outAddr + p * d.par 28 4, (rows - 1) * d.par 24 4 + 2 * az)) ++ [(d.par 36 8, 8 * rows * az)]
  else if d.prim = 0x0051 then [(d.outAddr, 6 * (d.par 12 2 * d.par 14 2 * d.par 16 1))]
  else if d.prim = 0x0070 then []
  else per fun i =>
    let y := bandRows d.outImg.h d.bands (i % max 1 d.bands)
    rowExtents d.outImg (d.outAddr + i / max 1 d.bands * d.outStride) y.1 y.2

/-- The status words (R225). -/
def statusExtent (d : Desc) : List Ext := if d.status = 0 then [] else [(d.status, 4 * d.items)]

/-- Input extents that an in-place output may equal: the input image of each item's image, with the item (R228). -/
def imageInputs (d : Desc) : List Ext :=
  (List.range d.images).map fun i => (d.inAddr + i * d.inStride, (d.img 8).extent)

/-- The other input extents (R228). maxCoded is MAX_CODED of GATE's stream; gateLen is the length of JPEG_DECODE's gate
record. -/
def otherInputs (d : Desc) (maxCoded gateLen : Nat) : List Ext :=
  let per (g : Nat → List Ext) : List Ext := (List.range d.items).flatMap g
  let sidx := if d.sidx = 0 then [] else [(d.sidx, 8 * d.items)]
  sidx ++
  (if d.prim = 0x0001 then
     per (fun i => [(d.inAddr + i * d.inStride, maxCoded), (d.par 24 8 + i * d.par 32 4, 4)]) ++ [(d.par 16 8, 16 * d.items)]
   else if d.prim = 0x0010 then [(d.inAddr, gateLen)]
   else if d.prim = 0x0011 then
     per (fun i => [(d.inAddr + i * d.inStride, 128)]) ++ (if d.par 8 8 = 0 then [] else [(d.par 8 8, 128)])
   else if d.prim = 0x0050 then [(d.inAddr, 8 * d.par 8 4), (d.par 16 8, 256)]
   else if d.prim = 0x0051 then [(d.inAddr, 8 * d.par 8 4), (d.par 20 8, 3072)]
   else if d.prim = 0x0060 then [(d.par 40 8, 8 * (d.img 8).c)]
   else if d.prim = 0x0070 then per fun i => [(d.inAddr + i * d.inStride, d.par 12 4 * elemSize (d.par 8 1))]
   else [])

/-- Is the dispatch an exact in-place one (R228)? -/
def exactInPlace (d : Desc) : Bool :=
  d.inAddr == d.outAddr && d.inStride == d.outStride &&
    (d.prim == 0x0040 || d.prim == 0x0041 || (d.prim == 0x0060 && d.img 8 = d.img 24))

/-- The pieces of an extent as memory holds them: the local view as package addresses, the interleaved view split into
its pages. -/
def extPieces (t : Nat) (e : Ext) : List Ext :=
  match localToPkg t e.1 with
  | none => []
  | some a =>
    if 0x010000000000 ≤ a && a < 0x020000000000 then
      let off := a - 0x010000000000
      (List.range ((off + e.2 - 1) / 4096 + 1 - off / 4096)).filterMap fun k =>
        let lo := max off ((off / 4096 + k) * 4096)
        let hi := min (off + e.2) ((off / 4096 + k + 1) * 4096)
        (hbmInterleaved lo).map fun p => (p, hi - lo)
    else [(a, e.2)]

/-- Do two extents overlap? -/
def extOverlap (a b : Ext) : Bool := a.2 != 0 && b.2 != 0 && a.1 < b.1 + b.2 && b.1 < a.1 + a.2

/-- Does any pair of distinct positions of a list overlap? -/
def anyOverlap : List Ext → Bool
  | [] => false
  | e :: r => r.any (extOverlap e) || anyOverlap r

/-- The rule of R228 on the extents of a dispatch of tile t. In place, the output of an item's image is its input image: no
other output may meet it, so it counts whole. -/
def extentsOk (t : Nat) (d : Desc) (maxCoded gateLen : Nat) : Bool :=
  let pc (l : List Ext) := l.flatMap (extPieces t)
  let outs := pc (if exactInPlace d then imageInputs d else outExtents d)
  let stat := pc (statusExtent d)
  let usesImage := [0x0020, 0x0030, 0x0031, 0x0032, 0x0040, 0x0041, 0x0060].contains d.prim
  let inImages := if usesImage then pc (imageInputs d) else []
  let inputs := pc (otherInputs d maxCoded gateLen)
  !anyOverlap (outs ++ stat) && !(inputs.any fun i => (outs ++ stat).any (extOverlap i)) &&
    !(inImages.any fun i => stat.any (extOverlap i)) &&
    (exactInPlace d || !(inImages.any fun i => outs.any (extOverlap i)))

end Machine
end Sys2Proof
end

