-- ==== Sys2Proof/Machine/Codec.lean ====
section
/-!
DEFINITION. Sys2Proof/Machine/Codec.lean: the predictive codec (R300 to R317): prediction, symbols, code tables, the
choice of a block's coding, the stream, and one call of a compression or decompression job.
-/
namespace Sys2Proof
namespace Machine

/-- Element width in bits (R300). -/
def cdcBits (ty : Nat) : Nat := 8 * elemSize ty

/-- map_f32 for F32, nothing for the others (R300). -/
def cdcMap (ty x : Nat) : Nat :=
  if ty = 0x06 then (if x.testBit 31 then 2 ^ 32 - 1 - x % 2 ^ 32 else x % 2 ^ 32 + 2 ^ 31) else x

/-- unmap_f32 (R300). -/
def cdcUnmap (ty u : Nat) : Nat :=
  if ty = 0x06 then (if u.testBit 31 then u % 2 ^ 31 else 2 ^ 32 - 1 - u) else u

/-- Are elements compared as signed values (R300)? -/
def cdcSigned (ty : Nat) : Bool := ty == 0x03 || ty == 0x05

/-- The value of an element for comparisons and for AVG. -/
def cdcVal (ty x : Nat) : Int := if cdcSigned ty then signed (cdcBits ty) x else (x : Int)

/-- Is a mode allowed for a plane and type (R302)? -/
def modeAllowed (ty plane mode : Nat) : Bool :=
  mode ≤ 5 || (mode == 6 && 1 ≤ plane) || (mode == 7 && byteWord ty)

/-- MED (R302). -/
def predMed (ty a b c : Nat) : Int :=
  let x := cdcVal ty a
  let y := cdcVal ty b
  let z := cdcVal ty c
  if z ≥ max x y then min x y else if z ≤ min x y then max x y else x + y - z

/-- AVG (R302): floor of the half sum. -/
def predAvg (ty a b : Nat) : Int := (cdcVal ty a + cdcVal ty b) / 2

/-- The prediction of a mode from a, b, c and, for INTER, p and pa (R302). -/
def predict (ty mode a b c p pa : Nat) : Int :=
  if mode = 0 then 0
  else if mode = 1 then a
  else if mode = 2 then b
  else if mode = 3 then predAvg ty a b
  else if mode = 4 then (a : Int) + b - c
  else if mode = 5 then predMed ty a b c
  else if mode = 6 then (a : Int) + p - pa
  else if a ≠ 0 && b ≠ 0 && c ≠ 0 then predMed ty a b c
  else if a ≠ 0 && b ≠ 0 then predAvg ty a b
  else if a ≠ 0 then a
  else if b ≠ 0 then b
  else 0

/-- The neighbours a, b, c of element i of a block of width w whose elements up to i - 1 are known (R301). -/
def neighbours (e : Array Nat) (w i : Nat) : Nat × Nat × Nat :=
  let y := i / w
  let x := i % w
  if y = 0 && x = 0 then (0, 0, 0)
  else if y = 0 then let a := e.getD (i - 1) 0; (a, a, a)
  else if x = 0 then let b := e.getD (i - w) 0; (b, b, b)
  else (e.getD (i - 1) 0, e.getD (i - w) 0, e.getD (i - w - 1) 0)

/-- The prediction of element i; prev holds the same rows of the previous plane. -/
def predictAt (ty mode w : Nat) (e prev : Array Nat) (i : Nat) : Int :=
  let (a, b, c) := neighbours e w i
  let p := prev.getD i 0
  let pa := if i % w = 0 then p else prev.getD (i - 1) 0
  predict ty mode a b c p pa

/-- The folded residue z (R303). -/
def residue (n x : Nat) (pred : Int) : Nat :=
  let s := signed n (unsigned n ((x : Int) - pred))
  if s ≥ 0 then 2 * s.toNat else 2 * s.natAbs - 1

/-- The element a residue gives back (R303). -/
def unresidue (n z : Nat) (pred : Int) : Nat :=
  let s : Int := if z % 2 = 0 then ((z / 2 : Nat) : Int) else -(((z + 1) / 2 : Nat) : Int)
  unsigned n (pred + s)

/-- The class of z (R303). -/
def zClass (z : Nat) : Nat := if z = 0 then 0 else z.log2 + 1

/-- A symbol with its extra bits: symbol, value, count of bits (R303, R304). -/
structure Token where
  sym : Nat
  extra : Nat
  bits : Nat
deriving DecidableEq, Repr

/-- How many leading zeros, at most 65,535. -/
def zeroRun : Nat → List Nat → Nat
  | 0, _ => 0
  | f + 1, z :: zs => if z = 0 then zeroRun f zs + 1 else 0
  | _, [] => 0

/-- tokens(block) (R304); fuel bounds the count. -/
def tokens : Nat → List Nat → List Token
  | 0, _ => []
  | _, [] => []
  | f + 1, z :: zs =>
    let l := zeroRun 65535 (z :: zs)
    if l ≥ 2 then
      let j := l.log2
      ⟨32 + j, l - 2 ^ j, j⟩ :: tokens f ((z :: zs).drop l)
    else
      let k := zClass z
      ⟨k, if k ≥ 2 then z - 2 ^ (k - 1) else 0, k - 1⟩ :: tokens f zs

/-- The lengths of the static table (R306). -/
def staticLens : List Nat :=
  [2, 2, 3, 3, 4, 5, 6, 7, 8, 9] ++ List.replicate 23 13 ++ [4, 5, 6, 7, 8, 9] ++ List.replicate 9 13

/-- A code: symbol, length, value. -/
structure Code where
  sym : Nat
  len : Nat
  val : Nat
deriving DecidableEq, Repr

/-- Canonical codes in order of length, then symbol (R306): each is the previous plus 1, shifted to its length. -/
def canonGo : List (Nat × Nat) → Nat → Nat → List Code
  | [], _, _ => []
  | (s, l) :: r, code, len =>
    let c := code * 2 ^ (l - len)
    ⟨s, l, c⟩ :: canonGo r (c + 1) l

/-- The canonical codes of a list of lengths by symbol. -/
def canonical (lens : List Nat) : List Code :=
  let ps := (List.range lens.length).map fun s => (s, lens.getD s 0)
  canonGo ((List.range 16).flatMap fun l => if l = 0 then [] else ps.filter fun p => p.2 == l) 0 0

/-- Is a dynamic table valid (R307)? -/
def dynValid (lens : List Nat) : Bool :=
  let used := lens.filter (· != 0)
  (used.foldl (fun n l => n + 2 ^ (15 - l)) 0 == 2 ^ 15) || used == [1]

/-- A node of the tree of R308: weight, lowest symbol, and its leaves. -/
structure HNode where
  w : Nat
  low : Nat
  leaves : List Nat
deriving DecidableEq, Repr

/-- Insert by key (weight, lowest symbol). -/
def hInsert (x : HNode) : List HNode → List HNode
  | [] => [x]
  | y :: r => if x.w < y.w || (x.w = y.w && x.low < y.low) then x :: y :: r else y :: hInsert x r

/-- Merge until one node is left; each merge puts its leaves one deeper (R308). -/
def hMerge : Nat → List HNode → List Nat → List Nat
  | 0, _, lens => lens
  | f + 1, x :: y :: r, lens =>
    let ls := x.leaves ++ y.leaves
    hMerge f (hInsert ⟨x.w + y.w, min x.low y.low, ls⟩ r) ((List.range lens.length).map fun s => lens.getD s 0 + b2n (ls.contains s))
  | _, _, lens => lens

/-- dyn_lengths(f) (R308); fuel bounds the halvings. -/
def dynLens : Nat → List Nat → List Nat
  | 0, f => f.map fun _ => 0
  | k + 1, f =>
    let used := (List.range f.length).filter fun s => f.getD s 0 > 0
    if used.length = 1 then f.map fun x => if x > 0 then 1 else 0
    else
      let lens := hMerge 64 (used.foldl (fun q s => hInsert ⟨f.getD s 0, s, [s]⟩ q) []) (f.map fun _ => 0)
      if lens.all (· ≤ 15) then lens else dynLens k (f.map fun x => (x + 1) / 2)

/-- Symbol counts of a block. -/
def symCounts (ts : List Token) : List Nat := (List.range 48).map fun s => (ts.filter fun t => t.sym == s).length

/-- Payload bits of a block under code lengths. -/
def payloadBits (lens : List Nat) (ts : List Token) : Nat := ts.foldl (fun n t => n + lens.getD t.sym 0 + t.bits) 0

/-- n bits of v, most significant first. -/
def bitsMsb (v n : Nat) : List Bool := (List.range n).map fun i => v.testBit (n - 1 - i)

/-- Bytes of a bit string, most significant bit first, padded with 0 (R305); fuel bounds the count. -/
def packMsb : Nat → List Bool → Bytes
  | 0, _ => []
  | f + 1, bs =>
    if bs.isEmpty then [] else
    let h := bs.take 8 ++ List.replicate (8 - (bs.take 8).length) false
    BitVec.ofNat 8 (h.foldl (fun n b => 2 * n + b2n b) 0) :: packMsb f (bs.drop 8)

/-- The payload of a block (R305). -/
def payload (lens : List Nat) (ts : List Token) : Bytes :=
  let codes := canonical lens
  let bs := ts.flatMap fun t =>
    let c := (codes.find? fun c => c.sym == t.sym).getD ⟨0, 0, 0⟩
    bitsMsb c.val c.len ++ bitsMsb t.extra t.bits
  packMsb (bs.length / 8 + 1) bs

/-- The bytes of a dynamic table (R307). -/
def dynBytes (lens : List Nat) : Bytes :=
  (List.range 24).map fun k => BitVec.ofNat 8 (lens.getD (2 * k) 0 + 16 * lens.getD (2 * k + 1) 0)

/-- A candidate coding of a block: mode, whether the table is dynamic, its lengths, its size in bytes, its tokens. -/
structure Coding where
  mode : Nat
  dyn : Bool
  lens : List Nat
  size : Nat
  toks : List Token
deriving DecidableEq, Repr

/-- The folded residues of a block under a mode. -/
def blockResidues (ty mode w : Nat) (e prev : Array Nat) : List Nat :=
  (List.range e.size).map fun i => residue (cdcBits ty) (e.getD i 0) (predictAt ty mode w e prev i)

/-- The codings EFFORT tries for a mode: static first, then dynamic (R309). -/
def codingsOf (ty effort mode w : Nat) (e prev : Array Nat) : List Coding :=
  let ts := tokens (e.size + 1) (blockResidues ty mode w e prev)
  let st : Coding := ⟨mode, false, staticLens, 16 + ceilDiv (payloadBits staticLens ts) 8, ts⟩
  if effort = 0 then [st]
  else
    let dl := dynLens 70 (symCounts ts)
    [st, ⟨mode, true, dl, 40 + ceilDiv (payloadBits dl ts) 8, ts⟩]

/-- The smallest coding; the first of equals stays (R309). -/
def bestCoding : List Coding → Option Coding
  | [] => none
  | c :: r => match bestCoding r with
    | some d => if d.size < c.size then some d else some c
    | none => some c

/-- Geometry and settings of a stream (R310). -/
structure CStream where
  ty : Nat := 0
  w : Nat := 1
  h : Nat := 1
  c : Nat := 1
  effort : Nat := 0
  rows : Nat := 1
  hints : Nat := 0
deriving DecidableEq, Repr

/-- ULEN. -/
def CStream.ulen (g : CStream) : Nat := g.w * g.h * g.c * elemSize g.ty

/-- Do the settings satisfy R309 and R310 for their tensor? -/
def CStream.ok (g : CStream) : Bool :=
  imageType g.ty && 1 ≤ g.w && g.w ≤ 65535 && 1 ≤ g.h && g.h ≤ 65535 && 1 ≤ g.c && g.c ≤ 4 && g.effort ≤ 2 && 1 ≤ g.rows && g.rows ≤ 255 &&
    g.rows * g.w * elemSize g.ty ≤ 262144 &&
    (List.range g.c).all fun p => modeAllowed g.ty p (bits g.hints (4 * p + 3) (4 * p))

/-- The stream header (R310). -/
def CStream.header (g : CStream) : Bytes :=
  let b := natLe 2 0x4350 ++ natLe 1 1 ++ natLe 1 g.ty ++ natLe 2 g.w ++ natLe 2 g.h ++ natLe 1 g.c ++ natLe 1 g.rows ++
    natLe 1 g.effort ++ zeros 1 ++ natLe 4 g.ulen ++ natLe 2 g.hints ++ zeros 10
  b ++ natLe 4 (crc32c b)

/-- A block header (R311). -/
def blockHeader (mode plane row0 nrows len : Nat) (last flushed dyn raw : Bool) : Bytes :=
  natLe 1 (mode * 16 + b2n last * 8 + b2n flushed * 4 + b2n dyn * 2 + b2n raw) ++ natLe 1 plane ++ natLe 2 row0 ++ natLe 2 nrows ++
    zeros 2 ++ natLe 4 len ++ zeros 4

/-- The whole bytes of a block of nrows rows from row0 of a plane (R309, R311): elem gives the mapped element of a plane
at its position in the plane. -/
def encodeBlock (g : CStream) (elem : Nat → Nat → Nat) (plane row0 nrows : Nat) (last flushed : Bool) : Bytes :=
  let n := nrows * g.w
  let rowsOf (p : Nat) : Array Nat := ((List.range n).map fun i => elem p (row0 * g.w + i)).toArray
  let e := rowsOf plane
  let prev := if plane = 0 then #[] else rowsOf (plane - 1)
  let modes := if g.effort = 2 then (List.range 8).filter (modeAllowed g.ty plane) else [bits g.hints (4 * plane + 3) (4 * plane)]
  let raw := n * elemSize g.ty
  match bestCoding (modes.flatMap fun m => codingsOf g.ty g.effort m g.w e prev) with
  | some c =>
    if c.size < 16 + raw then
      let pl := payload c.lens c.toks
      blockHeader c.mode plane row0 nrows pl.length last flushed c.dyn false ++ (if c.dyn then dynBytes c.lens else []) ++ pl
    else blockHeader 0 plane row0 nrows raw last flushed false true ++ e.toList.flatMap fun x => natLe (elemSize g.ty) (cdcUnmap g.ty x)
  | none => []

/-- Progress of a job (R313): next plane and row, header written or read, last block done. -/
structure CState where
  plane : Nat := 0
  row : Nat := 0
  header : Bool := false
  last : Bool := false
deriving DecidableEq, Repr

/-- What a call ends with: STATUS, CONSUMED, the bytes it produced (compression), PRODUCED, the new state. -/
structure CResult where
  status : Nat := 0
  consumed : Nat := 0
  produced : Nat := 0
  out : Bytes := []
  st : CState := {}
deriving DecidableEq, Repr

/-- The blocks of a compression call (R314, R315); avail counts elements from the tensor's start. fuel bounds them. -/
def compressBlocks (g : CStream) (elem : Nat → Nat → Nat) (avail cap : Nat) (flush end_ : Bool) :
    Nat → CResult → CResult
  | 0, r => { r with status := 0x01 }
  | f + 1, r =>
    if r.st.last then { r with status := 0x00 }
    else
      let full := min g.rows (g.h - r.st.row)
      let start := (r.st.plane * g.h + r.st.row) * g.w
      let complete := start + full * g.w ≤ avail
      let part := (avail - start) / g.w
      if !complete && !(flush && 0 < part && start < avail) then { r with status := 0x01 }
      else
        let n := if complete then full else part
        let planeEnds := r.st.row + n = g.h
        let last := end_ && planeEnds && r.st.plane + 1 = g.c
        let b := encodeBlock g elem r.st.plane r.st.row n last (!complete)
        if r.out.length + b.length > cap then { r with status := 0x02 }
        else if planeEnds && r.st.plane + 1 = g.c && !end_ then { r with status := 0x01 }
        else compressBlocks g elem avail cap flush end_ f
          { r with out := r.out ++ b, consumed := r.consumed + n * g.w,
                   st := { r.st with plane := if planeEnds then r.st.plane + 1 else r.st.plane,
                                     row := if planeEnds then 0 else r.st.row + n, last := last } }

/-- One compression call (R314, R315). -/
def compressCall (g : CStream) (elem : Nat → Nat → Nat) (avail cap : Nat) (flush end_ : Bool) (st : CState) : CResult :=
  let r : CResult := { st := st }
  let r := if st.header then r
    else if cap < 32 then { r with status := 0x02 }
    else { r with out := g.header, st := { st with header := true } }
  let r := if r.status = 0x02 then r else compressBlocks g elem avail cap flush end_ (g.h * g.c + 1) r
  { r with produced := r.out.length }

/-! ### Decompression (R312, R316) -/

/-- Read n bits, most significant first. -/
def takeBits : Nat → Nat → List Bool → Option (Nat × List Bool)
  | 0, acc, bs => some (acc, bs)
  | _ + 1, _, [] => none
  | n + 1, acc, b :: bs => takeBits n (2 * acc + b2n b) bs

/-- Read one code. -/
def takeCode (codes : List Code) : Nat → Nat → Nat → List Bool → Option (Nat × List Bool)
  | 0, _, _, _ => none
  | _ + 1, _, _, [] => none
  | f + 1, len, val, b :: bs =>
    let v := 2 * val + b2n b
    match codes.find? fun c => c.len == len + 1 && c.val == v with
    | some c => some (c.sym, bs)
    | none => takeCode codes f (len + 1) v bs

/-- Decode the residues of a block: exactly count of them (R312). -/
def takeResidues (codes : List Code) (n : Nat) : Nat → Nat → List Bool → Option (List Nat × List Bool)
  | 0, count, bs => if count = 0 then some ([], bs) else none
  | f + 1, count, bs =>
    if count = 0 then some ([], bs)
    else match takeCode codes 16 0 0 bs with
      | none => none
      | some (sym, bs) =>
        if sym ≤ 32 then
          if sym > n then none
          else match takeBits (sym - 1) 0 bs with
            | none => none
            | some (x, bs) =>
              let z := if sym = 0 then 0 else if sym = 1 then 1 else 2 ^ (sym - 1) + x
              match takeResidues codes n f (count - 1) bs with
              | some (zs, bs) => some (z :: zs, bs)
              | none => none
        else match takeBits (sym - 32) 0 bs with
          | none => none
          | some (x, bs) =>
            let l := 2 ^ (sym - 32) + x
            if l > count then none
            else match takeResidues codes n f (count - l) bs with
              | some (zs, bs) => some (List.replicate l 0 ++ zs, bs)
              | none => none

/-- The mapped elements residues give back, in order (R303). -/
def rebuild (ty mode w : Nat) (prev : Array Nat) : List Nat → Array Nat → Array Nat
  | [], e => e
  | z :: zs, e => rebuild ty mode w prev zs (e.push (unresidue (cdcBits ty) z (predictAt ty mode w e prev e.size)))

/-- The bits of bytes, most significant first. -/
def bitsOfBytes (b : Bytes) : List Bool := b.flatMap fun x => bitsMsb x.toNat 8

/-- The lengths a dynamic table gives (R307). -/
def dynLensOf (b : Bytes) : List Nat := b.flatMap fun x => [x.toNat % 16, x.toNat / 16]

/-- Is a stream header valid and equal to the expected geometry (R310, R316)? -/
def headerOk (b : Bytes) (ty w h c : Nat) : Bool :=
  leField b 0 2 == 0x4350 && leField b 2 1 == 1 && leField b 3 1 == ty && leField b 4 2 == w && leField b 6 2 == h && leField b 8 1 == c &&
    leField b 11 1 == 0 && leField b 12 4 == w * h * c * elemSize ty && ((b.drop 18).take 10).all (· == 0#8) &&
    leField b 28 4 == crc32c (b.take 28) &&
    ({ ty := ty, w := w, h := h, c := c, effort := leField b 10 1, rows := leField b 9 1, hints := leField b 16 2 : CStream }).ok

/-- Does a block header stand where the state says and obey R311 and R312? rows is BLOCK_ROWS, 0 where the
header was read by an earlier call (assumption log 29). -/
def blockOk (b : Bytes) (ty w h c rows : Nat) (st : CState) : Bool :=
  let fl := leField b 0 1
  let n := leField b 4 2
  let stop := leField b 2 2 + n
  let raw := fl.testBit 0
  leField b 1 1 == st.plane && leField b 2 2 == st.row && leField b 6 2 == 0 && leField b 12 4 == 0 && 1 ≤ n && n ≤ (if rows = 0 then 255 else rows) && stop ≤ h &&
    (rows == 0 || n == rows || stop == h || fl.testBit 2) && (!fl.testBit 2 || ((rows == 0 || n < rows) && stop < h)) &&
    (fl.testBit 3 == (stop == h && st.plane + 1 == c)) && modeAllowed ty st.plane (fl / 16) &&
    (!raw || (fl / 16 == 0 && !fl.testBit 1 && leField b 8 4 == n * w * elemSize ty))

/-- The elements of a block from its header, table and payload, or the failing status (R312, R317). -/
def decodeBlock (b : Bytes) (ty w : Nat) (prev : Array Nat) : Except Nat (List Nat) :=
  let fl := leField b 0 1
  let n := leField b 4 2 * w
  let dyn := fl.testBit 1
  let lens := if dyn then dynLensOf ((b.drop 16).take 24) else staticLens
  let body := (b.drop (if dyn then 40 else 16)).take (leField b 8 4)
  if fl.testBit 0 then .ok ((chunks (elemSize ty) body).map fun x => cdcMap ty (leNat x))
  else if dyn && !dynValid lens then .error 0x13
  else match takeResidues (canonical lens) (cdcBits ty) (n + 1) n (bitsOfBytes body) with
    | some (zs, rest) =>
      if rest.length < 8 && rest.all (!·) then .ok (rebuild ty (fl / 16) w prev zs #[]).toList else .error 0x14
    | none => .error 0x14

/-- What a decompression call has written: the tensor bytes by offset from its base. -/
structure DResult where
  status : Nat := 0
  consumed : Nat := 0
  writes : List (Nat × Bytes) := []
  produced : Nat := 0
  st : CState := {}
deriving DecidableEq, Repr

/-- The blocks of a decompression call (R316): input bytes left, BLOCK_ROWS, the tensor read back through old (mapped
element by its index in the tensor) and what this call has decoded, newest first. fuel bounds the blocks. -/
def decompressBlocks (ty w h c rows cap : Nat) (old : Nat → Nat) : Nat → Bytes → List (Nat × List Nat) → DResult → DResult
  | 0, _, _, r => { r with status := 0x01 }
  | f + 1, inp, done, r =>
    if r.st.last then { r with status := 0x00 }
    else if inp.length < 16 then { r with status := 0x01 }
    else if !blockOk inp ty w h c rows r.st then { r with status := 0x12 }
    else
      let fl := leField inp 0 1
      let total := 16 + (if fl.testBit 1 then 24 else 0) + leField inp 8 4
      let n := leField inp 4 2
      let first := (r.st.plane * h + r.st.row) * w
      if inp.length < total then { r with status := 0x01 }
      else if (first + n * w) * elemSize ty > cap then { r with status := 0x02 }
      else
        let known (i : Nat) : Nat :=
          match done.find? fun d => d.1 ≤ i && i < d.1 + d.2.length with
          | some d => d.2.getD (i - d.1) 0
          | none => old i
        let prev := if r.st.plane = 0 then #[] else ((List.range (n * w)).map fun i => known (first - h * w + i)).toArray
        match decodeBlock (inp.take total) ty w prev with
        | .error e => { r with status := e }
        | .ok es =>
          let bytes := es.flatMap fun x => natLe (elemSize ty) (cdcUnmap ty x)
          let ends := r.st.row + n = h
          decompressBlocks ty w h c rows cap old f (inp.drop total) ((first, es) :: done)
            { r with consumed := r.consumed + total, writes := r.writes ++ [(first * elemSize ty, bytes)],
                     produced := r.produced + bytes.length,
                     st := { r.st with plane := if ends then r.st.plane + 1 else r.st.plane,
                                       row := if ends then 0 else r.st.row + n, last := fl.testBit 3 } }

/-- One decompression call (R316). rows is 0: BLOCK_ROWS of a header an earlier call has read is not known
(assumption log 29). -/
def decompressCall (ty w h c rows cap : Nat) (old : Nat → Nat) (inp : Bytes) (st : CState) : DResult :=
  if st.header then decompressBlocks ty w h c rows cap old (h * c + 1) inp [] { st := st }
  else if inp.length < 32 then { status := 0x01, st := st }
  else if !headerOk inp ty w h c then { status := 0x11, st := st }
  else decompressBlocks ty w h c (leField inp 9 1) cap old (h * c + 1) (inp.drop 32) []
    { st := { st with header := true }, consumed := 32 }

/-- Decompress a whole stream of n bytes into a tensor (R325). -/
def decompressAll (ty w h c : Nat) (inp : Bytes) : DResult :=
  decompressCall ty w h c 0 (w * h * c * elemSize ty) (fun _ => 0) inp {}

end Machine
end Sys2Proof
end

