-- ==== Sys2Proof/Machine/Prims.lean ====
section
/-!
DEFINITION. Sys2Proof/Machine/Prims.lean: what one work item of each primitive computes (R231 to R258). An item answers
the writes it makes and its status, or the address at which its tile traps 0x04 (R41).
-/
namespace Sys2Proof
namespace Machine

/-- What an item does: the bytes it writes and its status (R225). -/
structure ItemOut where
  writes : List (Nat × Bytes) := []
  status : Nat := 0
deriving DecidableEq, Repr

/-- Element (p, y, x) of an image at a (R226). -/
def pixel (s : M8) (t a : Nat) (i : Img) (p y x : Nat) : Except Nat Nat := cellNat s t (a + i.off p y x) i.size

/-- The rows y0 .. y1 - 1 of every plane of an output image at a, element by element from g. -/
def writeRows (i : Img) (a y0 y1 : Nat) (g : Nat → Nat → Nat → Except Nat Nat) : Except Nat ItemOut := do
  let rows := (List.range i.c).flatMap fun p => (List.range (y1 - y0)).map fun k => (p, y0 + k)
  let ws ← rows.mapM fun r => do
    let es ← (List.range i.w).mapM fun x => g r.1 r.2 x
    .ok (a + i.off r.1 r.2 0, es.flatMap (natLe i.size))
  .ok { writes := ws }

/-- The images and rows of banded item k: input address, output address, first and last row (R227). -/
def Desc.band (d : Desc) (k : Nat) : Nat × Nat × Nat × Nat :=
  let n := k / max 1 d.bands
  let y := bandRows d.outImg.h d.bands (k % max 1 d.bands)
  (d.inAddr + n * d.inStride, d.outAddr + n * d.outStride, y.1, y.2)

/-- i clamped to 0 .. hi. -/
def clampN (i : Int) (hi : Nat) : Nat := if i < 0 then 0 else if i > (hi : Int) then hi else i.toNat

/-! ### CCONV (R241 to R243) -/

/-- A chroma element brought to full size (R242); g reads an element of the subsampled plane, w and h its size. -/
def upChroma (linear : Bool) (hs vs w h j x : Nat) (g : Nat → Nat → Except Nat Nat) : Except Nat Int :=
  if !linear then do
    let v ← g (j / vs) (x / hs)
    .ok (v : Int)
  else do
    let col (k : Int) : Except Nat Int := do
      let kx := clampN k (w - 1)
      if vs = 2 then
        let i := j / 2
        let nr := if j % 2 = 0 then (i : Int) - 1 else (i : Int) + 1
        let a ← g (clampN i (h - 1)) kx
        let b ← g (clampN nr (h - 1)) kx
        .ok (3 * (a : Int) + (b : Int))
      else
        let a ← g (clampN j (h - 1)) kx
        .ok (4 * (a : Int))
    if hs = 2 then
      let m := x / 2
      let nc := if x % 2 = 0 then (m : Int) - 1 else (m : Int) + 1
      let a ← col m
      let b ← col nc
      .ok (sarI (3 * a + b + 8) 4)
    else
      let a ← col x
      .ok (sarI (4 * a + 8) 4)

/-- CCONV (R241 to R243). -/
def cconvItem (s : M8) (t : Nat) (d : Desc) (k : Nat) : Except Nat ItemOut :=
  let i := d.img 8
  let o := d.img 24
  let (a, b, y0, y1) := d.band k
  let mode := d.par 40 1
  let hs := d.par 42 1
  let vs := d.par 43 1
  let m : Int := (2 ^ (d.par 44 1 - 1) : Nat)
  let top : Int := (2 ^ d.par 44 1 - 1 : Nat)
  let plane (p y x : Nat) : Except Nat Int :=
    if p = 0 || (hs = 1 && vs = 1) then do
      let v ← pixel s t a i p y x
      .ok (v : Int)
    else upChroma (d.par 41 1 == 1) hs vs (ceilDiv i.w hs) (ceilDiv i.h vs) y x (pixel s t a i p)
  let out (v : Int) : Nat := (clampI v 0 top).toNat
  writeRows o b y0 y1 fun p y x =>
    if mode = 0 then do
      let v ← plane p y x
      .ok v.toNat
    else if mode = 2 then do
      let v ← plane 0 y x
      .ok (out v)
    else if mode = 3 then do
      let r ← plane 0 y x
      let g ← plane 1 y x
      let bl ← plane 2 y x
      .ok (out (sarI (19595 * r + 38470 * g + 7471 * bl + 32768) 16))
    else do
      let yy ← plane 0 y x
      let cb ← plane 1 y x
      let cr ← plane 2 y x
      .ok (out (if p = 0 then yy + sarI (91881 * (cr - m) + 32768) 16
        else if p = 1 then yy + sarI (-22554 * (cb - m) - 46802 * (cr - m) + 32768) 16
        else yy + sarI (116130 * (cb - m) + 32768) 16))

/-! ### CROP_RESIZE and RAND_CROP (R244 to R246) -/

/-- A crop. -/
structure Crop where
  x0 : Nat
  y0 : Nat
  cw : Nat
  ch : Nat
deriving DecidableEq, Repr

/-- src_x: integer coordinate and 8-bit weight (R245). -/
def srcCoord (c0 cn nOut x : Nat) : Nat × Nat :=
  let step := cn * 65536 / nOut
  let sx : Int := (c0 * 65536 + x * step + step / 2 : Nat) - (32768 : Int)
  let sx := (clampI sx (c0 * 65536 : Nat) ((c0 + cn - 1) * 65536 : Nat)).toNat
  (sx / 65536, sx / 256 % 256)

/-- The column a nearest filter takes (R245). -/
def nearCoord (c0 cn nOut x : Nat) : Nat :=
  let step := cn * 65536 / nOut
  (c0 * 65536 + x * step + step / 2) / 65536

/-- One output element of a resize (R245); g reads an input element (y, x). -/
def resizeElem (filter : Nat) (c : Crop) (wOut hOut y x : Nat) (g : Nat → Nat → Except Nat Nat) : Except Nat Nat :=
  if filter = 0 then g (nearCoord c.y0 c.ch hOut y) (nearCoord c.x0 c.cw wOut x)
  else if filter = 1 then do
    let (ix, fx) := srcCoord c.x0 c.cw wOut x
    let (iy, fy) := srcCoord c.y0 c.ch hOut y
    let nx := min (ix + 1) (c.x0 + c.cw - 1)
    let ny := min (iy + 1) (c.y0 + c.ch - 1)
    let a ← g iy ix
    let b ← g iy nx
    let cc ← g ny ix
    let dd ← g ny nx
    let h0 := a * (256 - fx) + b * fx
    let h1 := cc * (256 - fx) + dd * fx
    .ok ((h0 * (256 - fy) + h1 * fy + 32768) / 65536)
  else do
    let k := c.cw / wOut
    let j := c.ch / hOut
    let es ← ((List.range j).flatMap fun v => (List.range k).map fun u => (v, u)).mapM fun q =>
      g (c.y0 + y * j + q.1) (c.x0 + x * k + q.2)
    .ok ((es.foldl (· + ·) 0 + k * j / 2) / (k * j))

/-- A resize of one banded item under a crop. -/
def resizeItem (s : M8) (t : Nat) (d : Desc) (k filter : Nat) (c : Crop) : Except Nat ItemOut :=
  let i := d.img 8
  let o := d.img 24
  let (a, b, y0, y1) := d.band k
  writeRows o b y0 y1 fun p y x => resizeElem filter c o.w o.h y x (pixel s t a i p)

/-- CROP_RESIZE (R244). -/
def cropItem (s : M8) (t : Nat) (d : Desc) (k : Nat) : Except Nat ItemOut :=
  resizeItem s t d k (d.par 48 1) ⟨d.par 40 2, d.par 42 2, d.par 44 2, d.par 46 2⟩

/-- isqrt over the bits left, from the highest (R246). -/
def isqrtBits : Nat → Nat → Nat → Nat
  | 0, _, r => r
  | b + 1, n, r => if (r + 2 ^ b) * (r + 2 ^ b) ≤ n then isqrtBits b n (r + 2 ^ b) else isqrtBits b n r

/-- isqrt(n): the largest integer whose square does not exceed n (R246). -/
def isqrt (n : Nat) : Nat := isqrtBits (n.log2 / 2 + 1) n 0

/-- The sample index of item k (R198, R279). -/
def itemSample (s : M8) (t : Nat) (d : Desc) (k : Nat) : Except Nat Nat := do
  let v ← cellNat s t (d.sidx + 8 * k) 8
  .ok (v % 2 ^ 48)

/-- Draw n of an item's sample (R229). -/
def itemDraw (s : M8) (d : Desc) (sample n : Nat) : Draw :=
  drawOf s.job.jr.seed s.job.jr.datasetId d.epoch sample d.opnum n

/-- rand_crop over the tries left (R246). -/
def randCropFuel (s : M8) (d : Desc) (sample w h : Nat) : Nat → Nat → Crop
  | 0, _ => ⟨0, 0, w, h⟩
  | f + 1, n =>
    let r := itemDraw s d sample n
    let sc := uniformFix r.w0 (d.par 40 4) (d.par 44 4)
    let ra := uniformFix r.w1 (d.par 48 1) (d.par 49 1)
    let a := w * h * sc / 65536
    let cw := isqrt (a * ra / 16)
    let ch := isqrt (a * 16 / ra)
    if 1 ≤ cw && cw ≤ w && 1 ≤ ch && ch ≤ h then ⟨uniformInt r.w2 (w - cw + 1), uniformInt r.w3 (h - ch + 1), cw, ch⟩
    else randCropFuel s d sample w h f (n + 1)

/-- RAND_CROP (R246). -/
def randCropItem (s : M8) (t : Nat) (d : Desc) (k : Nat) : Except Nat ItemOut := do
  let sample ← itemSample s t d k
  resizeItem s t d k (d.par 52 1) (randCropFuel s d sample (d.img 8).w (d.img 8).h (d.par 53 1) 0)

/-! ### FLIP_ROT (R247) -/

/-- The n-th set bit of a 4-bit mask, counting from bit 0. -/
def nthSetBit (mask n : Nat) : Nat := ((List.range 4).filter fun b => mask.testBit b).getD n 0

/-- FLIP_ROT (R247): flips first, horizontal before vertical, then a counter-clockwise rotation. -/
def flipItem (s : M8) (t : Nat) (d : Desc) (k : Nat) : Except Nat ItemOut := do
  let i := d.img 8
  let sample ← itemSample s t d k
  let r := itemDraw s d sample 0
  let hf := chance r.w0 (d.par 40 2)
  let vf := chance r.w1 (d.par 42 2)
  let rots := d.par 44 1
  let rot := nthSetBit rots (uniformInt r.w2 (popcount 4 rots))
  let flipped (p y x : Nat) : Except Nat Nat :=
    pixel s t (d.inAddr + k * d.inStride) i p (if vf then i.h - 1 - y else y) (if hf then i.w - 1 - x else x)
  writeRows (d.img 24) (d.outAddr + k * d.outStride) 0 i.h fun p y x =>
    if rot = 0 then flipped p y x
    else if rot = 1 then flipped p x (i.w - 1 - y)
    else if rot = 2 then flipped p (i.h - 1 - y) (i.w - 1 - x)
    else flipped p (i.h - 1 - x) y

/-! ### PHOTO and NOISE (R248, R249) -/

/-- PHOTO (R248). -/
def photoItem (s : M8) (t : Nat) (d : Desc) (k : Nat) : Except Nat ItemOut := do
  let i := d.img 8
  let (a, b, y0, y1) := d.band k
  let sample ← itemSample s t d k
  let r := itemDraw s d sample 0
  let bMin := signed 16 (d.par 24 2)
  let bMax := signed 16 (d.par 26 2)
  let br := bMin + (uniformInt r.w0 (bMax - bMin + 1).toNat : Int)
  let c : Int := uniformFix r.w1 (d.par 28 2) (d.par 30 2)
  let sa : Int := uniformFix r.w2 (d.par 32 2) (d.par 34 2)
  let cl (v : Int) : Int := clampI v 0 255
  let v2 (p y x : Nat) : Except Nat Int := do
    let v ← pixel s t a i p y x
    let v1 := cl ((v : Int) + br)
    .ok (cl (128 + sarI ((v1 - 128) * c + 128) 8))
  writeRows i b y0 y1 fun p y x => do
    let r2 ← v2 0 y x
    let g2 ← v2 1 y x
    let b2 ← v2 2 y x
    let g := cl (sarI (77 * r2 + 150 * g2 + 29 * b2 + 128) 8)
    let v := if p = 0 then r2 else if p = 1 then g2 else b2
    .ok (cl (g + sarI ((v - g) * sa + 128) 8)).toNat

/-- NOISE (R249). -/
def noiseItem (s : M8) (t : Nat) (d : Desc) (k : Nat) : Except Nat ItemOut := do
  let i := d.img 8
  let (a, b, y0, y1) := d.band k
  let sample ← itemSample s t d k
  let mul : Int := d.par 24 4
  writeRows i b y0 y1 fun p y x => do
    let v ← pixel s t a i p y x
    let e := (p * i.h + y) * i.w + x
    let r := itemDraw s d sample (e / 2)
    let wa := if e % 2 = 0 then r.w0 else r.w2
    let wb := if e % 2 = 0 then r.w1 else r.w3
    let n : Int := ((wa / 65536 + wa % 65536 + wb / 65536 + wb % 65536 : Nat) : Int) - 131070
    .ok (clampI ((v : Int) + sarI (n * mul + 2 ^ 23) 24) 0 (2 ^ (8 * i.size) - 1 : Nat)).toNat

/-! ### Range scans (R250 to R256) -/

/-- A PP8 point (R250). -/
structure Point where
  range : Nat
  az : Nat
  beam : Nat
  inten : Nat
  flags : Nat
  ret : Nat
deriving DecidableEq, Repr

/-- Point j of a sample at address a (R250). -/
def pointAt (s : M8) (t a j : Nat) : Except Nat Point := do
  let b ← cellRead s t (a + 8 * j) 8
  .ok ⟨leField b 0 2, leField b 2 2, leField b 4 1, leField b 5 1, leField b 6 1, leField b 7 1⟩

/-- The points of item k: the first, and how many (R251). -/
def itemPoints (d : Desc) (k : Nat) : Nat × Nat :=
  let count := d.par 8 4
  let lo := k * count / max 1 d.items
  (lo, (k + 1) * count / max 1 d.items - lo)

/-- An update an item hands to the scatter unit (R253): pixel or voxel, a key or height, and the rest. -/
structure Update where
  at_ : Nat
  key : Nat
  payload : Nat
deriving DecidableEq, Repr

/-- RANGE_PROJ's updates: the key of R252, and intensity, FLAGS and RETURN. -/
def rangeUpdates (s : M8) (t : Nat) (d : Desc) (k : Nat) : Except Nat (List Update) := do
  let (lo, n) := itemPoints d k
  let az := d.par 12 2
  let us ← ((List.range n).map (· + lo)).mapM fun j => do
    let p ← pointAt s t d.inAddr j
    let row ← cellNat s t (d.par 16 8 + p.beam) 1
    .ok (if p.range = 0 || p.range < d.par 32 2 || p.range > d.par 34 2 || row = 0xFF || row ≥ d.par 14 2 then none
      else some (⟨row * az + p.az * az / 65536, p.range * 2 ^ 32 + j, p.inten + p.flags * 2 ^ 8 + p.ret * 2 ^ 16⟩ : Update))
  .ok (us.filterMap id)

/-- pi in units of 2^-100. -/
def piFx : Nat := 3982441812995697363688351113952

/-- Taylor terms of the sine of x (units of 2^-100) from term tm on. -/
def sinTerms (x2 : Int) : Nat → Nat → Int → Int → Int
  | 0, _, _, acc => acc
  | f + 1, k, tm, acc =>
    let tm' := (-tm) * x2 / 2 ^ 100 / ((2 * k) * (2 * k + 1) : Nat)
    sinTerms x2 f (k + 1) tm' (acc + tm')

/-- T[i], the nearest integer to 2^30 * sin(2 pi i / 65536) (R255). -/
def sinT (i : Nat) : Int :=
  let x : Int := (piFx * 2 * i / 65536 : Nat)
  sarI (sinTerms (x * x / 2 ^ 100) 20 1 x x + 2 ^ 69) 70

/-- sin of a 16-bit azimuth in Q1.30 (R255). -/
def sinAz (a : Nat) : Int :=
  let q := a / 16384 % 4
  let i := a % 16384
  if q = 0 then sinT i else if q = 1 then sinT (16384 - i) else if q = 2 then -sinT i else -sinT (16384 - i)

/-- cos of a 16-bit azimuth (R255). -/
def cosAz (a : Nat) : Int := sinAz ((a + 16384) % 65536)

/-- VOXEL's updates: the voxel, the height above its floor clamped to 65,535, and the intensity (R254 to R256). -/
def voxelUpdates (s : M8) (t : Nat) (d : Desc) (k : Nat) : Except Nat (List Update) := do
  let (lo, n) := itemPoints d k
  let nx := d.par 12 2
  let ny := d.par 14 2
  let nz := d.par 16 1
  let us ← ((List.range n).map (· + lo)).mapM fun j => do
    let p ← pointAt s t d.inAddr j
    let tr ← cellRead s t (d.par 20 8 + 12 * p.beam) 12
    let ce := signed 32 (leField tr 0 4)
    let se := signed 32 (leField tr 4 4)
    let r8 : Int := (p.range * 256 : Nat)
    let h := sarI (r8 * ce + 2 ^ 29) 30
    let x := sarI (h * cosAz p.az + 2 ^ 29) 30
    let y := sarI (h * sinAz p.az + 2 ^ 29) 30
    let z := sarI (r8 * se + 2 ^ 29) 30 + signed 32 (d.par 48 4)
    let ix := (x - signed 32 (d.par 28 4)) / (d.par 40 4 : Nat)
    let iy := (y - signed 32 (d.par 32 4)) / (d.par 40 4 : Nat)
    let iz := (z - signed 32 (d.par 36 4)) / (d.par 44 4 : Nat)
    let height := z - (signed 32 (d.par 36 4) + iz * (d.par 44 4 : Nat))
    .ok (if p.range = 0 || leField tr 8 4 = 1 || ix < 0 || ix ≥ (nx : Int) || iy < 0 || iy ≥ (ny : Int) || iz < 0 || iz ≥ (nz : Int)
      then none
      else some (⟨(iz.toNat * ny + iy.toNat) * nx + ix.toNat, (clampI height 0 65535).toNat, p.inten⟩ : Update))
  .ok (us.filterMap id)

/-! ### NORM and CHECK (R257, R258) -/

/-- NORM (R257). -/
def normItem (s : M8) (t : Nat) (d : Desc) (k : Nat) : Except Nat ItemOut :=
  let i := d.img 8
  let (a, b, y0, y1) := d.band k
  writeRows (d.img 24) b y0 y1 fun p y x => do
    let v ← pixel s t a i p y x
    let sc ← cellNat s t (d.par 40 8 + 8 * p) 4
    let bi ← cellNat s t (d.par 40 8 + 8 * p + 4) 4
    .ok (fma32 (toF32 i.ty v) (.ofF32 sc) (.ofF32 bi))

/-- a <= b of exact values; false with a NaN. -/
def FVal.le (a b : FVal) : Bool :=
  match a, b with
  | .nan _, _ => false
  | _, .nan _ => false
  | .inf n, .inf m => n || !m
  | .inf n, _ => n
  | _, .inf m => !m
  | .fin n1 m1 e1, .fin n2 m2 e2 =>
    let e := min e1 e2
    atExp n1 m1 e1 e ≤ atExp n2 m2 e2 e

/-- Does an element lie within the bounds of CHECK (R258)? -/
def withinBounds (ty raw lo hi : Nat) : Bool :=
  if ty = 0x06 then FVal.le (.ofF32 lo) (.ofF32 raw) && FVal.le (.ofF32 raw) (.ofF32 hi)
  else
    let v : Int := if ty = 0x03 then signed 16 raw else if ty = 0x05 then signed 32 raw else raw
    signed 64 lo ≤ v && v ≤ signed 64 hi

/-- CHECK (R258). -/
def checkItem (s : M8) (t : Nat) (d : Desc) (k : Nat) : Except Nat ItemOut := do
  let ty := d.par 8 1
  let w := if ty = 0x06 then 4 else 8
  let oks ← (List.range (d.par 12 4)).mapM fun j => do
    let v ← cellNat s t (d.inAddr + k * d.inStride + j * elemSize ty) (elemSize ty)
    .ok (withinBounds ty v (d.par 16 w) (d.par 24 w))
  .ok { status := if oks.all id then 0 else 0x42 }

/-! ### IDCT8 and JPEG_DECODE (R237 to R240) -/

/-- IDCT8 (R240). -/
def idctItem (s : M8) (t : Nat) (d : Desc) (k : Nat) : Except Nat ItemOut := do
  let b ← cellRead s t (d.inAddr + k * d.inStride) 128
  let q ← if d.par 8 8 = 0 then .ok ((List.range 64).map fun _ => 1) else do
    let qb ← cellRead s t (d.par 8 8) 128
    .ok ((chunks 2 qb).map leNat)
  let f := (List.range 64).map fun n => signed 16 (leField b (2 * n) 2) * ((q.getD n 1 : Nat) : Int)
  let out := idct8 f (d.par 16 1)
  let sz := if d.par 16 1 = 8 then 1 else 2
  .ok { writes := (List.range 8).map fun y =>
    (d.outAddr + k * d.outStride + y * d.par 20 4, ((out.drop (8 * y)).take 8).flatMap (natLe sz)) }

/-- The samples of rows y0 .. y1 - 1 of component ci, written to its plane (R237). -/
def componentRows (x : JDec) (fr : JFrame) (i : Img) (a ci y0 y1 : Nat) : List (Nat × Bytes) :=
  let c := fr.comps.getD ci {}
  let w := fr.compW c
  let bw := (x.planes.getD ci {}).bw
  (List.range (y1 - y0)).map fun k =>
    let y := y0 + k
    let row := (List.range (ceilDiv w 8)).flatMap fun bx => ((blockSamples x fr ci (y / 8 * bw + bx)).drop (8 * (y % 8))).take 8
    (a + i.off ci y 0, (row.take w).flatMap (natLe i.size))

/-- JPEG_DECODE of the extent ext: item k decodes segments k, k + ITEMS, ... of the gate record rec (R237). -/
def jpegItem (d : Desc) (k : Nat) (rec ext : Bytes) (maxScans : Nat) : ItemOut :=
  let x := jpegDecode ext maxScans
  let segs := leField rec 12 2
  let size := 8 + 16 * leField rec 7 1
  let mine := (List.range segs).filter fun j => j % max 1 d.items = k
  if mine.isEmpty then {}
  else if x.err ≠ 0 then { status := x.err }
  else match x.frame with
    | none => { status := 0x40 }
    | some fr =>
      let i := d.img 16
      { writes := mine.flatMap fun j =>
          let r0 := leField rec (64 + j * size) 2
          let n := leField rec (66 + j * size) 2
          (List.range fr.comps.length).flatMap fun ci =>
            let c := fr.comps.getD ci {}
            componentRows x fr i d.outAddr ci (min (fr.compH c) (r0 * 8 * c.v)) (min (fr.compH c) ((r0 + n) * 8 * c.v)) }

/-! ### GATE (R231 to R234) -/

/-- What a GATE item finds: a gate record, or a reason and the byte offset of the failing check. -/
inductive GateRes where
  | pass (rec : Bytes)
  | fail (reason offset : Nat)
deriving DecidableEq, Repr

/-- The declared fields of a KIND 1 extent, checked in ascending order (R154). -/
def checkFields (ext : Bytes) : Nat → List FieldDesc → Option (Nat × Nat)
  | _, [] => none
  | k, f :: fs =>
    let v := leField ext f.offset f.size
    if v > f.max then some (0x20 + k, f.offset)
    else if v < f.min then some (0x28 + k, f.offset)
    else checkFields ext (k + 1) fs

/-- The gatekeeper on a KIND 1 extent of len bytes whose first bytes are ext (R154, R233). -/
def gateKind1 (x : StreamRec) (len : Nat) (ext : Bytes) : GateRes :=
  if x.fields.any fun f => len < f.offset + f.size then .fail 0x01 len
  else match checkFields ext 0 x.fields with
    | some (r, o) => .fail r o
    | none =>
      let product := x.fields.foldl (fun p f => if f.inProduct = 1 then p * leField ext f.offset f.size else p) 1
      if product * x.elemDecoded > x.maxDecoded then .fail 0x15 x.payloadOff
      else if x.payloadOff + product * x.elemStored > len then .fail 0x31 len
      else .pass (zeros 24 ++ natLe 8 (min product (2 ^ 64 - 1)) ++
        (List.range 8).flatMap fun k => match x.fields[k]? with
          | some f => natLe 4 (min (leField ext f.offset f.size) (2 ^ 32 - 1))
          | none => zeros 4)

/-- The SAMPLING bit a frame uses, when R153 names it (R236). -/
def samplingBit (fr : JFrame) : Option Nat :=
  match fr.comps with
  | [] => none
  | c :: cs =>
    if cs.all (fun k => k.h == 1 && k.v == 1) then
      (if c.h = 1 && c.v = 1 then some 0 else if c.h = 2 && c.v = 1 then some 1 else if c.h = 1 && c.v = 2 then some 2
       else if c.h = 2 && c.v = 2 then some 3 else none)
    else none

/-- A resume record (R234). -/
def resumeBytes (r : Resume) : Bytes :=
  natLe 4 r.pos ++ natLe 1 r.bit ++ zeros 1 ++ natLe 2 r.eobrun ++
    (List.range 4).flatMap fun k => natLe 2 (unsigned 16 (r.preds.getD k 0))

/-- The first rows of the segments for BAND_ROWS br (R234). -/
def segRows (x : JDec) (fr : JFrame) (br : Nat) : List Nat :=
  ((List.range (ceilDiv fr.vMcus (max 1 br))).map (· * max 1 br)).filter fun r =>
    r == 0 || (x.err == 0 && (fr.process != 2 || x.scans.all fun rs => (rs.getD r {}).fresh))

/-- BAND_ROWS doubled until the index fits (R234). -/
def fitRows (x : JDec) (fr : JFrame) (room : Nat) : Nat → Nat → Nat
  | 0, br => br
  | f + 1, br =>
    if (segRows x fr br).length * (8 + 16 * x.scans.length) ≤ room then br else fitRows x fr room f (2 * br)

/-- The gate record of a JPEG frame (R233, R234). -/
def gateRecord (x : JDec) (fr : JFrame) (bandRows cap sampling : Nat) : Bytes :=
  let br := fitRows x fr (cap - 64) 20 (if bandRows = 0 then max 1 fr.vMcus else bandRows)
  let rows := segRows x fr br
  let head := natLe 2 fr.width ++ natLe 2 fr.height ++ natLe 1 fr.comps.length ++ natLe 1 fr.prec ++ natLe 1 fr.process ++
    natLe 1 (min 255 x.scans.length) ++ natLe 2 fr.hMcus ++ natLe 2 fr.vMcus ++ natLe 2 rows.length ++ natLe 1 sampling ++
    natLe 1 (b2n (x.err != 0) + 2 * b2n (x.restarts || x.t.ri != 0)) ++ natLe 2 x.t.ri ++ zeros 46
  head ++ (List.range rows.length).flatMap fun j =>
    let r := rows.getD j 0
    let next := rows.getD (j + 1) fr.vMcus
    natLe 2 r ++ natLe 2 (next - r) ++ zeros 4 ++ x.scans.flatMap fun rs => resumeBytes (rs.getD r {})

/-- The gatekeeper and the index pass on a KIND 0 extent (R154, R232 to R236). -/
def gateKind0 (x : StreamRec) (bandRows cap : Nat) (ext : Bytes) : GateRes :=
  let len := ext.length
  let limit := min (x.hdrLimit * 16) len
  let d := (ext.map (·.toNat)).toArray
  if jByte d 0 ≠ 0xFF || jByte d 1 ≠ 0xD8 then .fail 0x01 0
  else
    let ms := headerMarkers d limit limit 2
    match ms.find? fun m => isSof m.1 with
    | none => .fail 0x01 limit
    | some (sof, at_, body) =>
      let bad := ms.find? fun m => !markerOk m.1 || (isSof m.1 && m.2.1 != at_)
      let badProcess := match sofProcess sof with
        | some p => !x.process.testBit p
        | none => true
      match bad, badProcess, frameOf ((sofProcess sof).getD 0) body with
      | some m, true, _ => .fail 0x02 (min m.2.1 at_)
      | some m, false, _ => .fail 0x02 m.2.1
      | none, true, _ => .fail 0x02 at_
      | none, false, none => .fail 0x01 limit
      | none, false, some fr =>
        let precOk := (fr.prec == 8 && x.precision.testBit 0) || (fr.prec == 12 && x.precision.testBit 1 && fr.process != 0)
        let late := ms.find? fun m => m.1 == 0xDD && beField m.2.2 0 2 > x.maxRestart && x.maxRestart != 65535
        if !precOk then .fail 0x03 at_
        else if fr.width > x.maxWidth then .fail 0x10 at_
        else if fr.height > x.maxHeight then .fail 0x11 at_
        else if fr.width < x.minWidth || fr.height < x.minHeight then .fail 0x12 at_
        else if fr.comps.length > x.maxComponents then .fail 0x13 at_
        else match samplingBit fr with
          | none => .fail 0x14 at_
          | some b =>
            if !x.sampling.testBit b then .fail 0x14 at_
            else if fr.width * fr.height * fr.comps.length * (if fr.prec = 8 then 1 else 2) > x.maxDecoded then .fail 0x15 at_
            else match late with
              | some m => .fail 0x17 m.2.1
              | none => .pass (gateRecord (jpegDecode ext x.maxScans) fr bandRows cap b)

/-- The gatekeeper on an extent of len bytes under a stream's limit record (R152, R154, R232). LENGTH above MAX_CODED is checked
before the fetch, not here (R150, R154). -/
def gateExtent (x : StreamRec) (bandRows cap len : Nat) (ext : Bytes) : GateRes :=
  if x.kind = 0 then gateKind0 x bandRows cap ext else gateKind1 x len ext

end Machine
end Sys2Proof
end

