-- ==== Sys2Proof/Machine/Items.lean ====
section
/-!
DEFINITION. Sys2Proof/Machine/Items.lean: dispatches (R195 to R202), the items of every primitive (R224 to R258), and
the quarantine of samples (R152, R155, R156).
-/
namespace Sys2Proof
namespace Machine

/-! ### Slots and quarantine -/

/-- The layout a rank uses. -/
def rankLayout (s : M8) (r : Nat) : Layout := layoutOf (s.job.img.layouts.getD (rankOf s r).layout [])

/-- The slot term (R167). -/
def slotTerm (n r k epoch layout : Nat) (b : Bytes) : Nat :=
  crc64xz (natLe 6 n ++ natLe 2 r ++ natLe 4 k ++ natLe 3 epoch ++ natLe 1 layout ++ b)

/-- The epoch of target step n; 0 outside the job. -/
def epochOf (s : M8) (n : Nat) : Nat := ((locate s n).getD (0, 0)).1

/-- The FILL_BYTE of the job, or of the audited run (R155, R291). -/
def fillByte (s : M8) : Byte :=
  if s.job.audit then BitVec.ofNat 8 (leField s.job.auditRec 2 1) else BitVec.ofNat 8 (odNat s Od.FILL_BYTE)

/-- SLOT_BYTES copies of FILL_BYTE (R155). -/
def fillBytes (s : M8) (r : Nat) : Bytes := List.replicate (rankLayout s r).packedSize (fillByte s)

/-- A packed slot waits to be written; in an audit it goes into the audit result (R160, R293). -/
def addPacked (s : M8) (p : PackedSlot) : M8 :=
  if s.job.audit then
    { s with job := { s.job with auditSlots := (p.slot, p.reason, p.mayVary, p.term, p.data) :: s.job.auditSlots } }
  else { s with job := { s.job with packed := s.job.packed ++ [{ p with id := s.job.nextId }], nextId := s.job.nextId + 1 } }

/-- A quarantine log entry (R156). -/
def quarEntry (s : M8) (tile sample step epoch reason stream offset : Nat) : Bytes :=
  natLe 8 s.clk.now ++ natLe 6 sample ++ natLe 2 s.job.jr.datasetId ++ natLe 6 step ++ natLe 3 epoch ++ natLe 1 reason ++
    natLe 1 tile ++ natLe 1 stream ++ natLe 4 offset

/-- Post a quarantine (R152, R155, R156): counted and logged; under policy 1 the job fails, under policy 0 the sample's
slot of the target step becomes a fill. -/
def postQuarantine (s : M8) (tile sample step epoch reason stream offset : Nat) : M8 :=
  let s := odInc s Od.QUARANTINED
  let log := s.job.quarLog ++ [quarEntry s tile sample step epoch reason stream offset]
  let s := { s with job := { s.job with quarLog := log.drop (log.length - 65536) } }
  if odNat s Od.QUAR_POLICY = 1 && !s.job.audit then failJob s 0x000B step
  else match offsetIn s step sample with
    | none => s
    | some q =>
      let (r, k) := slotOf s.job.jr q
      let b := fillBytes s r
      addPacked s { tile := tile, step := step, rank := r, slot := k, sample := sample, reason := reason,
                    term := slotTerm step r k (epochOf s step) (rankOf s r).layout b, data := b }

/-! ### DISP (R195, R198, R199) -/

/-- Dispatches not yet handed out whole: the entries in use of the 64-entry queue (R179, R196). -/
def Dispatch.queued (d : Dispatch) : Bool := d.next < (descOf d.desc).items || !d.requeued.isEmpty

def dispUsed (x : Tile) : Nat := (x.dispQ.filter Dispatch.queued).length

/-- The CFILL requests of a tile whose source is not yet copied (R322). -/
def openFills (x : Tile) : List Nat :=
  x.reqQ.filterMap fun r => match r.kind with
    | .cfill => some r.id
    | _ => none

/-- The gate record at an address: its length as the record itself gives it (R233, R234). -/
def gateRecLen (s : M8) (t a : Nat) : Nat :=
  match cellRead s t a 64 with
  | .ok b => 64 + leField b 12 2 * (8 + 16 * leField b 7 1)
  | .error _ => 64

/-- Does JPEG_DECODE's IMG agree with its gate record (R237)? -/
def jpegMatches (s : M8) (t : Nat) (d : Desc) : Bool :=
  match cellRead s t d.inAddr 64 with
  | .ok b =>
    let i := d.img 16
    i.w == leField b 0 2 && i.h == leField b 2 2 && i.c == leField b 4 1 && precFits i.ty (leField b 5 1)
  | .error _ => true

/-- The whole check of R199 on the 128 bytes of a descriptor. -/
def dispatchOk (s : M8) (t : Nat) (b : Bytes) : Bool :=
  let d := descOf b
  descOk s.job.img.streams b &&
    extentsOk t d ((s.job.img.streams.getD (d.par 8 1) {}).maxCoded) (gateRecLen s t d.inAddr) &&
    (d.prim != 0x0010 || jpegMatches s t d)

/-- A thread waits for an entry of a full queue; its PC stays (R195, R196). -/
def waitQueue (m : M8) (t th : Nat) (y : Thread) : M8 :=
  setThread m t th { y with tstate := .waitQueue, wait := .queue }

/-- Is a package address in tile SRAM or HBM? -/
def sramOrHbm (p : Nat) : Bool := p < 0x020000000000 || (0x020000000000 ≤ p && p < 0x020040000000)

/-- DISP: reads and checks the descriptor at S[SA] and queues the dispatch (R195, R198, R199). -/
def execDisp (t th : Nat) (f : RFields) (s : State) : Out :=
  reel s t th fun m y =>
    let c := compRef y f
    let a := (y.reg f.sa).toNat
    if !ownCounter m t c then trapHere m t th y (counterCause m t c) c
    else if dispUsed (getTile m t) ≥ 64 then waitQueue m t th y
    else match cellRead m t a 128 with
      | .error e => trapHere m t th y 0x04 e
      | .ok b =>
        let p := (localToPkg t a).getD 0
        if a % 16 ≠ 0 || !sramOrHbm p || !dispatchOk m t b then trapHere m t th y 0x09 a
        else
          let m := modTile m t fun x => { x with
            dispQ := x.dispQ ++ [{ id := x.nextDisp, thread := th, pc := y.pc, addr := p, desc := b, counter := c,
                                   waitFills := openFills x }],
            nextDisp := x.nextDisp + 1 }
          complete m t th 32 f.nd y

/-! ### Items start and finish (R200 to R202) -/

/-- The next item to start: items a retired cell gave back first, then the next item of the first dispatch with items
left, once the fills ahead of it have been copied (R200, R201, R322). Answers the dispatch and the item. -/
def nextItem (x : Tile) : Option (Dispatch × Nat) :=
  match x.dispQ.find? fun d => !d.requeued.isEmpty with
  | some d => some (d, d.requeued.headD 0)
  | none => match x.dispQ.find? fun d => d.next < (descOf d.desc).items with
    | some d => if d.waitFills.all fun i => !(openFills x).contains i then some (d, d.next) else none
    | none => none

/-- Hand an item of a dispatch out. -/
def Dispatch.handOut (d : Dispatch) : Dispatch :=
  if d.requeued.isEmpty then { d with next := d.next + 1 } else { d with requeued := d.requeued.drop 1 }

def putDispatch (x : Tile) (d : Dispatch) : Tile :=
  { x with dispQ := x.dispQ.map fun e => if e.id = d.id then d else e }

/-- SAFE_TEST: the first item to start on T00 meets an injected residue error: a record of MODE 0x01 and REACTION 0, the cell
is not retired (R559). -/
def safeTestItem (s : M8) (t cell : Nat) : M8 :=
  if t = 0 && (getTile s 0).safeTest then
    let (d, s) := drawFree (modTile s 0 fun x => { x with safeTest := false })
    logDetection s 0x01 0 (cell * 256) 0 0xFFFF d
  else s

/-- The next item of a queued dispatch starts on a free cell of the tile (R200). A retired cell runs none (R31). -/
def execDispatchItemStart (t cell : Nat) (s : State) : Out :=
  live s fun m =>
    let x := getTile m t
    if x.st = .running && cell < 16 && !x.retired.testBit cell && !x.cells.has cell then
      match nextItem x with
      | some (d, i) =>
        let x := putDispatch x d.handOut
        safeTestItem (setTile m t { x with cells := x.cells.put cell { disp := d.id, item := i } }) t cell
      | none => m
    else m

/-- Write the three planes of RANGE_PROJ from the winners (R252); the scratch is left with free values. -/
def rangePlanes (s : M8) (t : Nat) (d : Desc) (keys : Sparse (Nat × Nat)) : M8 :=
  let az := d.par 12 2
  let rows := d.par 14 2
  let at_ (p y x : Nat) : Nat := d.outAddr + p * d.par 28 4 + y * d.par 24 4 + 2 * x
  let val (p i : Nat) : Nat := match keys.find i with
    | some (k, pl) => if p = 0 then k / 2 ^ 32 else if p = 1 then pl % 256 else pl / 256
    | none => 0
  let s := (List.range 3).foldl (fun s p => (List.range rows).foldl (fun s y =>
    cellWrite s t (at_ p y 0) ((List.range az).flatMap fun x => natLe 2 (val p (y * az + x)))) s) s
  let n := 8 * rows * az
  (List.range n).foldl (fun s i =>
    let (v, s) := drawFree s
    cellWrite s t (d.par 36 8 + i) (natLe 1 v)) s

/-- The tap of an audit captures the output of the tapped dispatch as it completes (R295). -/
def auditTap (s : M8) (t : Nat) (d : Dispatch) : M8 :=
  match s.job.tap with
  | some (tt, addr, len) =>
    if s.job.audit && tt = t && addr = d.addr then
      match localToPkg t (descOf d.desc).outAddr with
      | some p => { s with job := { s.job with tapOut := readMemOnes s p len } }
      | none => s
    else s
  | none => s

/-- A dispatch completes: its last writes are made and its counter gains 1 (R195, R202). -/
def completeDispatch (s : M8) (t : Nat) (d : Dispatch) : M8 :=
  let e := descOf d.desc
  let s := if e.prim = 0x0050 then rangePlanes s t e d.keys else s
  let s := modTile s t fun x => { x with dispQ := x.dispQ.filter fun q => q.id != d.id }
  notifyCounter (auditTap s t d) d.counter

/-- A cell's item whose work is done finishes: the cell is free, the item counts, and with its last item the dispatch
completes; on a tile that has trapped or is unloading an incomplete dispatch does not (R195, R202, R211, R215, R602). -/
def execItemFinish (t cell : Nat) (s : State) : Out :=
  live s fun m =>
    let x := getTile m t
    match x.cells.find cell with
    | some r =>
      if !r.worked then m
      else match x.dispQ.find? fun d => d.id == r.disp with
        | none => setTile m t { x with cells := x.cells.drop cell }
        | some d =>
          let d := { d with finished := d.finished + 1 }
          let m := setTile m t (putDispatch { x with cells := x.cells.drop cell } d)
          let m := count m t (primIndex (descOf d.desc).prim) 1
          if x.st = .running then
            (if d.finished = (descOf d.desc).items then completeDispatch m t d else m)
          else if x.busy = some .unload && !((getTile m t).cells.any fun c => c.2.disp == d.id) then
            modTile m t fun x => { x with dispQ := x.dispQ.filter fun q => q.id != d.id }
          else m
    | none => m

/-! ### The work of an item -/

/-- An item's access to a hole or to the firmware reserve traps its tile with the DISP's thread and PC; the item stops
and writes nothing (R41, R210, R211; assumption log 23). -/
def itemTrap (m : M8) (t cell : Nat) (d : Dispatch) (addr : Nat) : M8 :=
  let m := modTile m t fun x => { x with cells := x.cells.drop cell }
  if (getTile m t).st = .running then trap m t d.thread 0x04 d.pc addr else m

/-- The item's work has passed its last check. -/
def markWorked (m : M8) (t cell : Nat) : M8 :=
  modTile m t fun x => { x with cells := x.cells.adjust cell fun r => { r with worked := true } }

/-- The addresses an item's STATUS may go to are checked with its other writes. -/
def writesAllowed (t : Nat) : List (Nat × Bytes) → Except Nat Unit
  | [] => .ok ()
  | w :: ws => match cellWritable t w.1 w.2.length with
    | .ok _ => writesAllowed t ws
    | .error e => .error e

/-- Write what an item writes, its STATUS word included (R225). -/
def itemWrite (m : M8) (t : Nat) (d : Desc) (i : Nat) (o : ItemOut) : Except Nat M8 :=
  let ws := o.writes ++ (if d.status = 0 then [] else [(d.status + 4 * i, natLe 4 o.status)])
  match writesAllowed t ws with
  | .ok _ => .ok (ws.foldl (fun m w => cellWrite m t w.1 w.2) m)
  | .error e => .error e

/-- Is a cell working on an item of primitive p whose work is not done? Answers its dispatch and the item. -/
def itemAt (m : M8) (t cell p : Nat) : Option (Dispatch × Nat) :=
  let x := getTile m t
  match x.cells.find cell with
  | some r =>
    if r.worked then none
    else match x.dispQ.find? fun d => d.id == r.disp with
      | some d => if (descOf d.desc).prim = p then some (d, r.item) else none
      | none => none
  | none => none

/-- The work of an item of primitive p that only writes (R224). -/
def runItem (p : Nat) (g : M8 → Nat → Desc → Nat → Except Nat ItemOut) (t cell : Nat) (s : State) : Out :=
  live s fun m =>
    match itemAt m t cell p with
    | none => m
    | some (d, i) =>
      let e := descOf d.desc
      match g m t e i with
      | .error a => itemTrap m t cell d a
      | .ok o => match itemWrite m t e i o with
        | .error a => itemTrap m t cell d a
        | .ok m => markWorked m t cell

/-- IDCT8 (R239, R240). -/
def execIdct8Item (t cell : Nat) (s : State) : Out := runItem 0x0011 idctItem t cell s

/-- CCONV (R241 to R243). -/
def execCconvItem (t cell : Nat) (s : State) : Out := runItem 0x0020 cconvItem t cell s

/-- CROP_RESIZE (R244, R245). -/
def execCropResizeItem (t cell : Nat) (s : State) : Out := runItem 0x0030 cropItem t cell s

/-- RAND_CROP (R246). -/
def execRandCropItem (t cell : Nat) (s : State) : Out := runItem 0x0031 randCropItem t cell s

/-- FLIP_ROT (R247). -/
def execFlipRotItem (t cell : Nat) (s : State) : Out := runItem 0x0032 flipItem t cell s

/-- PHOTO (R248). -/
def execPhotoItem (t cell : Nat) (s : State) : Out := runItem 0x0040 photoItem t cell s

/-- NOISE (R249). -/
def execNoiseItem (t cell : Nat) (s : State) : Out := runItem 0x0041 noiseItem t cell s

/-- NORM (R257). -/
def execNormItem (t cell : Nat) (s : State) : Out := runItem 0x0060 normItem t cell s

/-- CHECK (R258). -/
def execCheckItem (t cell : Nat) (s : State) : Out := runItem 0x0070 checkItem t cell s

/-- The scatter unit takes an item's updates at once and keeps the smallest key of a pixel (R252, R253). -/
def applyRange (keys : Sparse (Nat × Nat)) (us : List Update) : Sparse (Nat × Nat) :=
  us.foldl (fun k u => match k.find u.at_ with
    | some old => if u.key < old.1 then k.put u.at_ (u.key, u.payload) else k
    | none => k.put u.at_ (u.key, u.payload)) keys

/-- RANGE_PROJ (R251 to R253): the planes are written when the dispatch completes. -/
def execRangeProjItem (t cell : Nat) (s : State) : Out :=
  live s fun m =>
    match itemAt m t cell 0x0050 with
    | none => m
    | some (d, i) =>
      let e := descOf d.desc
      match rangeUpdates m t e i, (outExtents e).mapM (fun x => cellWritable t x.1 x.2) with
      | .error a, _ => itemTrap m t cell d a
      | _, .error a => itemTrap m t cell d a
      | .ok us, .ok _ => match itemWrite m t e i {} with
        | .error a => itemTrap m t cell d a
        | .ok m => markWorked (modTile m t fun x => putDispatch x { d with keys := applyRange d.keys us }) t cell

/-- One update of a voxel: count saturating at 65,535, maximum intensity, maximum height (R253, R254). -/
def voxelApply (m : M8) (t : Nat) (d : Desc) (u : Update) : M8 :=
  let n := 2 * (d.par 12 2 * d.par 14 2 * d.par 16 1)
  let a := d.outAddr + 2 * u.at_
  let old (k : Nat) : Nat := match cellNat m t (a + k * n) 2 with
    | .ok v => v
    | .error _ => 0
  let m := cellWrite m t a (natLe 2 (min 65535 (old 0 + 1)))
  let m := cellWrite m t (a + n) (natLe 2 (max (old 1) u.payload))
  cellWrite m t (a + 2 * n) (natLe 2 (max (old 2) u.key))

/-- VOXEL (R253 to R256): the planes are set to 0 before the dispatch's first update. -/
def execVoxelItem (t cell : Nat) (s : State) : Out :=
  live s fun m =>
    match itemAt m t cell 0x0051 with
    | none => m
    | some (d, i) =>
      let e := descOf d.desc
      match voxelUpdates m t e i, (outExtents e).mapM (fun x => cellWritable t x.1 x.2) with
      | .error a, _ => itemTrap m t cell d a
      | _, .error a => itemTrap m t cell d a
      | .ok us, .ok _ => match itemWrite m t e i {} with
        | .error a => itemTrap m t cell d a
        | .ok m =>
          let m := if d.zeroed then m else (outExtents e).foldl (fun m x => cellWrite m t x.1 (zeros x.2)) m
          let m := modTile m t fun x => putDispatch x { d with zeroed := true }
          markWorked (us.foldl (fun m u => voxelApply m t e u) m) t cell

/-- What a GATE item reads of its extent (R231): the length, and the bytes: all of a KIND 0 extent, which the index pass
goes through, else what the gatekeeper may read, HDR_LIMIT x 16 bytes (R152, R234). -/
def gateInputs (m : M8) (t : Nat) (d : Desc) (i : Nat) (x : StreamRec) : Except Nat (Nat × Bytes) := do
  let len ← cellNat m t (d.par 24 8 + i * d.par 32 4) 4
  let ext ← cellRead m t (d.inAddr + i * d.inStride) (if x.kind = 0 then len else min len (x.hdrLimit * 16))
  .ok (len, ext)

/-- The tag of a GATE item (R231). -/
def gateTag (m : M8) (t : Nat) (d : Desc) (i : Nat) : Except Nat Bytes := cellRead m t (d.par 16 8 + 16 * i) 16

/-- GATE (R232): an extent that passes gets status 0 and its gate record; one that fails gets the reason as status and
is quarantined by its tag. -/
def execGateItem (t cell : Nat) (s : State) : Out :=
  live s fun m =>
    match itemAt m t cell 0x0001 with
    | none => m
    | some (d, i) =>
      let e := descOf d.desc
      let k := e.par 8 1
      let x := m.job.img.streams.getD k {}
      let out := e.outAddr + i * e.outStride
      match gateInputs m t e i x with
      | .error a => itemTrap m t cell d a
      | .ok (len, ext) => match gateExtent x (e.par 9 1) (e.par 12 4) len ext with
        | .pass rec => (match itemWrite m t e i { writes := [(out, rec)] } with
          | .error a => itemTrap m t cell d a
          | .ok m => modTile (markWorked m t cell) t fun y => { y with gates := y.gates.put out (k, len) })
        | .fail r off => match gateTag m t e i, itemWrite m t e i { status := r } with
          | .error a, _ => itemTrap m t cell d a
          | _, .error a => itemTrap m t cell d a
          | .ok tag, .ok m =>
            postQuarantine (markWorked m t cell) t (leField tag 0 6) (leField tag 6 6) (leField tag 12 3) r k off

/-- The image of a failed decode: its contents are not defined (R237), so each of its bytes takes a free value. -/
def freeImage (m : M8) (t a n : Nat) : M8 :=
  (List.range n).foldl (fun m i =>
    let (v, m) := drawFree m
    cellWrite m t (a + i) (natLe 1 v)) m

/-- JPEG_DECODE (R235 to R239): item i decodes its segments from the gate record at IN_ADDR and the extent at
EXTENT_ADDR; stream and length come from the GATE item that wrote the record (assumption log 25). -/
def execJpegDecodeItem (t cell : Nat) (s : State) : Out :=
  live s fun m =>
    match itemAt m t cell 0x0010 with
    | none => m
    | some (d, i) =>
      let e := descOf d.desc
      let (k, len) := ((getTile m t).gates.find e.inAddr).getD (0, 0)
      match cellRead m t e.inAddr (gateRecLen m t e.inAddr), cellRead m t (e.par 8 8) len with
      | .error a, _ => itemTrap m t cell d a
      | _, .error a => itemTrap m t cell d a
      | .ok rec, .ok ext =>
        let o := jpegItem e i rec ext (m.job.img.streams.getD k {}).maxScans
        match cellWritable t e.outAddr (e.img 16).extent, itemWrite m t e i o with
        | .error a, _ => itemTrap m t cell d a
        | _, .error a => itemTrap m t cell d a
        | .ok _, .ok m' =>
          let m' := if o.status = 0 then m' else freeImage m' t e.outAddr (e.img 16).extent
          markWorked m' t cell

end Machine
end Sys2Proof
end

