-- ==== Sys2Proof/Machine/CodecHub.lean ====
section
/-!
DEFINITION. Sys2Proof/Machine/CodecHub.lean: the codec engine of a hub (R298, R313 to R319), the epoch cache (R174 to
R177, R320 to R326) and the ends of its jobs.
-/
namespace Sys2Proof
namespace Machine

/-- An image descriptor at an offset of a structure (R226). -/
def imgAt (b : Bytes) (o : Nat) : Img :=
  { w := leField b o 2, h := leField b (o + 2) 2, c := leField b (o + 4) 1, ty := leField b (o + 5) 1,
    rsv := leField b (o + 6) 2, row := leField b (o + 8) 4, plane := leField b (o + 12) 4 }

/-- Are ROW and PLANE those of a tensor without gaps? -/
def Img.packed (i : Img) : Bool := i.row == i.w * i.size && i.plane == i.h * i.row

def getCodec (s : M8) (hub : Nat) : CodecHub := s.hubs.codec.get {} hub

def setCodec (s : M8) (hub : Nat) (x : CodecHub) : M8 :=
  { s with hubs := { s.hubs with codec := s.hubs.codec.set {} hub x } }

def modCodec (s : M8) (hub : Nat) (f : CodecHub → CodecHub) : M8 := setCodec s hub (f (getCodec s hub))

/-- Package address of a codec register (R37). -/
def codecReg (hub off : Nat) : Nat := 0x030001000000 + hub * 0x100000 + 0xA000 + off

/-- Does a lane run the descriptor? -/
def LaneJob.names (j : LaneJob) (addr : Nat) : Bool :=
  match j with
  | .fw d _ _ _ _ _ _ _ _ => d == addr
  | _ => false

/-- A write to CDC_SUBMIT (R317, R318): refused for a descriptor out of place, for a full queue, or for one already
queued or running. -/
def cdcSubmit (s : M8) (agent hub addr : Nat) : M8 :=
  let x := getCodec s hub
  let a := addr % 2 ^ 48
  if !isCore agent then addressError s agent (codecReg hub 0)
  else if a % 64 ≠ 0 then setCodec s hub { x with align := true }
  else if x.jobs.length ≥ 64 then setCodec s hub { x with full := true }
  else if x.jobs.contains a || x.lanes.any fun l => l.2.names a then setCodec s hub { x with dup := true }
  else setCodec s hub { x with jobs := x.jobs ++ [a] }

/-- CDC_SUBMIT written (R317). -/
def execCdcSubmit (agent hub addr : Nat) (s : State) : Out :=
  live s fun m => if hub < 4 then cdcSubmit m agent hub addr else m

/-- CDC_STAT (R317). -/
def cdcStat (x : CodecHub) : Nat :=
  b2n x.doneBit + b2n x.align * 2 + b2n x.full * 4 + b2n x.dup * 8 + x.lanes.length * 2 ^ 8 + x.jobs.length * 2 ^ 16

/-! ### The directory of the epoch cache (R175, R324) -/

/-- DIR_SLOTS for a count of homed samples (R324): the smallest power of two at or above 1.25 times it. -/
def dirSlotsFor (homed : Nat) : Nat := ((List.range 64).find? fun k => 5 * homed ≤ 4 * 2 ^ k).elim 1 (2 ^ ·)

/-- Package address of a byte of the epoch-cache partition. -/
def cacheAddr (s : M8) (off : Nat) : Nat := partBase s 2 + off

/-- Offset of the directory in the epoch-cache partition: at its top (R324). -/
def dirOff (s : M8) : Nat := odInForce s Od.PART_EPOCH_CACHE - 64 * odNat s Od.DIR_SLOTS

/-- Package address of directory slot i. -/
def dirSlot (s : M8) (i : Nat) : Nat := cacheAddr s (dirOff s + 64 * i)

/-- The cache-point record of a stream (R320). -/
def cpRecord (s : M8) (stream : Nat) : Bytes := slice s.job.img.cachePoints (32 * stream) 32

/-- The bytes of a key as they stand in an entry (R175): DATASET_ID, DATASET_VERSION, CP_ID, SAMPLE. -/
def keyEntry (s : M8) (stream sample : Nat) : Bytes :=
  natLe 2 s.job.jr.datasetId ++ zeros 2 ++ natLe 4 s.job.jr.datasetVersion ++ (cpRecord s stream).take 8 ++ natLe 6 sample

/-- The home slot of a key (R324). -/
def homeSlot (s : M8) (stream sample : Nat) : Nat :=
  crc64xz (natLe 2 s.job.jr.datasetId ++ natLe 4 s.job.jr.datasetVersion ++ (cpRecord s stream).take 8 ++ natLe 6 sample)
    % max 1 (odNat s Od.DIR_SLOTS)

/-- The slots a probe visits (R324). -/
def probes (s : M8) (stream sample : Nat) : List Nat :=
  let n := odNat s Od.DIR_SLOTS
  (List.range (min 16 n)).map fun i => (homeSlot s stream sample + i) % max 1 n

/-- STATE of a slot: 0 empty, 1 filling, 2 visible, 3 dead (R324). -/
def slotState (s : M8) (i : Nat) : Nat := leNat (readMemOnes s (dirSlot s i + 48) 1)

def setSlotState (s : M8) (i st : Nat) : M8 := writeMem s (dirSlot s i + 48) (natLe 1 st)

/-- Does a slot hold the key? -/
def slotHas (s : M8) (i stream sample : Nat) : Bool := readMemOnes s (dirSlot s i) 22 == keyEntry s stream sample

/-- A lookup (R176, R324): a visible slot with the key. -/
def cacheLookup (s : M8) (stream sample : Nat) : Option Nat :=
  (probes s stream sample).find? fun i => slotState s i == 2 && slotHas s i stream sample

/-- Where a claim ends (R324): the key met first (filling or visible) ends it, else the first empty slot. -/
def claimAt (s : M8) (stream sample : Nat) : List Nat → Option Nat
  | [] => none
  | i :: is =>
    let st := slotState s i
    if st = 0 then some i
    else if (st = 1 || st = 2) && slotHas s i stream sample then none
    else claimAt s stream sample is

/-- Claim a slot for a key: its key is written and it is filling. -/
def claimSlot (s : M8) (stream sample : Nat) : Option (Nat × M8) :=
  (claimAt s stream sample (probes s stream sample)).map fun i =>
    (i, writeMem s (dirSlot s i) (keyEntry s stream sample ++ zeros 26 ++ natLe 1 1))

/-- CACHE_BYTES (R178): the data in use and the directory. -/
def setCacheBytes (s : M8) : M8 := odSet s Od.CACHE_BYTES (s.hubs.cache.bytes + 64 * odNat s Od.DIR_SLOTS)

/-- Empty the cache (R177): every slot is empty, no chunk is open. -/
def emptyCache (s : M8) : M8 :=
  let s := clearMem s (dirSlot s 0) (64 * odNat s Od.DIR_SLOTS)
  setCacheBytes { s with hubs := { s.hubs with cache := {} } }

/-! ### Fills (R320 to R323) -/

/-- The stream a fill compresses, from its tensor and its stream's settings (R320). -/
def fillStream (s : M8) (stream : Nat) (img : Bytes) : CStream :=
  let i := imgAt img 0
  let r := cpRecord s stream
  { ty := i.ty, w := i.w, h := i.h, c := i.c, effort := leField r 12 1, rows := leField r 13 1, hints := leField r 14 2 }

/-- Is a fill descriptor valid, and do its tensor and the stream's settings satisfy R309 and R310 (R320, R321)? -/
def fillOk (s : M8) (b : Bytes) : Bool :=
  leField b 7 1 == 0 && leField b 6 1 < s.job.img.streams.length && (imgAt b 8).ok &&
    (fillStream s (leField b 6 1) (slice b 8 16)).ok

/-- The bytes of a tensor without its gaps, plane by plane; all ones where it lies in no memory (R41). -/
def packedTensor (s : M8) (base : Nat) (i : Img) : Bytes :=
  (List.range i.c).flatMap fun p => (List.range i.h).flatMap fun y => readMemOnes s (base + i.off p y 0) (i.w * i.size)

/-- The mapped element of a plane at a position in it, from the tensor's packed bytes. -/
def packedElem (g : CStream) (b : Bytes) (p i : Nat) : Nat :=
  let n := elemSize g.ty
  cdcMap g.ty (leField b ((p * g.h * g.w + i) * n) n)

/-- Bytes a fill reserves (R323). -/
def fillReserve (g : CStream) : Nat := 32 + 16 * g.c * ceilDiv g.h (max 1 g.rows) + g.ulen

/-- The open chunk of a lane, as (base offset, used), or a new one where the remainder is below B and one is left below
the directory (R323). -/
def laneChunk (s : M8) (lane b : Nat) : (Nat × Nat) × M8 :=
  let c := s.hubs.cache
  let cur := c.chunks.get (0, 0x4000000) lane
  if cur.2 + b ≤ 0x4000000 then (cur, s)
  else if (c.next + 1) * 0x4000000 ≤ dirOff s then
    let new := (c.next * 0x4000000, 0)
    (new, { s with hubs := { s.hubs with cache := { c with
      next := c.next + 1, chunks := c.chunks.set (0, 0x4000000) lane new } } })
  else (cur, s)

/-- The bytes a holding's cells hold, in chain order. -/
def heldBytes (s : M8) (hub id n : Nat) : Bytes :=
  match findHold s hub 0 id with
  | some h => readSpans s (holdSpans s hub 0 h) n
  | none => []

/-- The lane that runs a fill has compressed it into the space its chunk leaves (R323). -/
def startFill (s : M8) (hub lane : Nat) (f : FillJob) : M8 :=
  let g := fillStream s f.stream f.img
  let tensor := heldBytes s hub f.hold g.ulen
  let (chunk, s) := laneChunk s (hub * 16 + lane) (fillReserve g)
  let r := compressCall g (packedElem g tensor) (g.w * g.h * g.c) (0x4000000 - chunk.2) false true {}
  modCodec s hub fun x => { x with
    fills := x.fills.drop 1, lanes := x.lanes.put lane (.fill f r.status r.out (chunk.1 + chunk.2)) }

/-- A fill ends (R323, R324): DONE makes its data, then its entry, visible and counts; OUT_FULL abandons it and its slot
is dead. The cells return either way. -/
def endFill (s : M8) (hub lane : Nat) (f : FillJob) (status : Nat) (out : Bytes) (off : Nat) : M8 :=
  let g := fillStream s f.stream f.img
  let tensor := heldBytes s hub f.hold g.ulen
  let s := giveHold s hub 0 f.hold 1
  if status = 0 then
    let adv := ceilDiv out.length 64 * 64
    let s := writeMem s (cacheAddr s off) out
    let s := writeMem s (dirSlot s f.slot + 24) (natLe 8 off ++ natLe 4 out.length ++ natLe 4 g.ulen ++ natLe 8 (crc64xz tensor))
    let s := setSlotState s f.slot 2
    let c := s.hubs.cache
    let s := { s with hubs := { s.hubs with cache := { c with
      bytes := c.bytes + adv,
      chunks := c.chunks.modify (0, 0x4000000) (hub * 16 + lane) fun k => (k.1, k.2 + adv) } } }
    setCacheBytes (odAdd (odAdd (odInc s Od.CACHE_FILLS) Od.CODEC_IN_BYTES g.ulen) Od.CODEC_OUT_BYTES out.length)
  else odInc (setSlotState s f.slot 3) Od.CACHE_FILL_ABANDONED

/-! ### Firmware jobs (R313 to R317) -/

/-- Which fields of a codec job descriptor are invalid on their own (STATUS 0x10, R317)? -/
def cdcDescOk (b : Bytes) : Bool :=
  let op := leField b 0 1
  let fl := leField b 1 1
  let i := imgAt b 8
  let n := i.w * i.h * i.c
  let avail := leField b 32 4
  let plane := leField b 7 1
  let row := leField b 56 2
  let sf := leField b 58 1
  let g : CStream := { ty := i.ty, w := i.w, h := i.h, c := i.c, effort := leField b 2 1, rows := leField b 3 1, hints := leField b 4 2 }
  let resume := fl.testBit 0
  i.ok && fl < 16 && leField b 59 5 == 0 &&
    (!resume || (leField b 6 1 < 0x10 && sf < 4 &&
      ((plane < i.c && row < i.h && !sf.testBit 1) || (sf.testBit 1 && plane == i.c && row == 0)))) &&
    (if op = 1 then
      g.ok && avail ≤ n && (!fl.testBit 1 || avail % i.w == 0) && (!fl.testBit 2 || avail == n) &&
        (!resume || (plane * i.h + row) * i.w ≤ avail)
     else op == 2 && !fl.testBit 1 && !fl.testBit 2 && leField b 2 4 == 0 && i.packed)

/-- The state a job starts from: cleared without RESUME (R313). -/
def cdcStateOf (b : Bytes) : CState :=
  if (leField b 1 1).testBit 0 then
    { plane := leField b 7 1, row := leField b 56 2, header := (leField b 58 1).testBit 0, last := (leField b 58 1).testBit 1 }
  else {}

/-- Addresses of the elements from position a to b of a tensor, row by row, as (address, length). -/
def rowSpans (base : Nat) (i : Img) (a b : Nat) : List (Nat × Nat) :=
  (List.range (i.c * i.h)).filterMap fun k =>
    if k * i.w < b && a < (k + 1) * i.w then some (base + i.off (k / i.h) (k % i.h) 0, i.w * i.size) else none

/-- A lane's firmware job, ended with a STATUS, a state and counts. -/
def fwEnd (b : Bytes) (desc status : Nat) (st : CState) (consumed produced : Nat) : LaneJob :=
  .fw desc status st.plane st.row (b2n st.header + 2 * b2n st.last) consumed produced ((leField b 1 1).testBit 3)
    (leField b 0 1 == 2)

/-- A compression call of firmware (R314, R315). A bus error on an element or on the output ends it with 0x15. -/
def fwCompress (s : M8) (desc : Nat) (b : Bytes) : LaneJob × M8 :=
  let i := imgAt b 8
  let st := cdcStateOf b
  if !cdcDescOk b then (fwEnd b desc 0x10 st 0 0, s)
  else
    let g : CStream := { ty := i.ty, w := i.w, h := i.h, c := i.c, effort := leField b 2 1, rows := leField b 3 1, hints := leField b 4 2 }
    let base := leField b 24 8
    let fl := leField b 1 1
    let elem (p k : Nat) : Nat := cdcMap g.ty (leNat (readMemOnes s (base + i.off p (k / i.w) (k % i.w)) i.size))
    let avail := leField b 32 4
    let r := compressCall g elem avail (leField b 48 4) (fl.testBit 1) (fl.testBit 2) st
    let start := (st.plane * i.h + st.row) * i.w
    let out := leField b 40 8
    if (rowSpans base i start (min avail (start + r.consumed + g.rows * i.w))).all (fun x => inMem x.1 x.2) && inMem out r.produced then
      (fwEnd b desc r.status r.st r.consumed r.produced, writeMem s out r.out)
    else (fwEnd b desc 0x15 st 0 0, s)

/-- A decompression call of firmware (R316). -/
def fwDecompress (s : M8) (desc : Nat) (b : Bytes) : LaneJob × M8 :=
  let i := imgAt b 8
  let st := cdcStateOf b
  if !cdcDescOk b then (fwEnd b desc 0x10 st 0 0, s)
  else
    let inA := leField b 24 8
    let out := leField b 40 8
    let n := i.size
    let old (k : Nat) : Nat := cdcMap i.ty (leNat (readMemOnes s (out + k * n) n))
    let r := decompressCall i.ty i.w i.h i.c 0 (leField b 48 4) old (readMemOnes s inA (leField b 32 4)) st
    if inMem inA r.consumed && r.writes.all fun w => inMem (out + w.1) w.2.length then
      (fwEnd b desc r.status r.st r.consumed r.produced, r.writes.foldl (fun s w => writeMem s (out + w.1) w.2) s)
    else (fwEnd b desc 0x15 st 0 0, s)

/-! ### Lanes (R319) -/

/-- Lanes that decompress. -/
def decompressing (x : CodecHub) : Nat :=
  (x.lanes.filter fun l => match l.2 with
    | .fw _ _ _ _ _ _ _ _ dec => dec
    | .hit _ _ _ _ => true
    | .fill _ _ _ _ => false).length

/-- Is hit a released before hit b: the oldest staging release, ties in ascending agent order (R319)? -/
def hitBefore (a b : HitJob) : Bool :=
  match a.released, b.released with
  | some x, some y => x < y || (x == y && a.tile ≤ b.tile)
  | some _, none => true
  | _, _ => false

/-- The staged hit a free lane takes. -/
def nextHit (x : CodecHub) : Option HitJob :=
  (x.hits.filter fun h => h.released.isSome).foldl (fun a h => match a with
    | some g => if hitBefore g h then some g else some h
    | none => some h) none

/-- What a free lane takes (R319): a hit, a firmware job, a fill. Lane 15 takes no hit, and while the job runs firmware
jobs run on lane 15 alone. -/
inductive LaneWork where
  | hit (h : HitJob)
  | fw (desc : Nat)
  | fill (f : FillJob)
deriving DecidableEq, Repr

def nextWork (s : M8) (hub lane : Nat) : Option LaneWork :=
  let x := getCodec s hub
  let fwOk := jobState s != 3 || lane == 15
  match (if lane = 15 then none else nextHit x), (if fwOk then x.jobs.head? else none), x.fills.head? with
  | some h, _, _ => some (.hit h)
  | none, some d, _ => some (.fw d)
  | none, none, some f => some (.fill f)
  | _, _, _ => none

/-- A lane's compression call (R298, R314, R323): the next work of the lane, when it is a firmware job that does not
decompress or a fill. -/
def execCodecCompress (hub lane : Nat) (s : State) : Out :=
  live s fun m =>
    if hub < 4 && lane < 16 && !(getCodec m hub).lanes.has lane then
      match nextWork m hub lane with
      | some (.fw d) =>
        let b := readMemOnes m d 64
        if leField b 0 1 = 2 then m
        else
          let (j, m) := if inMem d 64 then fwCompress m d b else (fwEnd b d 0x15 {} 0 0, m)
          modCodec m hub fun x => { x with jobs := x.jobs.drop 1, lanes := x.lanes.put lane j }
      | some (.fill f) => startFill m hub lane f
      | _ => m
    else m

/-- A hit starts on a lane (R325): its staged bytes are decompressed in one call. -/
def startHit (s : M8) (hub lane : Nat) (h : HitJob) : M8 :=
  let b := heldBytes s hub h.hold h.clen
  let r := decompressAll (leField b 3 1) (leField b 4 2) (leField b 6 2) (leField b 8 1) b
  let out := r.writes.flatMap fun w => w.2
  let good := r.status = 0 && out.length = h.ulen
  let status := if good then 0 else if 0x11 ≤ r.status then r.status else 0x11
  modCodec s hub fun x => { x with
    hits := x.hits.filter fun g => !(g.tile == h.tile && g.req == h.req),
    lanes := x.lanes.put lane (.hit h status out s.clk.hclk) }

/-- A lane's decompression call (R316, R325): a staged hit or a firmware job. At most 15 lanes decompress at once
(R298). -/
def execCodecDecompress (hub lane : Nat) (s : State) : Out :=
  live s fun m =>
    if hub < 4 && lane < 16 && !(getCodec m hub).lanes.has lane && decompressing (getCodec m hub) < 15 then
      match nextWork m hub lane with
      | some (.hit h) => startHit m hub lane h
      | some (.fw d) =>
        let b := readMemOnes m d 64
        if leField b 0 1 ≠ 2 then m
        else
          let (j, m) := if inMem d 64 then fwDecompress m d b else (fwEnd b d 0x15 {} 0 0, m)
          modCodec m hub fun x => { x with jobs := x.jobs.drop 1, lanes := x.lanes.put lane j }
      | _ => m
    else m

/-- A call of firmware or a fill ends (R317, R318, R323): STATUS, the counts and the state go into the descriptor, then
the interrupt. -/
def execCodecJobEnd (hub lane : Nat) (s : State) : Out :=
  live s fun m =>
    match (getCodec m hub).lanes.find lane with
    | some (.fw d status plane row flags consumed produced irq _) =>
      let m := modCodec m hub fun x => { x with lanes := x.lanes.drop lane, doneBit := x.doneBit || irq }
      let m := writeMem m (d + 6) (natLe 1 status ++ natLe 1 plane)
      let m := writeMem m (d + 36) (natLe 4 consumed)
      let m := writeMem m (d + 52) (natLe 4 produced ++ natLe 2 row ++ natLe 1 flags)
      if irq then pulse m (0x140 + hub) else m
    | some (.fill f status out off) =>
      endFill (modCodec m hub fun x => { x with lanes := x.lanes.drop lane }) hub lane f status out off
    | _ => m

/-! ### Hits (R325, R326) -/

/-- T_stage (R325). -/
def tStage (clen : Nat) : Nat := 1024 + ceilDiv clen 256

/-- T_dec (R325). -/
def tDec (ulen : Nat) : Nat := 128 + ceilDiv ulen 125

/-- The staging result of a hit is released T_stage after the hub accepted the FETCH: its CLEN bytes stand in cells of
the codec-fill owner (R325). -/
def execHitStageRelease (tile req : Nat) (s : State) : Out :=
  live s fun m =>
    let hub := tile / 16
    match (getCodec m hub).hits.find? fun h => h.tile == tile && h.req == req && h.released.isNone with
    | some h =>
      match findHold m hub 0 h.hold with
      | some c =>
        if m.clk.hclk ≥ h.accepted + tStage h.clen then
          let m := writeSpans m (holdSpans m hub 0 c) (readMemOnes m (cacheAddr m h.off) h.clen)
          modCodec m hub fun x => { x with
            hits := x.hits.map fun g => if g.tile == tile && g.req == req then { g with released := some m.clk.hclk } else g }
        else m
      | none => m
    | none => m

/-- A request of a tile. -/
def findReq (s : M8) (t id : Nat) : Option Request := (getTile s t).reqQ.find? fun r => r.id == id

def setReq (s : M8) (t : Nat) (r : Request) : M8 :=
  modTile s t fun x => { x with reqQ := x.reqQ.map fun q => if q.id = r.id then r else q }

def dropReq (s : M8) (t id : Nat) : M8 := modTile s t fun x => { x with reqQ := x.reqQ.filter fun q => q.id != id }

/-- A fetch completes (R195, R203): STATUS and LENGTH are written, then its counter gains 1. -/
def completeFetch (s : M8) (t : Nat) (r : Request) (status len : Nat) : M8 :=
  let s := writeMem s (r.addr + 20) (natLe 4 status ++ natLe 4 len)
  notifyCounter (dropReq s t r.id) r.counter

/-- DEST of a fetch as a package address. -/
def fetchDest (t : Nat) (r : Request) : Option Nat := localToPkg t (leField r.desc 8 8)

/-- A hit decode completes T_dec after its lane started (R325): the tensor goes to DEST, STATUS 1 and LENGTH = ULEN. A
stream that does not decode or does not match CHECK drops the entry, counts, and the fetch goes to flash; a bus error is
a unit fault (R176, R326). -/
def execHitDecodeDone (hub lane : Nat) (s : State) : Out :=
  live s fun m =>
    match (getCodec m hub).lanes.find lane with
    | some (.hit h status out start) =>
      if m.clk.hclk < start + tDec h.ulen then m
      else
        let m := giveHold (modCodec m hub fun x => { x with lanes := x.lanes.drop lane }) hub 0 h.hold 1
        match findReq m h.tile h.req with
        | none => m
        | some r =>
          if status = 0x15 then declareSelf m 3
          else if status = 0 && crc64xz out = h.check then
            let m := match fetchDest h.tile r with
              | some p => writeMem m p out
              | none => m
            completeFetch (odInc m Od.CACHE_HITS) h.tile r 1 h.ulen
          else
            let m := odInc (odInc (setSlotState m h.slot 3) Od.CODEC_ERRORS) Od.CACHE_MISSES
            setReq m h.tile { r with phase := .again }
    | _ => m

end Machine
end Sys2Proof
end

