-- ==== Sys2Proof/Machine/DictEngine.lean ====
section
/-!
DEFINITION. Sys2Proof/Machine/DictEngine.lean: the dictionary engine: messages, sessions, rights, checks, segments,
the persistent store (R63 to R98). What reading or writing a particular entry does in its unit is passed in as OdRules: read gives
an entry's present value or aborts, check gives an abort of the entry's own rules, reject is what a refused write leaves, effect what
an applied one does.
-/
namespace Sys2Proof
namespace Machine

/-- What entries do in their units. read: the present value of an entry (a read may act, R345) or an abort; check: the
abort an entry's own rules give a value in the present state; reject: what a refused value leaves behind; effect: what an
applied write does beside setting the entry, from the state before it. -/
structure OdRules where
  read : M8 → Session → Nat → Except Nat (OdVal × M8)
  check : M8 → Session → Nat → OdVal → Option Nat
  reject : M8 → Session → Nat → OdVal → M8
  effect : M8 → Session → Nat → OdVal → M8

/-- What the engine answers: data and the LAST flag, an abort code, or nothing yet. -/
inductive DictRes where
  | data (b : Bytes) (last : Bool)
  | abort (code : Nat)
  | later
deriving DecidableEq, Repr

/-- The 16 bytes of a header (R74). -/
def dictHeader (op flags seq sid index sub rsv len : Nat) : Bytes :=
  natLe 1 op ++ natLe 1 flags ++ natLe 2 seq ++ natLe 4 sid ++ natLe 2 index ++ natLe 1 sub ++ natLe 1 rsv ++ natLe 4 len

/-- The tag: the first 16 bytes of HMAC-SHA-256 over header and data (R78); zeros without a key. -/
def dictTag (key : Option Bytes) (hd : Bytes) : Bytes :=
  match key with
  | some k => (hmacSha256 k hd).take 16
  | none => zeros 16

/-- A reply message (R74 to R76): OP + 0x80, or 0xE0 with the abort code. -/
def dictReply (op : Nat) (m : DictMsg) (key : Option Bytes) (r : DictRes) : Bytes :=
  match r with
  | .data b last =>
    let hd := dictHeader (op + 0x80) (b2n last) m.seq m.session m.index m.sub 0 b.length ++ b
    hd ++ dictTag key hd
  | .abort c =>
    let hd := dictHeader 0xE0 0 m.seq m.session m.index m.sub 0 4 ++ natLe 4 c
    hd ++ dictTag key hd
  | .later => []

/-- Send a reply on its path (R79 to R82): a fabric frame, the mailbox, a datagram, or firmware's own status. -/
def dictSend (s : M8) (path addr : Nat) (reply : Bytes) : M8 :=
  if path = 2 then sendFrame s addr 0x3 0 reply
  else if path = 3 then
    let s := writeMem s 0x030001009000 reply
    let s := { s with mbx := { s.mbx with rspLen := reply.length, done := true, busy := false } }
    if s.mbx.irqEn then emit s (.msix 127) else s
  else if path = 4 then emit s (.datagram (odInForce s Od.MGMT_UDP_PORT) reply)
  else s

/-- The key of a level (R72, R73). -/
def levelKey (s : M8) (level : Nat) : Bytes :=
  if level = 0 then odBytes s Od.KEY_OBSERVER else if level = 1 then odBytes s Od.KEY_OPERATOR
  else if level = 2 then odBytes s Od.KEY_MAINTAINER else Config.vendorKey

/-- Is a level locked (R87)? -/
def levelLocked (s : M8) (level : Nat) : Bool := Sparse.has s.dict.locks level

/-- A failed proof counts against its level; at AUTH_FAIL_LIMIT the level locks for AUTH_LOCKOUT (R87). -/
def authFail (s : M8) (level : Nat) : M8 :=
  let n := s.dict.fails.get 0 level + 1
  let s := { s with dict := { s.dict with fails := s.dict.fails.set 0 level n } }
  if n ≥ odNat s Od.AUTH_FAIL_LIMIT then
    { s with dict := { s.dict with locks := Sparse.put s.dict.locks level (s.clk.now + odNat s Od.AUTH_LOCKOUT * 1000000) } }
  else s

/-- LOCKED_LEVELS (R72). -/
def lockedLevels (s : M8) : Nat := s.dict.locks.foldl (fun n p => n ||| 2 ^ p.1) 0

/-- A matching proof clears the level's count (R87). -/
def authClear (s : M8) (level : Nat) : M8 :=
  { s with dict := { s.dict with fails := s.dict.fails.set 0 level 0 } }

/-- Close a session: the DOMAIN it holds is released and its test-mux selections return to 0xFFFF (R88, R620). -/
def closeSession (s : M8) (sid : Nat) : M8 :=
  let s := { s with dict := { s.dict with
    sessions := s.dict.sessions.filter fun x => x.sid != sid, holds := s.dict.holds.filter fun h => h.sid != sid } }
  [1, 2, 3, 4].foldl (fun s i =>
    if s.dbg.tmuxOwner.get 0 i = sid then
      odSet { s with dbg := { s.dbg with tmuxOwner := s.dbg.tmuxOwner.set 0 i 0 } } (Od.TMUX_SEL + (i - 1)) 0xFFFF
    else s) s

/-- Put a session back. -/
def setSession (s : M8) (x : Session) : M8 :=
  { s with dict := { s.dict with sessions := s.dict.sessions.map fun y => if y.sid = x.sid then x else y } }

def findSession (s : M8) (path sid : Nat) : Option Session :=
  s.dict.sessions.find? fun x => x.sid == sid && x.path == path

/-- The form check of R74 and R97. -/
def formOk (m : DictMsg) : Bool := m.data.length ≤ 1024 && m.rsv == 0 && m.flags < 2

/-- The SEQ that follows (R83): modulo 2^16 with 0 skipped. -/
def nextSeq (n : Nat) : Nat := if n ≥ 65535 then 1 else n + 1

/-- An access of firmware or of the safety controller, which has no session (R92, R94). -/
def fwSession (path : Nat) : Session := { path := path, level := 4 }

/-- During a global stop the scan controller answers management messages for the identity range and OD 0x6050 to
0x6053 only (R617). -/
def stopAnswers (m : DictMsg) : Bool :=
  m.path == 4 && ((0x1000 ≤ m.index && m.index ≤ 0x1FFF) || (0x6050 ≤ m.index && m.index ≤ 0x6053))

/-- Serve one request (R78, R83, R98): form, session, tag, SEQ, then the body. A repeated SEQ gets the cached reply. While
the device enters sleep every request is refused: no session survives the reset (R96). -/
def dictServe (s : M8) (op : Nat) (m : DictMsg) (body : M8 → Session → DictRes × M8) : M8 :=
  if m.path < 2 then
    if s.dbg.stop && m.path = 1 then s else
    let (r, s) := body s (fwSession m.path)
    match r with
    | .data b _ => if op = 2 || op = 4 || m.path = 0 then s else emit s (.readData 0x40 (leNat b))
    | .abort c => if m.path = 0 then s else emit s (.fwStatus c)
    | .later => s
  else if s.dbg.stop && m.path ≠ 4 then s
  else if !formOk m then dictSend s m.path m.addr (dictReply op m none (.abort 0x05040005))
  else match findSession s m.path m.session with
    | none => dictSend s m.path m.addr (dictReply op m none (.abort 0x05040000))
    | some x =>
      let hd := dictHeader op m.flags m.seq m.session m.index m.sub m.rsv m.data.length ++ m.data
      if dictTag (some x.key) hd ≠ m.tag then dictSend s m.path m.addr (dictReply op m (some x.key) (.abort 0x05040001))
      else if x.seq ≠ 0 && m.seq = x.seq then
        if x.reply.isEmpty then s else dictSend s m.path m.addr x.reply
      else if m.seq ≠ nextSeq x.seq then dictSend s m.path m.addr (dictReply op m (some x.key) (.abort 0x05030000))
      else
        let s := setSession s { x with seq := m.seq, active := s.clk.now, reply := [] }
        let (r, s) := if (s.dbg.stop && !stopAnswers m) || odNat s Od.POWER_STATE = 1 then (.abort 0x08000021, s) else body s x
        let reply := dictReply op m (some x.key) r
        match r with
        | .later => s
        | _ =>
          let s := match findSession s m.path m.session with
            | some y => setSession s { y with reply := reply }
            | none => s
          dictSend s m.path m.addr reply

/-- Existence (R71, R97). -/
def odExists (index sub : Nat) : Option Nat :=
  if !odIndexExists index then some 0x06020000
  else if (odLookup index sub).isNone then some 0x06090011 else none

/-- Rights to read (R65, R92). -/
def readRight (x : Session) (e : OdEntry) : Option Nat :=
  if x.level = 4 then none else if e.rl = 255 || e.rl > x.level then some 0x06010001 else none

/-- Does the safety controller write the entry (R94)? -/
def safetyMayWrite (e : OdEntry) : Bool := (0x5000 ≤ e.index && e.index ≤ 0x5FFF) || e.index == 0x2095

/-- Rights to write (R65, R66, R92, R94). -/
def writeRight (x : Session) (e : OdEntry) : Option Nat :=
  if e.persist = .c then some 0x06010002
  else if x.level = 4 then (if x.path = 0 && !safetyMayWrite e then some 0x06010002 else none)
  else if e.wl = 255 then some 0x06010002
  else if e.wl > x.level then some 0x06010003
  else none

/-- A request that carries no data by R76 has none, or its length is wrong (R97, R98; assumption log 114). -/
def dataAbort (m : DictMsg) : Option Nat := if m.data.isEmpty then none else some 0x06070010

/-- Length against the type (R64, R97). -/
def lengthAbort (e : OdEntry) (n : Nat) : Option Nat :=
  let ok : Bool := match e.ty with
    | .str => decide (n ≤ 255)
    | .domain => decide (n ≤ 16777216)
    | t => n == t.size
  if ok then none else some 0x06070010

/-- Are bytes UTF-8: at left continuation bytes are still to come, the next of them between lo and hi? -/
def utf8From : Nat → Nat → Nat → Bytes → Bool
  | left, _, _, [] => left == 0
  | 0, _, _, b :: r =>
    let n := b.toNat
    if n < 0x80 then utf8From 0 0 0 r
    else if 0xC2 ≤ n && n ≤ 0xDF then utf8From 1 0x80 0xBF r
    else if n = 0xE0 then utf8From 2 0xA0 0xBF r
    else if n = 0xED then utf8From 2 0x80 0x9F r
    else if 0xE1 ≤ n && n ≤ 0xEF then utf8From 2 0x80 0xBF r
    else if n = 0xF0 then utf8From 3 0x90 0xBF r
    else if 0xF1 ≤ n && n ≤ 0xF3 then utf8From 3 0x80 0xBF r
    else if n = 0xF4 then utf8From 3 0x80 0x8F r
    else false
  | left + 1, lo, hi, b :: r => lo ≤ b.toNat && b.toNat ≤ hi && utf8From left 0x80 0xBF r

/-- Value against type and range (R64, R69); a STRING is UTF-8 (assumption log 114). -/
def valueAbort (e : OdEntry) (v : OdVal) : Option Nat :=
  match v with
  | .bytes b => if e.ty = .str && !utf8From 0 0 0 b then some 0x06090030 else none
  | .num n =>
    if e.ty = .bool && n > 1 then some 0x06090030
    else match e.range with
      | .full => none
      | .between lo hi =>
        let i := e.ty.toInt n
        if i < lo then some 0x06090032 else if i > hi then some 0x06090031 else none
      | .oneOf vs => if vs.contains n then none else some 0x06090030
      | .bitsOf mask => if n &&& mask = n then none else some 0x06090040

/-- An entry marked job refuses a write while a job is loaded. -/
def jobAbort (s : M8) (e : OdEntry) : Option Nat := if e.job && jobLoaded s then some 0x08000021 else none

/-- The first abort of a list of checks. -/
def firstAbort : List (Option Nat) → Option Nat
  | [] => none
  | some c :: _ => some c
  | none :: r => firstAbort r

/-- Is the entry's DOMAIN held by another session (R75)? -/
def heldByOther (s : M8) (key sid : Nat) : Option Nat :=
  match s.dict.holds.find? fun h => h.key == key with
  | some h => if h.sid = sid then none else some 0x08000020
  | none => none

def dropHold (s : M8) (key : Nat) : M8 :=
  { s with dict := { s.dict with holds := s.dict.holds.filter fun h => h.key != key } }

def addHold (s : M8) (h : DomainHold) : M8 :=
  let s := dropHold s h.key
  { s with dict := { s.dict with holds := h :: s.dict.holds } }

/-- READ (R70, R75, R76). -/
def dictRead (rules : OdRules) (m : DictMsg) (s : M8) (x : Session) : DictRes × M8 :=
  let key := m.index * 256 + m.sub
  match odExists m.index m.sub, odLookup m.index m.sub with
  | some c, _ => (.abort c, s)
  | none, none => (.abort 0x06020000, s)
  | none, some e =>
    match firstAbort [readRight x e, dataAbort m, heldByOther s key x.sid] with
    | some c => (.abort c, s)
    | none =>
      match rules.read s x key with
      | .error c => (.abort c, s)
      | .ok (v, s) =>
        match e.ty, v with
        | .domain, .bytes b =>
          if b.length ≤ 1024 then (.data b true, dropHold s key)
          else (.data (b.take 1024) false,
                addHold s { key := key, sid := x.sid, isWrite := false, off := 1024, staged := b, time := s.clk.now })
        | _, _ => (.data (v.toBytes e.ty) false, s)

/-- READ_NEXT (R75): the session's own transfer goes on; the checks of R98 come before it. -/
def dictReadNext (m : DictMsg) (s : M8) (x : Session) : DictRes × M8 :=
  let key := m.index * 256 + m.sub
  match odExists m.index m.sub, odLookup m.index m.sub with
  | some c, _ => (.abort c, s)
  | none, none => (.abort 0x06020000, s)
  | none, some e =>
    match firstAbort [readRight x e, dataAbort m, heldByOther s key x.sid] with
    | some c => (.abort c, s)
    | none =>
      match s.dict.holds.find? fun h => h.key == key && h.sid == x.sid && !h.isWrite with
      | none => (.abort 0x08000021, s)
      | some h =>
        let b := (h.staged.drop h.off).take 1024
        if h.off + 1024 ≥ h.staged.length then (.data b true, dropHold s key)
        else (.data b false, addHold s { h with off := h.off + 1024, time := s.clk.now })

/-- Apply an accepted value: an N entry at once; a Y or YR entry waits for its store (R66, R67, R91). Whoever writes
is answered when the value is applied. -/
def acceptWrite (rules : OdRules) (m : DictMsg) (op : Nat) (s : M8) (x : Session) (e : OdEntry) (key : Nat) (v : OdVal) :
    DictRes × M8 :=
  if e.persist = .y || e.persist = .yr then
    (.later, { s with dict := { s.dict with
      stores := s.dict.stores ++ [{ key := key, val := v, master := x.path, sid := x.sid, seq := m.seq, op := op }] } })
  else (.data [] false, odPut (rules.effect s x key v) key v)

/-- The checks of a write up to its state, for the whole value v of an entry (R98). -/
def writeAbort (rules : OdRules) (s : M8) (x : Session) (e : OdEntry) (key : Nat) (v : OdVal) : Option Nat :=
  firstAbort [valueAbort e v, rules.check s x key v, heldByOther s key x.sid, jobAbort s e]

/-- WRITE (R75, R91, R98); a DOMAIN's first segment. -/
def dictWrite (rules : OdRules) (m : DictMsg) (s : M8) (x : Session) : DictRes × M8 :=
  let key := m.index * 256 + m.sub
  match odExists m.index m.sub, odLookup m.index m.sub with
  | some c, _ => (.abort c, s)
  | none, none => (.abort 0x06020000, s)
  | none, some e =>
    match firstAbort [writeRight x e, lengthAbort e m.data.length] with
    | some c => (.abort c, s)
    | none =>
      if e.ty = .domain && m.flags % 2 = 0 then
        match heldByOther s key x.sid with
        | some c => (.abort c, s)
        | none => (.data [] false, addHold s { key := key, sid := x.sid, isWrite := true, off := 0, staged := m.data, time := s.clk.now })
      else
        let v := OdVal.ofBytes e.ty m.data
        match writeAbort rules s x e key v with
        | some c => (.abort c, rules.reject (dropHold s key) x key v)
        | none => acceptWrite rules m 2 (dropHold s key) x e key v

/-- WRITE_NEXT (R75): the LAST segment commits the value; the checks of R98 come in their order. -/
def dictWriteNext (rules : OdRules) (m : DictMsg) (s : M8) (x : Session) : DictRes × M8 :=
  let key := m.index * 256 + m.sub
  match odExists m.index m.sub, odLookup m.index m.sub with
  | some c, _ => (.abort c, s)
  | none, none => (.abort 0x06020000, s)
  | none, some e =>
    match firstAbort [writeRight x e, heldByOther s key x.sid] with
    | some c => (.abort c, s)
    | none =>
      match s.dict.holds.find? fun h => h.key == key && h.sid == x.sid && h.isWrite with
      | none => (.abort 0x08000021, s)
      | some h =>
        let b := h.staged ++ m.data
        match lengthAbort e b.length with
        | some c => (.abort c, dropHold s key)
        | none =>
          if m.flags % 2 = 0 then (.data [] false, addHold s { h with staged := b, time := s.clk.now })
          else match writeAbort rules s x e key (.bytes b) with
            | some c => (.abort c, rules.reject (dropHold s key) x key (.bytes b))
            | none => acceptWrite rules m 4 (dropHold s key) x e key (.bytes b)

/-- Minimum and maximum of a numeric entry as DESCRIBE reports them (R69, R77). -/
def odBounds (e : OdEntry) : Int × Int :=
  match e.range with
  | .between lo hi => (lo, hi)
  | .oneOf vs => (((vs.foldl Nat.min (vs.headD 0) : Nat) : Int), ((vs.foldl Nat.max 0 : Nat) : Int))
  | .bitsOf mask => (0, mask)
  | .full =>
    match e.ty with
    | .bool => (0, 1)
    | .signed k => (-(2 ^ (8 * k - 1) : Nat), (2 ^ (8 * k - 1) - 1 : Nat))
    | t => (0, (2 ^ (8 * t.size) - 1 : Nat))

/-- The persistence code of a descriptor (R77). -/
def Persist.code : Persist → Nat
  | .n => 0 | .y => 1 | .yr => 2 | .c => 3

/-- DESCRIBE (R77). -/
def dictDescribe (m : DictMsg) (s : M8) (_x : Session) : DictRes × M8 :=
  match odExists m.index m.sub, odLookup m.index m.sub with
  | some c, _ => (.abort c, s)
  | none, none => (.abort 0x06020000, s)
  | none, some e =>
    if !m.data.isEmpty then (.abort 0x06070010, s) else
    let w := e.ty.size
    let bounds := if e.ty.numeric then
      natLe w (unsigned (8 * w) (odBounds e).1) ++ natLe w (unsigned (8 * w) (odBounds e).2) else []
    (.data (natLe 1 e.ty.code ++ natLe 1 e.rl ++ natLe 1 e.wl ++ natLe 1 e.persist.code ++ natLe 4 e.ty.maxLen ++
      bounds ++ (e.dflt.toBytes e.ty).take 1024) false, s)

/-- The service of a path is on (R72, R82, R87). -/
def pathEnabled (s : M8) (path : Nat) : Bool :=
  if path = 2 then odInForce s Od.FABRIC_DICT_ENABLE == 1
  else if path = 3 then odInForce s Od.MBX_ENABLE == 1
  else odInForce s Od.MGMT_ENABLE == 1

/-- The session places of a path (R72, R87). -/
def pathPlaces (s : M8) (path : Nat) : Nat :=
  if path = 2 then odInForce s Od.FABRIC_MAX_SESSIONS
  else if path = 3 then odInForce s Od.MBX_MAX_SESSIONS
  else odInForce s Od.MGMT_MAX_SESSIONS

/-- Places taken on a path: open sessions and pending HELLOs (R87). -/
def placesUsed (s : M8) (path : Nat) : Nat :=
  (s.dict.sessions.filter fun x => x.path == path).length + (s.dict.hellos.filter fun x => x.path == path).length

/-- A session identifier that is not 0 and not in use, drawn at random (R85). -/
def drawSession (s : M8) : Nat × M8 :=
  let (b, s) := drawBytes s 4
  let used := s.dict.sessions.map Session.sid ++ s.dict.hellos.map Hello.sid
  let n := leNat b
  (if n ≠ 0 && !used.contains n then n else used.foldl max 0 + 1, s)

/-- HELLO (R78, R84, R85, R87): refused as malformed, for its tag or length (assumption log 114), for an empty key slot, a locked level or a full path; on a path whose
service is off nothing is answered. -/
def dictHello (s : M8) (m : DictMsg) : M8 :=
  if s.dbg.stop || m.path < 2 || !pathEnabled s m.path then s
  else
    let level := leField m.data 0 1
    let refuse (c : Nat) : M8 := dictSend s m.path m.addr (dictReply 0x10 m none (.abort c))
    if !formOk m || m.session ≠ 0 || level > 3 then refuse 0x05040005
    else if m.tag ≠ zeros 16 then refuse 0x05040001
    else if m.data.length ≠ 17 then refuse 0x06070010
    else if odNat s Od.POWER_STATE = 1 then refuse 0x08000021
    else if level < 3 && (levelKey s level).all (· == 0#8) then refuse 0x05040002
    else if levelLocked s level then refuse 0x05040003
    else if placesUsed s m.path ≥ pathPlaces s m.path then refuse 0x05040004
    else
      let (sid, s) := drawSession s
      let (nd, s) := drawBytes s 16
      let h : Hello := { path := m.path, addr := m.addr, level := level, sid := sid, nc := m.data.drop 1, nd := nd, time := s.clk.now }
      let s := { s with dict := { s.dict with hellos := s.dict.hellos ++ [h] } }
      dictSend s m.path m.addr (dictReply 0x10 m none (.data (natLe 4 sid ++ nd) false))

/-- The proofs and the session key (R84). -/
def clientProof (k : Bytes) (h : Hello) : Bytes :=
  hmacSha256 k (ascii "M8-AUTH" ++ h.nc ++ h.nd ++ natLe 4 h.sid ++ natLe 1 h.level)

def deviceProof (k : Bytes) (h : Hello) : Bytes :=
  hmacSha256 k (ascii "M8-DEV" ++ h.nc ++ h.nd ++ natLe 4 h.sid ++ natLe 1 h.level)

def sessionKey (k : Bytes) (h : Hello) : Bytes :=
  hmacSha256 k (ascii "M8-SESS" ++ h.nd ++ h.nc ++ natLe 4 h.sid)

/-- PROOF (R84, R87): a match opens the session, a mismatch counts against the level and ends the HELLO. -/
def dictProof (s : M8) (m : DictMsg) : M8 :=
  if s.dbg.stop || m.path < 2 || !pathEnabled s m.path then s
  else if !formOk m then dictSend s m.path m.addr (dictReply 0x11 m none (.abort 0x05040005))
  else match s.dict.hellos.find? fun h => h.sid == m.session && h.path == m.path with
    | none => dictSend s m.path m.addr (dictReply 0x11 m none (.abort 0x05040000))
    | some h =>
      if m.tag ≠ zeros 16 then dictSend s m.path m.addr (dictReply 0x11 m none (.abort 0x05040001))
      else if m.data.length ≠ 32 then dictSend s m.path m.addr (dictReply 0x11 m none (.abort 0x06070010)) else
      let k := levelKey s h.level
      let s := { s with dict := { s.dict with hellos := s.dict.hellos.filter fun g => g.sid != h.sid } }
      if clientProof k h = m.data then
        let x : Session := { path := h.path, addr := h.addr, level := h.level, sid := h.sid, key := sessionKey k h, active := s.clk.now }
        let s := authClear { s with dict := { s.dict with sessions := s.dict.sessions ++ [x] } } h.level
        dictSend s m.path m.addr (dictReply 0x11 m none (.data (deviceProof k h) false))
      else dictSend (authFail s h.level) m.path m.addr (dictReply 0x11 m none (.abort 0x05040001))

/-- CLOSE (R88). -/
def dictClose (s : M8) (m : DictMsg) : M8 :=
  let s := dictServe s 0x12 m fun s _ => match dataAbort m with
    | some c => (.abort c, s)
    | none => (.data [] false, s)
  match findSession s m.path m.session with
  | some x => if x.seq = m.seq && x.reply.take 1 = [0x92#8] then closeSession s m.session else s
  | none => s

/-- The persistent store of the first waiting write of an entry has ended: applied and acknowledged, or refused with
0x0800_0022 and the old value standing (R67, R91). The mailbox, which holds its message until a reply, tells a writer whose session
has closed meanwhile so (assumption log 51). -/
def storeComplete (rules : OdRules) (s : M8) (key : Nat) (ok : Bool) : M8 :=
  match s.dict.stores.find? fun q => q.key == key with
  | none => s
  | some q =>
    let s := { s with dict := { s.dict with stores := s.dict.stores.erase q } }
    let x := match findSession s q.master q.sid with
      | some x => x
      | none => { fwSession q.master with sid := q.sid }
    let s := if ok then odSetStored (rules.effect s x key q.val) key q.val else s
    let r : DictRes := if ok then .data [] false else .abort 0x08000022
    if q.master < 2 then (if ok then s else emit s (.fwStatus 0x08000022))
    else
      let m : DictMsg := { path := q.master, seq := q.seq, session := q.sid, index := key / 256, sub := key % 256 }
      match findSession s q.master q.sid with
      | none => if q.master = 3 then dictSend s 3 0 (dictReply q.op m none (.abort 0x05040000)) else s
      | some x =>
        let reply := dictReply q.op m (some x.key) r
        dictSend (setSession s { x with reply := if x.seq = q.seq then reply else x.reply }) q.master x.addr reply

/-- Do two writes collide, and does the first lose (R89, R90)? By master priority, then the lower session. -/
def losesTo (a b : DictMsg) : Bool :=
  a.index == b.index && a.sub == b.sub && a.data != b.data &&
    (b.path < a.path || (b.path == a.path && b.session < a.session))

/-- Record a collision (R72, R90). -/
def recordConflict (s : M8) (loser : DictMsg) : M8 :=
  odSet (odSet (odInc s Od.CONFLICT_COUNT) Od.CONFLICT_LAST (loser.index * 256 + loser.sub)) Od.CONFLICT_LOSER loser.path

/-- One write of a hub clock in which the writes ws arrive: it loses arbitration to a colliding one that wins, else it
is applied (R90, R91, R98: arbitration is the last check). -/
def dictWriteAmong (rules : OdRules) (ws : List DictMsg) (s : M8) (m : DictMsg) : M8 :=
  dictServe s 0x02 m fun s x =>
    if ws.any (losesTo m) then
      let (r, _) := dictWrite rules m s x
      match r with
      | .abort c => (.abort c, s)
      | _ => (.abort 0x08000024, recordConflict s m)
    else dictWrite rules m s x

end Machine
end Sys2Proof
end

