-- ==== Sys2Proof/Machine/Flash.lean ====
section
/-!
DEFINITION. Sys2Proof/Machine/Flash.lean: flash channels and media management (R382 to R413): the map and its journal,
versions, garbage collection, the erasure code, health.
-/
namespace Sys2Proof
namespace Machine

def modFl (s : M8) (f : Flash → Flash) : M8 := { s with fl := f s.fl }

/-! ### Addresses and the map (R384, R388, R389) -/

/-- NS_PAGES (R388). -/
def nsPages (s : M8) : Nat := odInForce s Od.NS_CAPACITY / 4096

/-- A map entry that names a flash address: STATE 1 (R388). -/
def mapEntry (phys : Option Nat) : Nat := match phys with
  | some p => 2 ^ 62 + p
  | none => 0

/-- Channel, target, block and retired-block key of a flash address. -/
def physChannel (p : Nat) : Nat := bits p 37 31

def physDie (p : Nat) : Nat := bits p 37 27

def physBlock (p : Nat) : Nat := bits p 24 14

def blockKey (p : Nat) : Nat := p / 2 ^ 14

/-- Units of 16 KiB of a superblock: 2,048 dies, 4 planes, 2,944 pages (R384). -/
def sbUnits : Nat := 2048 * 4 * 2944

/-- The flash address of codeword pos of a superblock: consecutive 16 KiB units on consecutive dies, channel-major
(R402; assumption log 30). -/
def physAt (sb pos : Nat) : Nat :=
  let u := pos / 4
  let r := u / 2048
  (u % 128) * 2 ^ 31 + (u / 128 % 16) * 2 ^ 27 + (r % 4) * 2 ^ 25 + sb * 2 ^ 14 + (r / 4) * 4 + pos % 4

/-- Is a codeword place usable: its channel and die in service, its block not retired (R384, R386, R405)? -/
def placeOk (x : Flash) (p : Nat) : Bool :=
  x.chanRate.find (physChannel p) != some 0 && !x.diesOut.contains (physDie p) && !x.retired.contains (blockKey p)

/-- The next usable place of a superblock from pos on. fuel bounds the units skipped. -/
def nextPlace (x : Flash) (sb : Nat) : Nat → Nat → Option Nat
  | 0, _ => none
  | f + 1, pos =>
    if pos ≥ 4 * sbUnits then none
    else if placeOk x (physAt sb pos) then some pos
    else nextPlace x sb f ((pos / 4 + 1) * 4)

/-- The lowest free superblock of the 1,296 (R403). -/
def freeSb (x : Flash) : Option Nat := (List.range 1296).find? fun b => (x.sbs.get {} b).st == .free

/-- Free superblocks. -/
def freeSbs (x : Flash) : Nat := 1296 - (x.sbs.filter fun p => p.2.st != .free).length

def setSb (x : Flash) (b : Nat) (i : SbInfo) : Flash := { x with sbs := x.sbs.set {} b i }

/-- Open a superblock for a stream, closing the one it had (R403). -/
def openSb (x : Flash) (k : Nat) : Flash :=
  let st := x.streams.get {} k
  let x := match st.sb with
    | some b => setSb x b { x.sbs.get {} b with st := .closed }
    | none => x
  match freeSb x with
  | some b => { setSb x b { x.sbs.get {} b with st := .opened } with
      streams := x.streams.set {} k { st with sb := some b, pos := 0, wl := 0 } }
  | none => { x with streams := x.streams.set {} k { st with sb := none } }

/-- Take the next codeword place of a stream, opening a superblock where its own is full; none when no space is left. -/
def takePlace (x : Flash) (k : Nat) : Option Nat × Flash :=
  let try_ (x : Flash) : Option Nat × Flash :=
    let st := x.streams.get {} k
    match st.sb with
    | some b => match nextPlace x b 8192 st.pos with
      | some p => (some (physAt b p), { x with streams := x.streams.set {} k { st with pos := p + 1 } })
      | none => (none, x)
    | none => (none, x)
  match try_ x with
  | (some p, x) => (some p, x)
  | (none, x) => try_ (openSb x k)

/-- A stream that is not programming starts the next word line of up to 64 codewords (R387). -/
def kick (x : Flash) (k : Nat) : Flash :=
  let st := x.streams.get {} k
  if st.busy || st.buf.isEmpty then x
  else { x with streams := x.streams.set {} k { st with busy := true, prog := st.buf.take 64, buf := st.buf.drop 64 } }

/-- Hand an item to a stream. -/
def enqueue (x : Flash) (k : Nat) (i : FlashItem) : Flash :=
  kick { x with streams := x.streams.modify {} k fun st => { st with buf := st.buf ++ [i] } } k

/-- Map page of an LPN (R389). -/
def pageOf (lpn : Nat) : Nat := lpn / 2048

/-- The entries of a map page in force. -/
def pageEnts (x : Flash) (page : Nat) : Sparse Nat := x.map.filter fun p => pageOf p.1 == page

/-- The copy a lookup in sealed version v uses: the first delta table from v up to the open version that holds the page
(R400). -/
def deltaFor (x : Flash) (v page : Nat) : Option DeltaPg :=
  (x.delta.filter fun d => d.page == page && v ≤ d.version).foldl (fun a d => match a with
    | some b => if d.version < b.version then some d else some b
    | none => some d) none

/-- The flash address version v maps an LPN to; version 0 and the open version read the map (R400). -/
def lookup (x : Flash) (v lpn : Nat) : Option Nat :=
  if v = 0 || v ≥ x.openVer then x.map.find lpn
  else match deltaFor x v (pageOf lpn) with
    | some d => d.ents.find lpn
    | none => x.map.find lpn

/-- The 4,096 bytes an LPN reads as in a version: zeros where it is unmapped (R388). -/
def readLpn (x : Flash) (v lpn : Nat) : Bytes :=
  match lookup x v lpn with
  | some p => slice (x.cw.get (0, []) p).2 0 4096
  | none => zeros 4096

/-- n bytes from a byte position of the namespace of a version. -/
def readNs (x : Flash) (v pos n : Nat) : Bytes :=
  let first := pos / 4096
  let k := (pos + n + 4095) / 4096 - first
  slice ((List.range k).flatMap fun i => readLpn x v (first + i)) (pos % 4096) n

/-- Versions that can be read: the open one and the sealed ones held (R399). -/
def versionHeld (x : Flash) (v : Nat) : Bool := v == 0 || v == x.openVer || x.held.contains v

/-! ### The map cache (R390) -/

/-- Slots of the map cache (R389). -/
def cacheSlots (s : M8) : Nat := odInForce s Od.PART_MAP_CACHE / 16384

/-- The clean page least recently used; a page being written back is pinned. -/
def evictable (x : Flash) : Option Nat :=
  ((x.cache.filter fun p => !p.2.dirty && !p.2.writing).foldl (fun a p => match a with
    | some (k, c) => if p.2.lastUse < c then some (p.1, p.2.lastUse) else some (k, c)
    | none => some (p.1, p.2.lastUse)) none).map Prod.fst

/-- Load a map page that is not in the cache into a free slot, evicting a clean page when none is free (R390). -/
def loadPage (s : M8) (page : Nat) : M8 :=
  if s.fl.cache.has page then s
  else
    let put (drop : Option Nat) : M8 := odInc (modFl s fun x => { x with
      cache := (match drop with
        | some v => Sparse.drop x.cache v
        | none => x.cache).put page { lastUse := s.clk.now } }) Od.MAP_MISSES
    if s.fl.cache.length < cacheSlots s then put none
    else match evictable s.fl with
      | some v => put (some v)
      | none => s

/-- A lookup uses a page: it is loaded on a miss, and it is the one most recently used. -/
def usePage (s : M8) (page : Nat) : M8 :=
  modFl (loadPage s page) fun x => { x with cache := x.cache.adjust page fun c => { c with lastUse := s.clk.now } }

/-- A lookup misses (R390). -/
def execMapCacheMiss (page : Nat) (s : State) : Out := live s fun m => loadPage m page

/-! ### The journal (R391 to R397) -/

/-- A journal record's bytes (R391). -/
def JRec.bytes (r : JRec) : Bytes :=
  let b := natLe 8 r.seq ++ natLe 1 r.type ++ natLe 1 r.ents.length ++ zeros 2 ++ natLe 6 r.first ++ natLe 4 r.version ++ zeros 2 ++
    r.ents.flatMap (natLe 8)
  b ++ natLe 4 (crc32c b)

/-- Number a new record. It joins a journal word line at once where no data codeword is awaited (R392). -/
def addRec (x : Flash) (r : JRec) : Flash :=
  let r := { r with seq := x.nextSeq, version := x.openVer }
  let x := { x with nextSeq := x.nextSeq + 1, recs := x.recs ++ [r] }
  if r.waits.isEmpty then enqueue x 4 (.record r.seq) else x

def modRec (x : Flash) (seq : Nat) (f : JRec → JRec) : Flash :=
  { x with recs := x.recs.map fun r => if r.seq = seq then f r else r }

/-- An item's word line is durable (R392 to R394, R404). -/
def itemDurable (x : Flash) (i : FlashItem) : Flash :=
  match i with
  | .data p seq =>
    let x := modRec x seq fun r => { r with waits := r.waits.filter (· != p) }
    if x.recs.any fun r => r.seq == seq && r.waits.isEmpty then enqueue x 4 (.record seq) else x
  | .record seq => modRec x seq fun r => { r with ready := true }
  | .mapPage page p seq ents =>
    addRec x { type := 4, first := page, ents := [mapEntry (some p)], olds := [seq], pageEnts := ents }
  | .moved p old lpn => addRec x { type := 1, first := lpn, ents := [mapEntry (some p)], olds := [old] }
  | .pad => x

/-- A word line's program completes (R394): the word line before it is durable, and it is durable itself when it is the
last of its block. -/
def programDone (x : Flash) (k now : Nat) : Flash :=
  let st := x.streams.get {} k
  if !st.busy then x
  else
    let lastOfBlock := (st.wl + 1) % 736 = 0
    let dur := if lastOfBlock then st.last ++ st.prog else st.last
    let x := { x with streams := x.streams.set {} k { st with
      busy := false, wl := st.wl + 1, prog := [], last := if lastOfBlock then [] else st.prog, doneAt := now } }
    kick (dur.foldl itemDurable x) k

/-- WORDLINE_PROGRAM_DONE of an open superblock (R394). -/
def execWordlineProgramDone (k : Nat) (s : State) : Out :=
  live s fun m => if k < 5 then modFl m fun x => programDone x k m.clk.now else m

/-- No data has arrived for FUA_PAD_US: the next word line is programmed with pad data (R394). -/
def execFuaPadTimeout (k : Nat) (s : State) : Out :=
  live s fun m =>
    let st := m.fl.streams.get {} k
    if k < 5 && !st.busy && st.buf.isEmpty && !st.last.isEmpty && m.clk.now ≥ st.doneAt + 1000 * odNat m Od.FUA_PAD_US then
      modFl m fun x => enqueue x k .pad
    else m

/-- Entry i of a record, as a flash address. -/
def JRec.phys (r : JRec) (i : Nat) : Option Nat :=
  let e := r.ents.getD i 0
  if e / 2 ^ 62 = 1 then some (e % 2 ^ 38) else none

/-- Give an LPN its entry. -/
def setMap (m : Sparse Nat) (lpn : Nat) (p : Option Nat) : Sparse Nat :=
  match p with
  | some q => m.put lpn q
  | none => m.drop lpn

/-- Mark a map page changed by a record. -/
def dirtyPage (x : Flash) (lpn seq now : Nat) : Flash :=
  let c := (x.cache.find (pageOf lpn)).getD {}
  { x with cache := x.cache.put (pageOf lpn) { c with dirty := true, seq := max c.seq seq, lastUse := now } }

/-- The LPNs a record covers. -/
def JRec.lpns (r : JRec) : List Nat := (List.range r.ents.length).map (r.first + ·)

/-- Apply a record's entries in one hub clock; a secure discard's LPNs leave the delta tables too (R392, R393, R399, R400,
R404, R412). -/
def applyRec (x : Flash) (r : JRec) (now : Nat) : Flash :=
  if r.type = 4 then
    match r.phys 0 with
    | some p =>
      let dirtyAfter := match x.cache.find r.first with
        | some c => c.seq > r.olds.headD 0
        | none => false
      { x with
        dir := x.dir.put r.first { addr := p, seq := r.olds.headD 0, version := r.version, ents := r.pageEnts },
        cache := x.cache.adjust r.first fun c => { c with dirty := dirtyAfter, writing := false } }
    | none => x
  else if r.type = 5 then { x with held := x.held ++ [x.openVer], openVer := x.openVer + 1 }
  else if r.type = 6 then
    { x with delta := x.delta ++ [{ version := (x.held.getLast?).getD 0, page := r.first, ents := pageEnts x r.first }] }
  else if r.type = 7 then
    let dir := x.cache.foldl (fun d p => if p.2.dirty then
      d.put p.1 { (d.get {} p.1) with seq := p.2.seq, version := r.version, ents := pageEnts x p.1 } else d) x.dir
    { x with checkpointAt := now, checkpointSeq := r.seq, dir := dir, recs := x.recs.filter fun q => q.seq ≥ r.seq,
             cache := x.cache.map fun p => (p.1, { p.2 with dirty := false }) }
  else if r.type = 1 && !r.olds.isEmpty then
    let old := r.olds.headD 0
    let p := (r.phys 0).getD 0
    let x := if x.map.find r.first = some old then dirtyPage { x with map := x.map.put r.first p } r.first r.seq now else x
    { x with delta := x.delta.map fun d => if d.ents.find r.first = some old then { d with ents := d.ents.put r.first p } else d }
  else
    let x := if r.type = 3 then { x with delta := x.delta.map fun d => { d with ents := d.ents.filter fun e =>
      e.1 < r.first || e.1 ≥ r.first + r.ents.length } } else x
    (List.range r.ents.length).foldl (fun x i =>
      dirtyPage { x with map := setMap x.map (r.first + i) (r.phys i) } (r.first + i) r.seq now) x

/-- The oldest record not yet durable. -/
def nextRec (x : Flash) : Option JRec := x.recs.find? fun r => !r.durable

/-- OPEN_VERSION and VERSIONS_HELD follow the version table (R399, R414). -/
def setVersions (s : M8) : M8 := odSet (odSet s Od.OPEN_VERSION s.fl.openVer) Od.VERSIONS_HELD s.fl.held.length

/-- A journal record becomes durable, in SEQ order: the map cache applies its entries (R392, R395). -/
def recordDurable (s : M8) : M8 :=
  match nextRec s.fl with
  | some r =>
    if r.ready then
      let s := modFl s fun x => applyRec (modRec x r.seq fun q => { q with durable := true }) r s.clk.now
      let s := if r.type = 4 then odInc s Od.MAP_WRITEBACKS else s
      setVersions (odSet s Od.JOURNAL_SEQ r.seq)
    else s
  | none => s

/-- JOURNAL_RECORD_DURABLE (R392). -/
def execJournalRecordDurable (s : State) : Out := live s recordDurable

/-- A dirty map page starts its write-back with the highest SEQ it reflects (R393). -/
def writeback (x : Flash) (page : Nat) : Flash :=
  match x.cache.find page with
  | some c =>
    if c.dirty && !c.writing then
      match takePlace x 3 with
      | (some p, x) =>
        enqueue { x with cache := x.cache.put page { c with writing := true } } 3 (.mapPage page p c.seq (pageEnts x page))
      | (none, x) => x
    else x
  | none => x

/-- MAP_WRITEBACK (R393). -/
def execMapWriteback (page : Nat) (s : State) : Out := live s fun m => modFl m fun x => writeback x page

/-- A checkpoint is due every 60 s, and at 2^24 records since the last (R397). -/
def checkpointDue (s : M8) : Bool :=
  s.clk.now ≥ s.fl.checkpointAt + 60000000000 || s.fl.nextSeq - s.fl.checkpointSeq ≥ 2 ^ 24

/-- Write a checkpoint: TYPE 7 (R397). -/
def checkpoint (s : M8) : M8 := modFl s fun x => addRec x { type := 7 }

/-- CHECKPOINT (R397). -/
def execCheckpoint (s : State) : Out :=
  live s fun m => if checkpointDue m && !(m.fl.recs.any fun r => r.type == 7 && !r.durable) then checkpoint m else m

/-- The records that replay at mount reaches: SEQ without a break, each durable in flash (R395). -/
def replayable : Nat → List JRec → List JRec
  | _, [] => []
  | seq, r :: rs => if r.ready && r.seq = seq then r :: replayable (seq + 1) rs else []

/-- The map the directory names. -/
def dirMap (x : Flash) : Sparse Nat := x.dir.foldl (fun m p => p.2.ents.foldl (fun m e => m.put e.1 e.2) m) []

/-- Apply a record at mount to the pages whose SEQ it exceeds (R396). -/
def replayRec (x : Flash) (r : JRec) : Flash :=
  let fresh (i : Nat) : Bool := (x.dir.get {} (pageOf (r.first + i))).seq < r.seq
  if r.type = 5 || r.type = 6 then (if r.durable then x else applyRec x r 0)
  else if r.type = 4 || r.type = 7 then applyRec x r 0
  else if r.type = 1 && !r.olds.isEmpty then applyRec x r 0
  else (List.range r.ents.length).foldl (fun x i =>
    if fresh i then dirtyPage { x with map := setMap x.map (r.first + i) (r.phys i) } (r.first + i) r.seq 0 else x) x

/-- Mount (R395 to R398): the map is what the directory and the replayed records give; what was never durable is gone. -/
def mount (x : Flash) : Flash :=
  let rs := replayable (match x.recs with
    | r :: _ => r.seq
    | [] => x.nextSeq) x.recs
  let x := { x with map := dirMap x, cache := [], streams := x.streams.map fun p =>
    (p.1, { p.2 with buf := [], prog := [], last := [], busy := false }) }
  let x := rs.foldl replayRec x
  { x with recs := rs.map fun r => { r with durable := true }, mounted := true,
           nextSeq := (rs.getLast?).elim (max x.checkpointSeq (x.nextSeq - x.recs.length - 1) + 1) (fun r => r.seq + 1) }

/-- MOUNT (R395 to R397). -/
def execMount (s : State) : Out :=
  live s fun m => if m.fl.mounted then m else
    let m := modFl m mount
    setVersions (odSet m Od.JOURNAL_SEQ (m.fl.nextSeq - 1))

/-! ### Writing (R392, R400, R408) -/

/-- Pages of delta tables held (R400). -/
def deltaPages (x : Flash) : Nat := x.delta.length

/-- Map pages among those given that the newest held version still uses and has no copy of, copies under way counted
(R400). -/
def needCopy (x : Flash) (pages : List Nat) : List Nat :=
  match x.held.getLast? with
  | none => []
  | some v => pages.eraseDups.filter fun g =>
    !(x.delta.any fun d => d.version == v && d.page == g) && !(x.recs.any fun r => r.type == 6 && r.first == g && !r.durable)

/-- Copy pages into the newest held version's delta table first (R400). -/
def copyPages (x : Flash) (pages : List Nat) : Flash :=
  pages.foldl (fun x g => match takePlace x 3 with
    | (some p, x) => addRec x { type := 6, first := g, ents := [mapEntry (some p)] }
    | (none, x) => x) x

/-- Place and program the codewords of consecutive LPNs; answers their addresses. -/
def programData (x : Flash) (k seq : Nat) : List (Nat × Bytes) → List Nat × Flash
  | [] => ([], x)
  | (lpn, b) :: rest =>
    match takePlace x k with
    | (some p, x) =>
      let (ps, x) := programData (enqueue { x with cw := x.cw.put p (lpn, b) } k (.data p seq)) k seq rest
      (p :: ps, x)
    | (none, x) => ([], x)

/-- GF(2^8) multiplication with polynomial 0x11D (R407). -/
def gfMul : Nat → Nat → Nat → Nat
  | 0, _, _ => 0
  | n + 1, a, b =>
    let rest := gfMul n (if a.testBit 7 then ((2 * a) % 256) ^^^ 0x1D else 2 * a) (b / 2)
    if b.testBit 0 then a ^^^ rest else rest

def gf (a b : Nat) : Nat := gfMul 8 a b

/-- The inverse of a non-zero element of GF(2^8). -/
def gfInv (a : Nat) : Nat := ((List.range 256).find? fun b => gf a b == 1).getD 0

/-- g[q][j] = 1 / (q xor (M + j)) (R407). -/
def cauchy (m q j : Nat) : Nat := gfInv (q ^^^ (m + j))

/-- A chunk's bytes times a coefficient. -/
def gfScale (c : Nat) (b : Bytes) : Bytes := b.map fun x => BitVec.ofNat 8 (gf c x.toNat)

def xorBytes (a b : Bytes) : Bytes := List.zipWith (fun x y => x ^^^ y) a b

def ecK (s : M8) : Nat := odInForce s Od.EC_K

def ecM (s : M8) : Nat := odInForce s Od.EC_M

/-- stripe_of(i, c) and the position of member i in it (R406). -/
def stripeOf (k w i c : Nat) : Nat × Nat :=
  let t := c % k
  ((c / k) * w + (i + w - t % w) % w, t)

/-- The member that holds parity q of a stripe (R406). -/
def parityMember (k w stripe q : Nat) : Nat := (stripe + k + q) % w

/-- The payload of a parity contribution: writer index, chunk, page, SEQ, data (R408; assumption log 31). -/
def parityPayload (member chunk page seq : Nat) (b : Bytes) : Bytes :=
  natLe 2 member ++ natLe 6 chunk ++ natLe 2 page ++ natLe 8 seq ++ b

/-- The role whose flash the device's own namespace is: the first it holds. -/
def ownIndex (s : M8) : Option Nat := s.grp.own.head?

/-- Send the contributions of one data page to each parity holder of its stripe (R408, R409). -/
def sendParity (s : M8) (lpn seq : Nat) (old new : Bytes) : M8 :=
  match ownIndex s with
  | none => s
  | some i =>
    let k := ecK s
    let m := ecM s
    let w := groupW s
    let c := lpn / 4096
    let (st, t) := stripeOf (max 1 k) (max 1 w) i c
    if w = 0 then s
    else (List.range m).foldl (fun s q =>
      let s := sendFrame s (roleHolder s (parityMember k w st q)) 0x8 0
        (parityPayload i c (lpn % 4096) seq (gfScale (cauchy m q t) (xorBytes new old)))
      odAdd (modFl s fun x => { x with pending := seq :: x.pending }) Od.PARITY_PENDING 1) s

/-- Store 1 to 64 consecutive LPNs with one record (R392, R395, R400): answers the record's SEQ, or the failing STATUS
(R433): delta tables full 0x0013, no space left 0x0016. -/
def writePiece (s : M8) (lpn : Nat) (pages : List Bytes) : Except Nat (Nat × M8) :=
  let n := pages.length
  let lpns := (List.range n).map (lpn + ·)
  let copies := needCopy s.fl (lpns.map pageOf)
  if deltaPages s.fl + copies.length > 16777216 then .error 0x0013
  else
    let olds := lpns.map fun l => readLpn s.fl 0 l
    let x := copyPages s.fl copies
    let seq := x.nextSeq
    let (ps, x) := programData { x with nextSeq := seq + 1 } 0 seq (lpns.zip pages)
    if ps.length < n then .error 0x0016
    else
      let r : JRec := { seq := seq, type := 1, first := lpn, version := x.openVer, ents := ps.map fun p => mapEntry (some p), waits := ps }
      let s := { s with fl := { x with recs := x.recs ++ [r] } }
      let s := (List.range n).foldl (fun s i => sendParity s (lpn + i) seq (olds.getD i []) (pages.getD i [])) s
      .ok (seq, s)

/-- Unmap 1 to 64 consecutive LPNs by a record of TYPE 2 or 3 (R411, R412). -/
def discardPiece (s : M8) (type lpn n : Nat) : Except Nat (Nat × M8) :=
  let lpns := (List.range n).map (lpn + ·)
  let copies := needCopy s.fl (lpns.map pageOf)
  if deltaPages s.fl + copies.length > 16777216 then .error 0x0013
  else
    let olds := lpns.map fun l => readLpn s.fl 0 l
    let x := copyPages s.fl copies
    let seq := x.nextSeq
    let s := { s with fl := addRec x { type := type, first := lpn, ents := List.replicate n 0 } }
    .ok (seq, (List.range n).foldl (fun s i => sendParity s (lpn + i) seq (olds.getD i []) (zeros 4096)) s)

/-- Is a record durable (applied, or before the last checkpoint)? -/
def recDurable (x : Flash) (seq : Nat) : Bool := seq < x.nextSeq && !(x.recs.any fun r => r.seq == seq && !r.durable)

/-! ### Parity held for other members (R408) -/

/-- The internal LPN of a page of parity chunk b M + q (R388, R406). -/
def parityLpn (m b q page : Nat) : Nat := 0x800000000000 + (b * m + q) * 4096 + page

/-- XOR a contribution into its parity page: the page is written anew (R408). -/
def applyParity (s : M8) (lpn : Nat) (b : Bytes) : M8 :=
  match writePiece s lpn [xorBytes (readLpn s.fl 0 lpn) b] with
  | .ok (_, s) => s
  | .error _ => s

/-- Apply what has become due of one member's contributions to one stripe. fuel bounds them. -/
def drainParity (lpnOf : Nat → Nat) (key : Nat) : Nat → M8 → M8
  | 0, s => s
  | f + 1, s =>
    let p := s.fl.parity.get {} key
    match p.waiting.find? fun w => w.2.1 ≤ p.seq with
    | some (seq, before, page, b) =>
      let p' := { p with waiting := p.waiting.erase (seq, before, page, b) }
      let dup := seq < p.seq || (seq = p.seq && p.pages.contains page)
      let p' := if dup then p' else if seq = p.seq then { p' with pages := page :: p.pages } else { p' with seq := seq, pages := [page] }
      let s := modFl s fun x => { x with parity := x.parity.set {} key p' }
      drainParity lpnOf key f (if dup then s else applyParity s (lpnOf page) b)
    | none => s

/-- A parity holder takes a contribution of a member for a chunk's page (R408): applied in SEQ order, once; one that
comes after a gap waits. before is the SEQ of the member's contribution to the stripe that precedes it (assumption
log 31). -/
def execParityContribution (member chunk page seq before : Nat) (data : Bytes) (s : State) : Out :=
  live s fun m =>
    let k := ecK m
    let w := groupW m
    let (st, _) := stripeOf (max 1 k) (max 1 w) member chunk
    match (List.range (ecM m)).find? fun q => holdsRole m (parityMember k w st q) with
    | none => m
    | some q =>
      let key := st * 64 + member
      let m := modFl m fun x => { x with parity := x.parity.modify {} key fun p =>
        { p with waiting := p.waiting ++ [(seq, before, page, data)] } }
      drainParity (parityLpn (ecM m) (st / max 1 w) q) key ((m.fl.parity.get {} key).waiting.length) m

/-! ### Rebuild of a codeword (R410) -/

/-- Row of the generator for position j of a stripe: the identity for data, the Cauchy row for parity (R407). -/
def genRow (k m j : Nat) : List Nat :=
  (List.range k).map fun t => if j < k then b2n (t == j) else cauchy m (j - k) t

/-- Subtract c times row p from row r, in GF(2^8). -/
def rowSub (c : Nat) (p r : List Nat × Bytes) : List Nat × Bytes :=
  (List.zipWith (fun x y => x ^^^ gf c y) r.1 p.1, xorBytes r.2 (gfScale c p.2))

/-- Gauss-Jordan elimination from column t on; done holds the rows already reduced. fuel bounds the columns. -/
def gauss : Nat → Nat → List (List Nat × Bytes) → List (List Nat × Bytes) → List (List Nat × Bytes)
  | 0, _, done, _ => done
  | f + 1, t, done, rows =>
    match rows.find? fun r => r.1.getD t 0 != 0 with
    | none => done
    | some p =>
      let inv := gfInv (p.1.getD t 0)
      let p' := (p.1.map fun x => gf inv x, gfScale inv p.2)
      let clear (r : List Nat × Bytes) := rowSub (r.1.getD t 0) p' r
      gauss f (t + 1) (done.map clear ++ [p']) ((rows.erase p).map clear)

/-- The page of position j of a stripe, from K pages of other positions (R407). -/
def rsRebuild (k m j : Nat) (pages : List (Nat × Bytes)) : Bytes :=
  let rows := gauss k 0 [] ((pages.take k).map fun p => (genRow k m p.1, p.2))
  ((List.range k).map fun t => gfScale ((genRow k m j).getD t 0) ((rows.getD t ([], [])).2)).foldl xorBytes (zeros 4096)

def countErr (s : M8) (cls : Nat) : M8 :=
  modFl s fun x => { x with health := { x.health with err := x.health.err.modify 0 cls (· + 1) } }

/-- An uncorrectable codeword is rebuilt from K other chunks of its stripe at the same page, and rewritten in place of
the failed one; with fewer than K the read fails as a storage fault (R151, R410). position is its place in the stripe;
pages are those read, by place. -/
def execCodewordRebuild (lpn position : Nat) (pages : List (Nat × Bytes)) (s : State) : Out :=
  live s fun m =>
    let k := ecK m
    match m.fl.map.find lpn with
    | none => m
    | some old =>
      let good := pages.filter fun p => p.1 != position && p.2.length == 4096 && p.1 < k + ecM m
      if (good.map Prod.fst).eraseDups.length < k then declareSelf (countErr m 3) 3
      else
        let b := rsRebuild k (ecM m) position good
        match takePlace m.fl 1 with
        | (some p, x) =>
          countErr { m with fl := enqueue { x with cw := x.cw.put p (lpn, b) } 1 (.moved p old lpn) } 2
        | (none, _) => countErr m 3

/-! ### Garbage collection and wear (R403 to R405) -/

/-- Codewords of a superblock that the open version or a held version maps, as (LPN, address), in address order. -/
def validIn (x : Flash) (sb : Nat) : List (Nat × Nat) :=
  let of_ (m : Sparse Nat) := m.filter fun e => physBlock e.2 == sb
  ((of_ x.map) ++ x.delta.flatMap fun d => of_ d.ents).eraseDups

/-- Map pages whose copy in force stands in a superblock. -/
def pagesIn (x : Flash) (sb : Nat) : List Nat := (x.dir.filter fun d => physBlock d.2.addr == sb).map Prod.fst

/-- Valid codewords of a superblock. -/
def validCount (x : Flash) (sb : Nat) : Nat := (validIn x sb).length + 4 * (pagesIn x sb).length

/-- The closed superblocks, in rising index. -/
def closedSbs (x : Flash) : List (Nat × SbInfo) := x.sbs.filter fun p => p.2.st == .closed

/-- The first superblock with the least of a measure. -/
def leastSb (f : Nat → Nat) : List Nat → Option Nat
  | [] => none
  | b :: bs => match leastSb f bs with
    | some c => if f c < f b then some c else some b
    | none => some b

/-- The next victim (R403, R405): the least worn where wear differs by more than WL_SPREAD, else the one with the fewest
valid codewords. A superblock that a secure discard must erase comes first (R412). -/
def pickVictim (s : M8) : Option Nat :=
  let x := s.fl
  let cs := closedSbs x
  let ids := cs.map Prod.fst
  let er (b : Nat) : Nat := (x.sbs.get {} b).erases
  match (x.secure.flatMap fun q => q.sbs).find? fun b => ids.contains b with
  | some b => some b
  | none =>
    let hi := ids.foldl (fun m b => max m (er b)) 0
    match leastSb er ids with
    | none => none
    | some lo => if hi - er lo > odNat s Od.WL_SPREAD then some lo else leastSb (validCount x) ids

/-- GC_START (R403): below GC_LOW free superblocks a victim is picked, and so on until GC_HIGH are free; for a secure
discard at any time (R412). -/
def execGcStart (s : State) : Out :=
  live s fun m =>
    let free := freeSbs m.fl
    let on := free < odNat m Od.GC_LOW || (m.fl.gcOn && free < odNat m Od.GC_HIGH)
    if m.fl.victim.isSome then m
    else if on || !m.fl.secure.isEmpty then modFl m fun x => { x with gcOn := on, victim := pickVictim m }
    else modFl m fun x => { x with gcOn := false }

/-- Old locations of moves under way. -/
def movesFrom (x : Flash) : List Nat :=
  (x.streams.flatMap fun p => (p.2.buf ++ p.2.prog ++ p.2.last).filterMap fun i => match i with
    | .moved _ old _ => some old
    | _ => none) ++ (x.recs.filter fun r => r.type == 1 && !r.durable).flatMap fun r => r.olds

/-- Move one codeword: its copy goes to the garbage-collection superblock (R403). -/
def moveCodeword (x : Flash) (e : Nat × Nat) : Flash :=
  match takePlace x 1 with
  | (some p, x) =>
    enqueue { x with cw := x.cw.put p (e.1, (x.cw.get (0, []) e.2).2) } 1 (.moved p e.2 e.1)
  | (none, x) => x

/-- GC_MOVE (R403, R404): the next valid codeword or map page of the victim is moved; with none left and none under way
the victim is erased. -/
def execGcMove (s : State) : Out :=
  live s fun m =>
    match m.fl.victim with
    | none => m
    | some v =>
      let busy := movesFrom m.fl
      match (validIn m.fl v).find? fun e => !busy.contains e.2 with
      | some e => odAdd (modFl m fun x => moveCodeword x e) Od.GC_BYTES_MOVED 4096
      | none => match (pagesIn m.fl v).find? fun g => !(m.fl.cache.get {} g).writing with
        | some g => odAdd (modFl m fun x =>
            writeback { x with cache := x.cache.put g { (x.cache.get {} g) with
              dirty := true, seq := max (x.cache.get {} g).seq (x.dir.get {} g).seq } } g) Od.GC_BYTES_MOVED 16384
        | none =>
          if (validIn m.fl v).isEmpty && (pagesIn m.fl v).isEmpty then
            emit (modFl m fun x => setSb x v { x.sbs.get {} v with st := .erasing }) (.flashOp 0 "ERASE" v)
          else m

/-- A multi-plane erase completes (R387, R412): the superblock is free, its wear rises by 1, and secure discards that
waited for it go on. -/
def eraseDone (s : M8) (sb : Nat) : M8 :=
  let s := modFl s fun x =>
    let i := x.sbs.get {} sb
    { setSb x sb { st := .free, erases := i.erases + 1 } with
      cw := x.cw.filter fun c => physBlock c.1 != sb,
      victim := if x.victim = some sb then none else x.victim,
      secure := x.secure.map fun q => { q with sbs := q.sbs.erase sb } }
  s

/-- BLOCK_ERASE_DONE (R387, R403, R412). -/
def execBlockEraseDone (sb : Nat) (s : State) : Out :=
  live s fun m => if (m.fl.sbs.get {} sb).st = .erasing then eraseDone m sb else m

/-- FDk of a channel raises its interrupt source (R593). -/
def fdPulse (s : M8) (channel : Nat) : M8 := pulse s (0x17A + channel / 16)

/-- A program or an erase of a block fails (R405): the block is retired and its superblock goes on without it; its valid
data is moved, and codewords still on their way to it are placed anew. block is bits [37:14] of its addresses. -/
def execBlockFail (block : Nat) (erase : Bool) (s : State) : Out :=
  live s fun m =>
    if m.fl.retired.contains block || bits block 23 17 ≥ 128 then m
    else
      let m := modFl m fun x => { x with retired := block :: x.retired,
                                         health := { x.health with retiredBlocks := x.health.retiredBlocks + 1 } }
      let m := fdPulse (countErr m (if erase then 5 else 4)) (block / 2 ^ 17)
      let hurt := (validIn m.fl (block % 2048)).filter fun e => blockKey e.2 == block
      let m := hurt.foldl (fun m e => modFl m fun x => moveCodeword x e) m
      let lost := (m.fl.recs.filter fun r => !r.durable).flatMap fun r => r.waits.filter fun p => blockKey p == block
      lost.foldl (fun m p => modFl m fun x => match takePlace x 0 with
        | (some q, x) =>
          let swap (a : Nat) : Nat := if a = p then q else a
          let x : Flash := { x with
            cw := x.cw.put q (x.cw.get (0, []) p),
            recs := x.recs.map (fun (r : JRec) => { r with
              waits := r.waits.map swap, ents := r.ents.map fun e => if e = mapEntry (some p) then mapEntry (some q) else e }) }
          (x.recs.filter fun r => r.waits.contains q).foldl (fun x r => enqueue x 0 (.data q r.seq)) x
        | (none, x) => x) m

/-- A channel is trained (R383, R386): at 3,600 MT/s, else at 2,800 MT/s, else it is retired with its dies and its data
rebuilt as a unit fault. -/
def execChannelTraining (channel : Nat) (ok3600 ok2800 : Bool) (s : State) : Out :=
  live s fun m =>
    if channel ≥ 128 || m.fl.chanRate.find channel = some 0 then m
    else if ok3600 then modFl m fun x => { x with
      trained := x.trained.set false channel true, chanRate := x.chanRate.drop channel,
      health := { x.health with degraded := x.health.degraded - b2n (x.chanRate.find channel == some 2800) } }
    else
      let m := fdPulse (countErr m 7) channel
      let was := m.fl.chanRate.find channel == some 2800
      if ok2800 then modFl m fun x => { x with
        trained := x.trained.set false channel true, chanRate := x.chanRate.put channel 2800,
        health := { x.health with degraded := x.health.degraded + b2n (!was) } }
      else
        let m := modFl (countErr m 7) fun x => { x with
          trained := x.trained.set false channel false, chanRate := x.chanRate.put channel 0,
          health := { x.health with degraded := x.health.degraded - b2n was, retiredDies := x.health.retiredDies + 16 } }
        declareSelf m 3

/-! ### Health (R413) -/

/-- Mean erase count, rounded down, and the highest. -/
def meanPe (x : Flash) : Nat := (x.sbs.foldl (fun n p => n + p.2.erases) 0) / 1296

def maxPe (x : Flash) : Nat := x.sbs.foldl (fun n p => max n p.2.erases) 0

/-- RATED_PE, the lowest rated endurance among the dies in use, as their parameter pages give it: at least 1,000 (R384). -/
def ratedPe : Nat := 1000 + Config.ratedExtra

/-- Superblocks the namespace and its parity take at the least; what is left is the initial spare. -/
def spareSbs (s : M8) : Nat :=
  1296 - ceilDiv (odInForce s Od.NS_CAPACITY * (ecK s + ecM s) / max 1 (ecK s)) (2048 * 4 * 48234496)

/-- SPARE_LEFT (R413): spare superblocks left as a share of the initial spare, in 0.01 %. -/
def spareLeft (s : M8) : Nat :=
  let lost := s.fl.health.retiredBlocks / 8192
  if spareSbs s = 0 then 0 else (spareSbs s - lost) * 10000 / spareSbs s

/-- The bin of TEMP_NOW, in 1/8 C (R413). -/
def tempBin (t : Int) : Nat := if t < 0 then 0 else if t ≥ 992 then 63 else (t.toNat / 16) + 1

/-- The health record (R413). -/
def healthRecord (s : M8) : Bytes :=
  let h := s.fl.health
  natLe 2 1 ++ natLe 2 (spareLeft s) ++ natLe 2 (meanPe s.fl * 10000 / ratedPe) ++ zeros 2 ++ natLe 4 ratedPe ++
    natLe 4 (maxPe s.fl) ++ natLe 4 (meanPe s.fl) ++ natLe 4 h.retiredBlocks ++ natLe 2 h.retiredDies ++ natLe 2 h.degraded ++
    natLe 2 (unsigned 16 h.tempNow) ++ natLe 2 (unsigned 16 h.tempMax) ++
    ((List.range 8).flatMap fun i => natLe 8 (h.err.get 0 i)) ++ (List.range 64).flatMap fun i => natLe 8 (h.bins.get 0 i)

/-- The health record is updated, every second (R413). temp is the hottest die's temperature in 1/8 C. -/
def execHealthUpdate (temp : Int) (s : State) : Out :=
  live s fun m =>
    if m.clk.now < m.fl.healthAt + 1000000000 then m
    else
      let m := modFl m fun x => { x with
        healthAt := m.clk.now,
        health := { x.health with
          tempNow := temp, tempMax := max x.health.tempMax temp, bins := x.health.bins.modify 0 (tempBin temp) (· + 1) } }
      odSetStored m Od.HEALTH (.bytes (healthRecord m))

end Machine
end Sys2Proof
end

