-- ==== Sys2Proof/Machine/Movement.lean ====
section
/-!
DEFINITION. Sys2Proof/Machine/Movement.lean: the movement instructions FETCH, PLACE, NOTE, QUAR and CFILL (R195 to R197,
R203), how a hub serves a tile's request queue in issue order (R196), the fetch path (R149 to R151, R176, R402), SUBST
and DEDUP (R207, R209).
-/
namespace Sys2Proof
namespace Machine

/-! ### The dataset of the loaded job (R147, R149) -/

/-- The version fetches and audits read: the pinned one (R401). -/
def pinnedVersion (s : M8) : Nat := s.job.jr.datasetVersion

/-- A sample-table entry (R149). -/
def sampleEntry (s : M8) (sample : Nat) : Bytes :=
  readNs s.fl (pinnedVersion s) (Config.sampleEntryAt s.job.img.datasetLink sample) 16

def entryLpn (e : Bytes) : Nat := leField e 0 6

def entryStream (e : Bytes) : Nat := leField e 6 1

def entryLength (e : Bytes) : Nat := leField e 8 4

/-- The home of a sample, as the home map gives it (R147). -/
def sampleHome (s : M8) (sample : Nat) : Nat :=
  leNat (readNs s.fl (pinnedVersion s) (Config.homeEntryAt s.job.img.datasetLink sample) 2)

/-- Is a sample homed on this member (R147)? An audit reads every sample (R293). -/
def sampleHomed (s : M8) (sample : Nat) : Bool := s.job.audit || homedHere s (sampleHome s sample)

/-- Does the extent of a sample stand in this device's own namespace: its home is a role held that is not one being
rebuilt (R293, R524)? -/
def sampleLocal (s : M8) (sample : Nat) : Bool :=
  match roleOfAddr s (sampleHome s sample) with
  | some i => holdsRole s i && !(s.grp.takenRole == some i && s.grp.rebuilding)
  | none => false

/-- MAX_CODED of a stream of the program. -/
def maxCoded (s : M8) (k : Nat) : Nat := (s.job.img.streams.getD k {}).maxCoded

/-- Pages of an extent (R150). -/
def extentPages (len : Nat) : Nat := ceilDiv len 4096

/-- The target step a quarantine of a sample outside a dispatch names: the lowest target not yet committed whose batch
holds the sample (R152; assumption log 33). -/
def quarStep (s : M8) (sample : Nat) : Nat :=
  let n := lowestUnsealed s
  ((List.range 65).find? fun i => (offsetIn s (n + i) sample).isSome).elim n (n + ·)

/-! ### Issue (R195, R196, R203) -/

/-- Requests of a tile in its 256-entry queue. -/
def queuedReqs (x : Tile) : List Request := x.reqQ.filter fun r => r.phase == .queued

/-- Put a request into the tile's queue. -/
def pushReq (m : M8) (t : Nat) (r : Request) : M8 :=
  modTile m t fun x => { x with reqQ := x.reqQ ++ [{ r with id := x.nextReq }], nextReq := x.nextReq + 1 }

/-- Is a fetch descriptor valid: SAMPLE homed here, STREAM of the program, reserved bytes 0 (R203)? -/
def fetchDescOk (s : M8) (b : Bytes) : Bool :=
  leField b 7 1 == 0 && leField b 28 12 == 0 && leField b 6 1 < s.job.img.streams.length && leField b 0 6 < s.job.sampleCount &&
    sampleHomed s (leField b 0 6)

/-- Is a place descriptor valid (R203)? -/
def placeDescOk (s : M8) (b : Bytes) : Bool :=
  let r := leField b 14 2
  r < s.job.jr.ranks.length && leField b 16 4 < (rankOf s r).slots && leField b 20 2 == (rankOf s r).layout &&
    leField b 20 2 < s.job.img.layouts.length && leField b 23 1 == 0 && leField b 30 2 == 0

/-- The shape of a movement instruction with a descriptor of n bytes at S[SA]: it waits for an entry of a full queue, a
completion object that is none traps 0x0C (a reserved one 0x04), a hole traps 0x04, an invalid descriptor traps with its own cause. -/
def moveOp (s : State) (t th : Nat) (f : RFields) (n : Nat) (counts : Bool) (ok : M8 → Bytes → Bool) (cause : Nat)
    (mk : Bytes → Thread → Request) (after : M8 → M8) : Out :=
  reel s t th fun m y =>
    let c := compRef y f
    let a := (y.reg f.sa).toNat
    if counts && !ownCounter m t c then trapHere m t th y (counterCause m t c) c
    else if (queuedReqs (getTile m t)).length ≥ 256 then waitQueue m t th y
    else match cellRead m t a n with
      | .error e => trapHere m t th y 0x04 e
      | .ok b =>
        if a % 8 ≠ 0 || !ok m b then trapHere m t th y cause a
        else
          let r := { mk b y with thread := th, addr := (localToPkg t a).getD 0, counter := c, vary := y.vary, desc := b }
          after (complete (pushReq m t r) t th 32 f.nd y)

/-! ### Serving the queue (R196) -/

/-- A fetch that reads nothing: its extent is longer than MAX_CODED, and the sample is quarantined with reason 0x16
(R150, R154, R156). -/
def quarantineFetch (m : M8) (t : Nat) (r : Request) : M8 :=
  let sample := leField r.desc 0 6
  let e := sampleEntry m sample
  let m := completeFetch m t r 0x16 0
  let n := quarStep m sample
  postQuarantine m t sample n (epochOf m n) 0x16 (entryStream e) (maxCoded m (entryStream e))

/-- A fetch at the head that can end before any read: too long for its stream, or for CAP (R150, R203). -/
def fetchEarly (m : M8) (t : Nat) (r : Request) : Option M8 :=
  let e := sampleEntry m (leField r.desc 0 6)
  if !sampleLocal m (leField r.desc 0 6) then none
  else if entryLength e > maxCoded m (entryStream e) then some (quarantineFetch m t r)
  else if entryLength e > leField r.desc 16 4 then some (completeFetch m t r 0x0100 0)
  else none

/-- A lookup that hits (R176, R325): the hub accepts the fetch, asks for cells of the codec-fill owner and stages it. -/
def acceptHit (m : M8) (t : Nat) (r : Request) (slot : Nat) : M8 :=
  let hub := t / 16
  let e := readMemOnes m (dirSlot m slot) 48
  let clen := leField e 32 4
  let ulen := leField e 36 4
  if ulen > leField r.desc 16 4 then completeFetch m t r 0x0100 0
  else
    let (id, m) := newHold m
    let m := requestCells m hub 0 { id := id, owner := 1, cells := ceilDiv clen 512, chain := true }
    let m := setReq m t { r with phase := .hit }
    modCodec m hub fun x => { x with hits := x.hits ++ [{
      tile := t, req := r.id, slot := slot, off := leField e 24 8, clen := clen, ulen := ulen, check := leField e 40 8,
      hold := id, accepted := m.clk.hclk }] }

/-- A skipped fill (R321). -/
def skipCfill (m : M8) (t : Nat) (r : Request) : M8 := odInc (dropReq m t r.id) Od.CACHE_FILL_SKIPS

/-- A fill at the head (R321): it claims its slot and takes its cells, or is skipped; a failure after the claim leaves
the slot dead. With CACHE_MODE 0 nothing is filled (R137). -/
def serveFill (m : M8) (t : Nat) (r : Request) : M8 :=
  let b := r.desc
  let stream := leField b 6 1
  if odNat m Od.CACHE_MODE = 0 then dropReq m t r.id
  else if !fillOk m b || r.addr % 8 ≠ 0 then skipCfill m t r
  else match claimSlot m stream (leField b 0 6) with
    | none => skipCfill m t r
    | some (i, m) =>
      let cells := ceilDiv (fillStream m stream (slice b 8 16)).ulen 512
      let q : PoolReq := { owner := 1, cells := cells, chain := true }
      match (if (getPool m (t / 16) 0).waiting.any fun w => w.owner == 1 then none else grantable m (t / 16) 0 q) with
      | none => skipCfill (setSlotState m i 3) t r
      | some ps =>
        let (id, m) := newHold m
        let m := grantReq m (t / 16) 0 { q with id := id } ps
        setReq m t { r with phase := .copying, slot := i, hold := id }

/-- A NOTE at the head is sent (R165, R195, R208): a SLOT_DONE carries the thread's VARY and is held for its canaries
(R542); a fenced member sends none (R522). -/
def serveNote (m : M8) (t : Nat) (r : Request) (dst : Nat) : M8 :=
  let m := dropReq m t r.id
  let b := r.desc
  if m.grp.fenced || m.job.audit then m
  else if leField b 0 1 = 1 then
    let b := if r.vary then patch b 2 (natLe 1 (leField b 2 1 ||| 1)) else b
    { m with safe := { m.safe with held := m.safe.held ++ [{
      hub := t / 16, tile := t, dst := dst, payload := b, heldAt := m.clk.now }] } }
  else sendFrame m dst 0x5 (leField b 16 4 % 65536) b

/-- A QUAR at the head is posted (R156, R197). -/
def serveQuar (m : M8) (t : Nat) (r : Request) (stream sample reason : Nat) : M8 :=
  let n := quarStep m sample
  postQuarantine (dropReq m t r.id) t sample n (epochOf m n) reason stream 0xFFFFFFFF

/-- Serve the head of a tile's queue, when nothing has to be waited for; none when it must wait. -/
def serveHead (m : M8) (t : Nat) (r : Request) : Option M8 :=
  match r.kind with
  | .note dst => some (serveNote m t r dst)
  | .quar stream sample reason => some (serveQuar m t r stream sample reason)
  | .cfill => some (serveFill m t r)
  | .place => none
  | .fetch cached _ =>
    if cached && !m.job.audit && odNat m Od.CACHE_MODE != 0 then
      match cacheLookup m (leField r.desc 6 1) (leField r.desc 0 6) with
      | some i => some (acceptHit m t r i)
      | none => some (setReq (odInc m Od.CACHE_MISSES) t { r with kind := .fetch false false })
    else fetchEarly m t r

/-- Serve a tile's queue in issue order up to the first request that must wait (R196). fuel bounds the requests. -/
def drainFuel (t : Nat) : Nat → M8 → M8
  | 0, m => m
  | f + 1, m => match (queuedReqs (getTile m t)).head? with
    | some r => match serveHead m t r with
      | some m => drainFuel t f m
      | none => m
    | none => m

def drainReqs (m : M8) (t : Nat) : M8 := drainFuel t (2 * (queuedReqs (getTile m t)).length + 1) m

/-! ### The instructions -/

/-- FETCH (R195, R203). -/
def execFetch (t th : Nat) (f : RFields) (s : State) : Out :=
  moveOp s t th f 40 true fetchDescOk 0x0B (fun _ _ => { kind := .fetch false false }) (drainReqs · t)

/-- FETCH with CACHED (R176, R203). -/
def execFetchCached (t th : Nat) (f : RFields) (s : State) : Out :=
  moveOp s t th f 40 true fetchDescOk 0x0B (fun _ _ => { kind := .fetch true false }) (drainReqs · t)

/-- FETCH with FIRST, the first-responder replica read (R207); FUNC[1] may ask for the cache as well. An audit never
reads first-responder (R293). -/
def execFetchFirst (t th : Nat) (f : RFields) (s : State) : Out :=
  moveOp s t th f 40 true fetchDescOk 0x0B (fun _ _ => { kind := .fetch (f.func.testBit 1) true }) (drainReqs · t)

/-- PLACE (R195, R203): FLAGS takes the thread's VARY; its write counts as not acknowledged from here on (R205). -/
def execPlace (t th : Nat) (f : RFields) (s : State) : Out :=
  moveOp s t th f 40 true placeDescOk 0x0A (fun _ _ => { kind := .place }) fun m =>
    match (getTile m t).reqQ.getLast? with
    | some r =>
      let m := modTile m t fun x => { x with placesOut := x.placesOut ++ [r.id] }
      drainReqs (writeMem m (r.addr + 22) (natLe 1 (b2n r.vary))) t
    | none => m

/-- NOTE (R195): no completion object. -/
def execNote (t th : Nat) (f : RFields) (s : State) : Out :=
  reel s t th fun m y =>
    let a := (y.reg f.sa).toNat
    if (queuedReqs (getTile m t)).length ≥ 256 then waitQueue m t th y
    else match cellRead m t a 40 with
      | .error e => trapHere m t th y 0x04 e
      | .ok b =>
        let r : Request := { kind := .note ((y.reg f.sb).toNat % 65536), thread := th, vary := y.vary, desc := b }
        drainReqs (complete (pushReq m t r) t th 32 f.nd y) t

/-- QUAR (R195, R197). -/
def execQuar (t th : Nat) (f : RFields) (s : State) : Out :=
  reel s t th fun m y =>
    if (queuedReqs (getTile m t)).length ≥ 256 then waitQueue m t th y
    else
      let r : Request := { kind := .quar f.func ((y.reg f.sa).toNat % 2 ^ 48) (f.imm % 256), thread := th }
      drainReqs (complete (pushReq m t r) t th 32 f.nd y) t

/-- CFILL (R195, R320). It never stalls its thread but for a full queue (R322). -/
def execCfill (t th : Nat) (f : RFields) (s : State) : Out :=
  reel s t th fun m y =>
    let a := (y.reg f.sa).toNat
    if (queuedReqs (getTile m t)).length ≥ 256 then waitQueue m t th y
    else match cellRead m t a 32 with
      | .error e => trapHere m t th y 0x04 e
      | .ok b =>
        let r : Request := { kind := .cfill, thread := th, addr := (localToPkg t a).getD 0, desc := b }
        drainReqs (complete (pushReq m t r) t th 32 f.nd y) t

/-- A fill's copy of its source completes (R321, R322): the packed tensor stands in its cells and the fill queues for a
lane. -/
def execCfillCopyDone (t req : Nat) (s : State) : Out :=
  live s fun m =>
    match findReq m t req with
    | some r =>
      if r.phase ≠ .copying then m
      else
        let hub := t / 16
        let i := imgAt r.desc 8
        let m := match localToPkg t (leField r.desc 24 8), findHold m hub 0 r.hold with
          | some p, some h => writeSpans m (holdSpans m hub 0 h) (packedTensor m p i)
          | _, _ => m
        let f : FillJob := { slot := r.slot, sample := leField r.desc 0 6, stream := leField r.desc 6 1,
                             img := slice r.desc 8 16, hold := r.hold }
        modCodec (dropReq m t req) hub fun x => { x with fills := x.fills ++ [f] }
    | none => m

/-! ### Flash reads of a fetch (R150, R402) -/

/-- The dies a fetch touches (R402). -/
def fetchDies (s : M8) (r : Request) : List Nat :=
  let e := sampleEntry s (leField r.desc 0 6)
  if !sampleLocal s (leField r.desc 0 6) then []
  else ((List.range (extentPages (entryLength e))).filterMap fun i =>
    (lookup s.fl (pinnedVersion s) (entryLpn e + i)).map physDie).eraseDups

/-- Fetches admitted to the flash. -/
def admitted (s : M8) : List Request := s.tiles.flatMap fun p => p.2.reqQ.filter fun r => r.phase == .flash

/-- Has every die a fetch touches room: fewer than 4 admitted reads (R402)? -/
def diesFree (s : M8) (r : Request) : Bool :=
  let busy := (admitted s).map (fetchDies s)
  (fetchDies s r).all fun d => (busy.filter fun ds => ds.contains d).length < 4

/-- Is a request next for the read scheduler: the head of its queue, or one whose cache hit failed? -/
def schedulable (s : M8) (t : Nat) (r : Request) : Bool :=
  match r.kind with
  | .fetch _ _ => r.phase == .again || ((queuedReqs (getTile s t)).head?.any fun q => q.id == r.id)
  | _ => false

/-- The read scheduler admits a fetch (R402). One whose hit failed is checked for length first (R150). -/
def execFlashFetchAdmit (t req : Nat) (s : State) : Out :=
  live s fun m =>
    match findReq m t req with
    | some r =>
      if !schedulable m t r then m
      else match fetchEarly m t r with
        | some m => drainReqs m t
        | none =>
          if !diesFree m r then m
          else
            let e := sampleEntry m (leField r.desc 0 6)
            let pages := ((List.range (extentPages (entryLength e))).map fun i => pageOf (entryLpn e + i)).eraseDups
            let m := if sampleLocal m (leField r.desc 0 6) then pages.foldl usePage m else m
            drainReqs (setReq m t { r with phase := .flash, admitTime := m.clk.now }) t
    | none => m

/-- T_FIX (R402). -/
def tFix (pages : Nat) : Nat := 1200000 + ceilDiv pages 64 * 20000

/-- An extent as the device's own flash holds it. -/
def ownExtent (s : M8) (sample : Nat) : Bytes :=
  let e := sampleEntry s sample
  readNs s.fl (pinnedVersion s) (4096 * entryLpn e) (entryLength e)

/-- A fetch completes T_FIX after its admission (R203, R402): the extent goes to DEST, STATUS 0 and LENGTH. other holds
the bytes of another source where the extent comes from one: the first responder (R207), the home member of an audited
sample (R293), the erasure decode of a stand-in (R524); empty for the home copy (assumption log 34). -/
def execFetchComplete (t req : Nat) (other : Bytes) (s : State) : Out :=
  live s fun m =>
    match findReq m t req with
    | some r =>
      let sample := leField r.desc 0 6
      let loc := sampleLocal m sample
      let first := match r.kind with
        | .fetch _ f => f && !m.job.audit
        | _ => false
      let b := if loc && !(first && !other.isEmpty) then ownExtent m sample else other
      if r.phase ≠ .flash || m.clk.now < r.admitTime + tFix (extentPages b.length) then m
      else if !loc && b.length > maxCoded m (leField r.desc 6 1) then quarantineFetch m t r
      else if b.length > leField r.desc 16 4 then completeFetch m t r 0x0100 0
      else
        let m := match fetchDest t r with
          | some p => writeMem m p b
          | none => m
        completeFetch m t r 0 b.length
    | none => m

/-! ### SUBST and DEDUP (R207, R209) -/

/-- SUBST registers a layout for late substitution (R207). -/
def execSubst (t th : Nat) (f : RFields) (s : State) : Out :=
  reel s t th fun m y =>
    let l := (y.reg f.sa).toNat % 65536
    let m := { m with job := { m.job with
      substLayouts := if m.job.substLayouts.contains l then m.job.substLayouts else m.job.substLayouts ++ [l] } }
    complete m t th 0 f.nd y

/-- The entries a hash may stand in: at most 16 from its home (R209). -/
def dedupProbes (cap : Nat) (h : Bytes) : List Nat := (List.range (min 16 cap)).map fun i => (leField h 0 8 + i) % max 1 cap

/-- Look a hash up and insert it when it is absent (R209): the index DEDUP returns, and the new state. -/
def dedup (m : M8) (h : Bytes) (cand : Nat) : Nat × M8 :=
  let ps := dedupProbes m.job.img.dedupEntries h
  let at_ (i : Nat) := m.job.dedup.find i
  match ps.find? fun i => (at_ i).isNone || (at_ i).any fun e => e.1 == h with
  | some i => match at_ i with
    | some e => (e.2, m)
    | none => (cand, { m with job := { m.job with dedup := m.job.dedup.put i (h, cand) } })
  | none => (cand, odInc m Od.DEDUP_FULL)

/-- DEDUP (R207, R209); in an audit it returns its candidate and the table is not consulted (R293). -/
def execDedup (t th : Nat) (f : RFields) (s : State) : Out :=
  reel s t th fun m y =>
    match cellRead m t (y.reg f.sa).toNat 32 with
    | .error e => trapHere m t th y 0x04 e
    | .ok h =>
      let cand := (y.reg f.sb).toNat % 2 ^ 48
      let (v, m) := if m.job.audit then (cand, m) else dedup m h cand
      completeSd m t th 0 f y (BitVec.ofNat 64 v)

end Machine
end Sys2Proof
end

