-- ==== Sys2Proof/Machine/OpticsOps.lean ====
section
/-!
DEFINITION. Sys2Proof/Machine/OpticsOps.lean: ports, lanes and lasers as the other units use them: registers of R459's
chapter, lane maps, transmit commands (R447, R448), the lasers' own rules (R454 to R457).
-/
namespace Sys2Proof
namespace Machine

def getPort (s : M8) (p : Nat) : Port := s.opt.ports.get {} p

def setPort (s : M8) (p : Nat) (x : Port) : M8 := { s with opt := { s.opt with ports := s.opt.ports.set {} p x } }

def modPort (s : M8) (p : Nat) (f : Port → Port) : M8 := setPort s p (f (getPort s p))

def getLane (s : M8) (l : Nat) : Lane := s.opt.lanes.get {} l

def setLane (s : M8) (l : Nat) (x : Lane) : M8 := { s with opt := { s.opt with lanes := s.opt.lanes.set {} l x } }

def modLane (s : M8) (l : Nat) (f : Lane → Lane) : M8 := setLane s l (f (getLane s l))

def getLaser (s : M8) (c : Nat) : Laser := s.opt.lasers.get {} c

def setLaser (s : M8) (c : Nat) (x : Laser) : M8 := { s with opt := { s.opt with lasers := s.opt.lasers.set {} c x } }

def modLaser (s : M8) (c : Nat) (f : Laser → Laser) : M8 := setLaser s c (f (getLaser s c))

def getEngine (s : M8) (k : Nat) : Engine := s.opt.engines.get {} k

def setEngine (s : M8) (k : Nat) (x : Engine) : M8 := { s with opt := { s.opt with engines := s.opt.engines.set {} k x } }

def modEngine (s : M8) (k : Nat) (f : Engine → Engine) : M8 := setEngine s k (f (getEngine s k))

/-- Package address of a register of engine k's block, by its offset (R459's chapter). -/
def oeReg (k off : Nat) : Nat := 0x030003000000 + k * 0x100000 + off

/-- Only the control cores of Hub n write the blocks of OE(2n) and OE(2n + 1) (R441). -/
def oeMayWrite (agent k : Nat) : Bool := isCore agent && agentHub agent == k / 2

/-- STATE of PORT_STAT (R444). -/
def PortSt.code : PortSt → Nat
  | .disabled => 0 | .ramping => 1 | .settling => 2 | .acquiring => 3 | .up => 4 | .stopping => 5 | .fault => 6

/-- Is the port in Acsal mode (R442)? -/
def Port.acsal (x : Port) : Bool := x.mode == 0

/-- Is port 4k + p in state 4? -/
def portUp (s : M8) (p : Nat) : Bool := (getPort s p).st == .up

/-- An Acsal-mode port in state 4. -/
def acsalUp (s : M8) (p : Nat) : Bool := (getPort s p).acsal && portUp s p

/-- The lane map of port 4k + p: physical lanes 0 to 17 of its engine, 0x1F where absent; at first service lanes 4p to
4p + 3 (R12, PORT_LANEMAP). -/
def portMap (s : M8) (p : Nat) : List Nat :=
  let x := getPort s p
  if x.map.isEmpty then (List.range 4).map fun i => 4 * (p % 4) + i else x.map

/-- Lanes in use, LANES_UP. -/
def lanesUsed (s : M8) (p : Nat) : Nat := ((portMap s p).filter fun l => l != 0x1F).length

/-- The global numbers 18k + j of a port's lanes, which are those of their lasers (R12). -/
def portLanes (s : M8) (p : Nat) : List Nat := ((portMap s p).filter fun l => l != 0x1F).map fun l => 18 * (p / 4) + l

/-- The port a physical lane of engine k is in use by. -/
def lanePort (s : M8) (k lane : Nat) : Option Nat :=
  (List.range 4).findSome? fun i => if (portMap s (4 * k + i)).contains lane then some (4 * k + i) else none

/-- Put a lane map. -/
def setMap4 (s : M8) (p : Nat) (m : List Nat) : M8 := modPort s p fun x => { x with map := m }

/-- The port of engine k that spare lane 16 or 17 serves (R443). -/
def spareHome (s : M8) (k lane : Nat) : Option Nat :=
  let h := odInForce s (if lane = 16 then Od.SPARE_HOME_L16 else Od.SPARE_HOME_L17)
  if h < 4 then some (4 * k + h) else none

/-- A spare is free: dark or lit as a spare, and in no port's map. -/
def spareFree (s : M8) (k lane : Nat) : Bool :=
  let l := getLane s (18 * k + lane)
  (l.lstate == 0 || l.lstate == 2) && (lanePort s k lane).isNone

/-- The free home spare of an Acsal port (R443). -/
def freeSpare (s : M8) (p : Nat) : Option Nat :=
  [16, 17].find? fun l => spareHome s (p / 4) l == some p && spareFree s (p / 4) l

/-- The event pulse of a port (R593). -/
def portPulse (s : M8) (p : Nat) : M8 := pulse s (0x152 + p)

/-! ### Transmit commands (R447, R448) -/

/-- A transmit command leaves the port; FAULT_N stops the egress of an Ethernet-mode port (R554). -/
def transmit (s : M8) (p : Nat) (c : TxCmd) : M8 :=
  if s.safe.faultN && !(getPort s p).acsal then s else
  match c with
  | .packet conn path psn b => emit s (.packet conn path psn b)
  | .bytes b => emit s (.frame p b)

/-- A transmit command to a port: its status (R447) and what it does. Each refusal counts in TX_REFUSED (R448). -/
def txCommand (s : M8) (p : Nat) (c : TxCmd) : Nat × M8 :=
  let x := getPort s p
  match x.st with
  | .up => (0x00, transmit s p c)
  | .ramping | .settling | .acquiring =>
    if x.queue.length < 16 then (0x01, modPort s p fun x => { x with queue := x.queue ++ [c] })
    else (0x02, odInc s Od.TX_REFUSED)
  | .disabled | .stopping | .fault => (0x03, odInc s Od.TX_REFUSED)

/-- On entry to state 4 the queued commands are sent in arrival order (R448). -/
def sendQueued (s : M8) (p : Nat) : M8 :=
  let q := (getPort s p).queue
  q.foldl (fun s c => transmit s p c) (modPort s p fun x => { x with queue := [] })

/-- A port that enters state 5 or 6 returns its queued commands with status 0x03 (R448). -/
def returnQueued (s : M8) (p : Nat) : M8 :=
  let q := (getPort s p).queue
  q.foldl (fun s _ => emit s (.fwStatus 0x03)) (modPort s p fun x => { x with queue := [] })

/-! ### Lasers (R454 to R457) -/

/-- The rail 3k + g that feeds channel 18k + j (R454). -/
def railOf (c : Nat) : Nat := 3 * (c / 18) + (c % 18) / 6

/-- Is the rail below RAIL_OK? -/
def railDown (s : M8) (c : Nat) : Bool := Sparse.has s.opt.rails (railOf c)

/-- The largest bias, APC and APC_TARGET of LAS_CH_CTL. -/
def Laser.biasMax (x : Laser) : Nat := bits x.ctl 27 16

def Laser.apc (x : Laser) : Bool := x.ctl.testBit 1

def Laser.on (x : Laser) : Bool := x.ctl.testBit 0

/-- LAS_CH_CTL with its ON bit set or clear. -/
def Laser.withOn (x : Laser) (on : Bool) : Laser := { x with ctl := x.ctl / 2 * 2 + b2n on }

/-- A channel that cannot give light: SHORT, RAIL_FAIL or LOWPWR (R449). -/
def Laser.faulted (x : Laser) : Bool := x.short || x.railFail || x.lowpwr

/-- Is the channel dark? -/
def Laser.dark (x : Laser) : Bool := !x.on && x.ramp == 0

/-- ON 1: the ramp up starts, or waits for the rail (R455, R456). A write of 1 while SHORT or RAIL_FAIL is set is
discarded. -/
def laserOn (s : M8) (c : Nat) : M8 :=
  let x := getLaser s c
  if x.short || x.railFail || x.on then s
  else setLaser s c { x.withOn true with ramp := 1, paused := railDown s c }

/-- ON 0: the ramp down starts (R455). -/
def laserOff (s : M8) (c : Nat) : M8 :=
  let x := getLaser s c
  if x.on then setLaser s c { x.withOn false with ramp := 2, paused := railDown s c, atSet := false } else s

/-- Switch a channel off at once (R456, R457). -/
def laserCut (x : Laser) : Laser := { x.withOn false with ramp := 0, bias := 0, paused := false, atSet := false }

/-- The event pulse of a laser-array die (R593). -/
def laserPulse (s : M8) (c : Nat) : M8 := pulse s (0x172 + c / 18)

end Machine
end Sys2Proof
end

