-- ==== Sys2Proof/Machine/FabricOps.lean ====
section
/-!
DEFINITION. Sys2Proof/Machine/FabricOps.lean: Promenade's frames, the link layer, routing, policing and shaping, hellos,
link state and the acting master, as the commands of the fabric and the ports use them (R460 to R488).
-/
namespace Sys2Proof
namespace Machine

def modFab (s : M8) (f : Fabric → Fabric) : M8 := { s with fab := f s.fab }

def getLink (s : M8) (p : Nat) : Link := s.fab.links.get {} p

def setLink (s : M8) (p : Nat) (x : Link) : M8 := modFab s fun f => { f with links := f.links.set {} p x }

def modLink (s : M8) (p : Nat) (g : Link → Link) : M8 := setLink s p (g (getLink s p))

/-! ### Frames (R461, R462) -/

/-- The traffic class of a CLASS; none for a reserved one (R462). -/
def tcOf (cls : Nat) : Option Nat := [7, 6, 6, 5, 5, 4, 3, 2, 1][cls]?

/-- Payload bytes on the fibre: padded to a multiple of 4 (R461). -/
def padLen (n : Nat) : Nat := ceilDiv n 4 * 4

/-- Bytes of a frame on the fibre: header, padded payload, trailer. -/
def Frame.size (f : Frame) : Nat := 16 + padLen f.payload.length + 4

/-- Credit units of a frame: 128 bytes each (R463). -/
def Frame.units (f : Frame) : Nat := ceilDiv f.size 128

/-- The header of a frame as sent on a link (R461). -/
def Frame.header (f : Frame) (lseq : Nat) : Bytes :=
  natBe 2 f.dst ++ natBe 2 f.src ++ natBe 1 (f.cls * 16 + b2n f.mc * 8 + f.colour) ++ natBe 1 f.hops ++
    natBe 2 f.payload.length ++ natBe 2 f.flow ++ natBe 2 f.eseq ++ natBe 2 lseq ++ zeros 2

/-- A frame's bytes on the fibre. -/
def Frame.bytes (f : Frame) (lseq : Nat) : Bytes :=
  let b := f.header lseq ++ f.payload ++ zeros (padLen f.payload.length - f.payload.length)
  b ++ natLe 4 (crc32c b)

/-- Does the trailer of received bytes hold their LCRC? -/
def lcrcOk (b : Bytes) : Bool :=
  b.length ≥ 20 && leField b (b.length - 4) 4 == crc32c (b.take (b.length - 4))

/-- The frame and LSEQ received bytes spell. -/
def parseFrame (b : Bytes) : Frame × Nat :=
  ({ dst := beField b 0 2, src := beField b 2 2, cls := beField b 4 1 / 16, mc := bit (beField b 4 1) 3,
     colour := beField b 4 1 % 4, hops := beField b 5 1, flow := beField b 8 2, eseq := beField b 10 2,
     payload := slice b 16 (beField b 6 2) }, beField b 12 2)

/-- The form of R462: a class that is not reserved, reserved bits 0, LEN at most 4,608 and the bytes it needs; a
reserved COLOUR counts as a reserved bit that is not 0. -/
def frameFormOk (b : Bytes) : Bool :=
  (tcOf (beField b 4 1 / 16)).isSome && !bit (beField b 4 1) 2 && beField b 4 1 % 4 != 3 && beField b 14 2 == 0 &&
    beField b 6 2 ≤ 4608 && b.length == 16 + padLen (beField b 6 2) + 4

/-! ### The link layer (R463) -/

/-- A LINK message: TYPE 1 ACK, 2 NAK, 3 CREDIT, with the credit owed to the partner, which it pays. -/
def sendLink (s : M8) (p type lseq : Nat) : M8 :=
  let x := getLink s p
  let grants := (List.range 8).flatMap fun tc => natLe 2 (min 65535 (x.owed.get 0 tc))
  let f : Frame := { dst := 0xFFFE, src := ownAddr s, cls := 0, payload := natLe 1 type ++ zeros 1 ++ natLe 2 lseq ++ grants }
  emit (setLink s p { x with
    owed := (List.range 8).foldl (fun o tc => o.set 0 tc (x.owed.get 0 tc - min 65535 (x.owed.get 0 tc))) x.owed })
    (.frame p (f.bytes 0))

/-- The cumulative ACK of what has been received. -/
def sendAck (s : M8) (p : Nat) : M8 :=
  let x := getLink s p
  sendLink (setLink s p { x with toAck := 0 }) p 1 ((x.rxSeq + 65535) % 65536)

/-- A frame has left the receive buffer of a port, or was dropped: its credit is owed to the partner. -/
def oweCredit (s : M8) (p : Nat) (f : Frame) : M8 :=
  match tcOf f.cls with
  | some tc => modLink s p fun x => { x with owed := x.owed.modify 0 tc (· + f.units) }
  | none => s

/-- The credit grants of a received LINK payload. -/
def takeCredit (s : M8) (p : Nat) (grants : List Nat) : M8 :=
  modLink s p fun x => { x with
    credits := (List.range 8).foldl (fun c tc => c.modify 0 tc (· + grants.getD tc 0)) x.credits }

/-- A cumulative ACK frees the frames up to LSEQ. -/
def takeAck (s : M8) (p lseq : Nat) : M8 :=
  modLink s p fun x => { x with replay := x.replay.filter fun e => serialNewer 16 e.1 lseq }

/-- Resend the replay buffer from LSEQ on; LINK_REPLAYS counts the replay (R463). -/
def replayFrom (s : M8) (p lseq : Nat) : M8 :=
  let fs := (getLink s p).replay.filter fun e => e.1 == lseq || serialNewer 16 e.1 lseq
  if fs.isEmpty then s else
  let s := odInc s Od.LINK_REPLAYS
  let s := modLink s p fun x => { x with sentAt := s.clk.now }
  fs.foldl (fun s e => emit s (.frame p (e.2.bytes e.1))) s

/-- Bytes the replay buffer holds. -/
def Link.replayBytes (x : Link) : Nat := x.replay.foldl (fun n e => n + e.2.size) 0

/-! ### Link state, member table and acting master (R468 to R474) -/

/-- A port whose link counts: Acsal mode, state 4, and its neighbour not of another domain (R469). -/
def linkUp (s : M8) (p : Nat) : Bool :=
  acsalUp s p && (match s.fab.nbrs.find p with
    | some n => !n.mismatch
    | none => true)

/-- The own links of the device: ports with an addressed neighbour. -/
def ownLinks (s : M8) : List (Nat × Neighbour) :=
  s.fab.nbrs.filter fun p => linkUp s p.1 && p.2.addr != 0xFFFF && !p.2.mismatch

/-- The neighbours of member a, by its LSA, in the own group. -/
def lsaNbrs (s : M8) (a : Nat) : List Nat :=
  match s.fab.lsas.find a with
  | some l => (l.links.map Prod.snd).filter fun b => sameGroup b (ownAddr s) && b != ownAddr s
  | none => []

/-- One level of the search: the members reached from the level's by one hop and not reached before, with the port sets
that lead there. -/
def nextLevel (s : M8) (seen : Sparse Nat) (level : Sparse Nat) : Sparse Nat :=
  level.foldl (fun nl x => (lsaNbrs s x.1).foldl (fun nl b =>
    if seen.has b then nl else nl.put b ((nl.find b).getD 0 ||| x.2)) nl) []

/-- Paths of fewest hops, level by level. -/
def memberFuel (s : M8) : Nat → Sparse Nat → Sparse Nat → Sparse Nat
  | 0, seen, _ => seen
  | n + 1, seen, level =>
    let nl := nextLevel s seen level
    if nl.isEmpty then seen else memberFuel s n (nl.foldl (fun m x => m.put x.1 x.2) seen) nl

/-- The member table: for each other reachable member of the group, the ports on a path of fewest hops (R474). -/
def memberTable (s : M8) : Sparse Nat :=
  let first := (ownLinks s).foldl (fun (m : Sparse Nat) p =>
    if sameGroup p.2.addr (ownAddr s) then m.put p.2.addr ((m.find p.2.addr).getD 0 ||| 2 ^ p.1) else m) []
  memberFuel s 64 first first

/-- The own position of the cable map. -/
def ownPosition (s : M8) : Option Position := (positions s).find? fun p => p.addr == ownAddr s

/-- Is a member of the group reachable, itself included? -/
def memberReachable (s : M8) (a : Nat) : Bool := a == ownAddr s || (memberTable s).has a

/-- Does candidate p go before q for acting master (R471)? -/
def masterBefore (p q : Position) : Bool := p.rank < q.rank || (p.rank == q.rank && p.addr < q.addr)

/-- The group's reachable candidate with the lowest MASTER_RANK, then the lowest address (R471); 0xFFFF for none. -/
def electMaster (s : M8) : Nat :=
  if ownAddr s = 0xFFFF then 0xFFFF else
  match ((positions s).filter fun p => sameGroup p.addr (ownAddr s) && p.rank != 0 && memberReachable s p.addr).foldl
      (fun (b : Option Position) p => match b with
        | none => some p
        | some q => if masterBefore p q then some p else some q) none with
  | some p => p.addr
  | none => 0xFFFF

/-- MASTER_DIST (R469). -/
def masterDist (s : M8) : Nat :=
  if s.fab.acting then 0
  else
    let ds := (ownLinks s).filterMap fun p =>
      if sameGroup p.2.addr (ownAddr s) && p.2.dist != 0xFFFF then some (p.2.dist + 1) else none
    match ds with
    | [] => 0xFFFF
    | d :: r => r.foldl min d

/-- FLAGS of the HELLO the device sends (R468). -/
def helloFlags (s : M8) : Nat :=
  b2n s.fab.acting + 2 * b2n ((ownPosition s).elim false Position.spare) + 4 * b2n (!(odBytes s Od.CABLE_MAP).isEmpty)

/-- ADDR, FLAGS and MASTER_DIST as the next HELLO tells them. -/
def helloFields (s : M8) : Nat × Nat × Nat := (ownAddr s, helloFlags s, masterDist s)

/-- Where a change of ADDR, FLAGS or MASTER_DIST since before makes every port's HELLO due at once (R469). -/
def helloIfChanged (before : Nat × Nat × Nat) (s : M8) : M8 :=
  if helloFields s = before then s else modFab s fun f => { f with helloAt := [] }

/-- The links or LSAs have changed: who acts as master follows (R471), and an assigned address whose holder has lapsed is
free again (R473). before tells the HELLO fields and the reachable members before the change. -/
def netChanged (before : Nat × Nat × Nat) (was : List Nat) (s : M8) : M8 :=
  let m := electMaster s
  let s := { s with grp := { s.grp with master := m } }
  let s := modFab s fun f => { f with
    acting := m != 0xFFFF && m == ownAddr s,
    granted := f.granted.filter fun g => !(was.contains g.1) || memberReachable s g.1 }
  helloIfChanged before s

/-- Change something of the fabric's view of the group, with what follows from it. -/
def withNet (s : M8) (f : M8 → M8) : M8 := netChanged (helloFields s) ((memberTable s).map Prod.fst) (f s)

/-- A frame of DISCOVERY to the neighbour on one port (R467, R468). -/
def sendNeighbour (s : M8) (p : Nat) (payload : Bytes) : M8 :=
  modFab s fun f => { f with units := f.units ++ [{ dst := 0xFFFE, cls := 1, payload := payload, port := some p }] }

/-- The HELLO of R468. -/
def helloBytes (s : M8) (p : Nat) : Bytes :=
  natLe 1 1 ++ zeros 1 ++ natLe 2 (domainId s) ++ natLe 8 (odNat s Od.SERIAL) ++ natLe 2 (ownAddr s) ++ natLe 1 p ++
    natLe 1 (helloFlags s) ++ natLe 2 (masterDist s) ++ natLe 4 (mapVersion s) ++ zeros 10

/-- Send a HELLO on a port. -/
def sendHello (s : M8) (p : Nat) : M8 :=
  modFab (sendNeighbour s p (helloBytes s p)) fun f => { f with helloAt := f.helloAt.put p s.clk.now }

/-- The LSA of the device (R474). -/
def lsaBytes (s : M8) (seq : Nat) : Bytes :=
  let es := ownLinks s
  natLe 1 5 ++ natLe 1 es.length ++ natLe 2 (ownAddr s) ++ natLe 4 seq ++
    es.flatMap fun p => natLe 1 p.1 ++ natLe 2 p.2.addr ++ zeros 1

/-- Every Acsal port toward the own group, without one (R474). -/
def groupPorts (s : M8) (but : Nat) : List Nat :=
  ((ownLinks s).filter fun p => sameGroup p.2.addr (ownAddr s) && p.1 != but).map Prod.fst

/-- Flood the own LSA within the group (R474). -/
def floodLsa (s : M8) : M8 :=
  if ownAddr s = 0xFFFF then s else
  let seq := (s.fab.lsaSeq + 1) % 2 ^ 32
  let s := modFab s fun f => { f with lsaSeq := seq, lsaAt := s.clk.now }
  let b := lsaBytes s seq
  (groupPorts s 32).foldl (fun s p => sendNeighbour s p b) s

/-! ### Routing (R475 to R479) -/

/-- A route entry of the table (R475). -/
def routeEntries (s : M8) : List Nat := (chunks 8 (odBytes s Od.ROUTE_TABLE)).map leNat

/-- Does a valid route entry match a destination (R476)? -/
def routeMatches (e dst : Nat) : Bool :=
  bit e 63 && bits dst 15 10 &&& bits e 48 43 == bits e 58 53 && bits dst 9 6 &&& bits e 42 39 == bits e 52 49

/-- The ports of a set that are up. -/
def upOf (s : M8) (set : Nat) : List Nat := (List.range 32).filter fun p => set.testBit p && linkUp s p

/-- The candidate ports of the route table: the matching entries by PRIO descending, then index; the first with an up
port (R476). -/
def routePorts (s : M8) (dst : Nat) : List Nat :=
  let es := (routeEntries s).filter fun e => routeMatches e dst
  ((List.range 16).reverse.findSome? fun prio =>
    es.findSome? fun e => if bits e 62 59 = prio && !(upOf s (bits e 31 0)).isEmpty then some (upOf s (bits e 31 0)) else none).getD []

/-- The port a unicast frame leaves on (R476); none for a drop. -/
def routePort (s : M8) (f : Frame) : Option Nat :=
  let ps := if sameGroup f.dst (ownAddr s) then upOf s (((memberTable s).find f.dst).getD 0) else routePorts s f.dst
  let h := f.dst ^^^ f.src ^^^ f.flow ^^^ (f.cls * 256)
  ps[h % max 1 ps.length]?

/-- Put a frame at the end of an egress queue (R465). -/
def enqueueFrame (s : M8) (p : Nat) (f : Frame) : M8 :=
  match tcOf f.cls with
  | some tc => modFab s fun x => { x with egress := x.egress.modify [] (p * 8 + tc) (· ++ [f]) }
  | none => s

/-- Deliver a frame to the local unit of its class. -/
def deliver (s : M8) (f : Frame) : M8 := emit s (.deliver f.cls f.src f.flow f.payload)

/-- The multicast table's entry of a group (R479). -/
def mcEntry (s : M8) (g : Nat) : Nat := leField (odBytes s Od.MC_TABLE) (8 * g) 8

/-- Replicate a multicast frame to the entry's up ports without its arrival port (32 for a frame of the device itself);
an arriving copy is decremented (R477, R479). The local copy is left to the caller. -/
def replicate (s : M8) (arrival : Nat) (f : Frame) : M8 :=
  let e := mcEntry s f.dst
  let f' := if arrival = 32 then f else { f with hops := f.hops - 1 }
  (List.range 32).foldl (fun s p =>
    if bit e p && p != arrival && linkUp s p then enqueueFrame s p f' else s) s

/-- Route a unicast frame into an egress queue, or drop it with NO_ROUTE (R476). -/
def routeFrame (s : M8) (f : Frame) : M8 :=
  match routePort s f with
  | some p => enqueueFrame s p f
  | none => odInc s Od.NO_ROUTE

/-- A frame of a local unit enters the switch (R465, R476, R477, R479). -/
def routeUnit (s : M8) (u : UnitFrame) : M8 :=
  let f : Frame := { dst := u.dst, src := ownAddr s, cls := u.cls, mc := u.mc,
                     hops := if u.dst = 0xFFFE then 1 else odNat s Od.HOP_LIMIT,
                     flow := u.flow, eseq := u.eseq, payload := u.payload }
  match u.port with
  | some p => if acsalUp s p then enqueueFrame s p f else s
  | none =>
    if u.mc then
      let e := mcEntry s u.dst
      if bit e 63 then
        let s := replicate s 32 f
        if bit e 62 then deliver s f else s
      else odInc s Od.NO_ROUTE
    else if u.dst = ownAddr s then deliver s f
    else routeFrame s f

/-- Every waiting frame of a local unit enters the switch, oldest first. -/
def routeUnits (s : M8) : M8 :=
  s.fab.units.foldl routeUnit (modFab s fun f => { f with units := [] })

/-! ### Policing and shaping (R481 to R485) -/

/-- The record of a policer: port bit and TC (R481). -/
def policerRec (s : M8) (p tc : Nat) : Bytes := slice (odBytes s Od.POLICERS) (24 * (8 * p + tc)) 24

def shaperRec (s : M8) (p tc : Nat) : Bytes := slice (odBytes s Od.SHAPERS) (16 * (8 * p + tc)) 16

/-- Tokens of a hub clock at a rate in Mb/s, with 32 fractional bits (R482). -/
def tokensPerHclk (mbps : Nat) : Nat := mbps * 2 ^ 32 / 12800

/-- A policer's buckets now: full where nothing has used them since they were filled (R482). In MODE 1 the committed
bucket overflows into the excess one (RFC 2697); in MODE 2 both fill on their own (RFC 2698). -/
def policerNow (s : M8) (p tc : Nat) : Policer :=
  let r := policerRec s p tc
  let cbs := leField r 8 4 * 2 ^ 32
  let ebs := leField r 16 4 * 2 ^ 32
  match s.fab.policers.find (8 * p + tc) with
  | none => { c := cbs, e := ebs, since := s.clk.hclk }
  | some x =>
    let n := s.clk.hclk - x.since
    let c := x.c + n * tokensPerHclk (leField r 4 4)
    if leField r 0 1 = 1 then { c := min cbs c, e := min ebs (x.e + (c - cbs)), since := s.clk.hclk }
    else { c := min cbs c, e := min ebs (x.e + n * tokensPerHclk (leField r 12 4)), since := s.clk.hclk }

/-- The colour a meter gives a frame of n bytes, and its buckets after: 0 green, 1 yellow, 2 red (R482). -/
def meter (mode colour n : Nat) (x : Policer) : Nat × Policer :=
  let b := n * 2 ^ 32
  if mode = 1 then
    if colour = 0 && x.c ≥ b then (0, { x with c := x.c - b })
    else if colour ≤ 1 && x.e ≥ b then (1, { x with e := x.e - b })
    else (2, x)
  else if colour = 2 || x.e < b then (2, x)
  else if colour = 1 || x.c < b then (1, { x with e := x.e - b })
  else (0, { x with c := x.c - b, e := x.e - b })

/-- Police a frame of n bytes and a colour at ingress: its new colour, or none where it is dropped (R482). TC 7 is never
policed. -/
def police (s : M8) (p tc colour n : Nat) : Option Nat × M8 :=
  let r := policerRec s p tc
  let mode := leField r 0 1
  if mode = 0 || tc = 7 then (some colour, s) else
  let (c, x) := meter mode (if bit (leField r 1 1) 0 then colour else 0) (n + leField r 2 1) (policerNow s p tc)
  let s := modFab s fun f => { f with policers := f.policers.put (8 * p + tc) x }
  if c = 2 || (c = 1 && bit (leField r 1 1) 1) then (none, odInc s Od.POLICE_DROPS)
  else (some (if c = 1 then 1 else colour), s)

/-- The tokens of a shaper now: BURST where nothing has used it since its record was set (R483, R484). -/
def shaperNow (s : M8) (p tc : Nat) : Nat :=
  let r := shaperRec s p tc
  let burst := leField r 8 4 * 2 ^ 32
  match s.fab.shapers.find (8 * p + tc) with
  | none => burst
  | some x => min burst (x.c + (s.clk.hclk - x.since) * tokensPerHclk (leField r 4 4))

/-- Metered length of a frame of n bytes at an egress shaper. -/
def shaperCost (s : M8) (p tc n : Nat) : Nat := (n + leField (shaperRec s p tc) 2 1) * 2 ^ 32

/-- Is a frame of n bytes eligible (R483)? -/
def shaperAllows (s : M8) (p tc n : Nat) : Bool :=
  leField (shaperRec s p tc) 0 1 == 0 || shaperNow s p tc ≥ shaperCost s p tc n

/-- Sending takes the metered length from the bucket. -/
def shaperTake (s : M8) (p tc n : Nat) : M8 :=
  if leField (shaperRec s p tc) 0 1 = 0 then s
  else modFab s fun f => { f with
    shapers := f.shapers.put (8 * p + tc) { c := shaperNow s p tc - shaperCost s p tc n, since := s.clk.hclk } }

/-! ### Fan-out deliveries (R480) -/

/-- Port j of a fan-out delivery answers: delivered writes 1 and gives its name; failed writes 2 and keeps it. -/
def fanoutAck (s : M8) (id j : Nat) (ok : Bool) : M8 :=
  match s.fab.fanouts.find? fun f => f.id == id with
  | none => s
  | some f =>
    if f.status.getD j 1 = 1 then s else
    let f' := { f with status := f.status.set j (if ok then 1 else 2) }
    let s := if ok then giveHold s f.hub f.pool f.hold f.owner else s
    modFab s fun x => { x with
      fanouts := if f'.status.all fun v => v == 1 then x.fanouts.filter fun g => g.id != id
                 else x.fanouts.map fun g => if g.id = id then f' else g }

/-! ### A port's link comes and goes (R464, R469, R474, R482) -/

/-- The link of an Acsal port that enters state 4: the sequences restart at 0 on both ends, the policers of the port are
full, the receiver grants the partner its buffers, whose sizes the spec does not give, and a HELLO and an LSA are sent
(R463, R464, R469, R474, R482). -/
def linkEnters (s : M8) (p : Nat) : M8 :=
  let (sizes, s) := (List.range 8).foldl (fun (a : Sparse Nat × M8) tc =>
    let (v, s) := drawFree a.2
    (a.1.set 0 tc (v % 65536), s)) (([] : Sparse Nat), s)
  let s := setLink s p { owed := sizes }
  let s := modFab s fun f => { f with policers := f.policers.filter fun e => e.1 / 8 != p }
  let s := sendLink s p 3 0
  let s := withNet s id
  floodLsa (sendHello s p)

/-- The policers of an Ethernet port are full when it enters state 4 (R482). -/
def ethEnters (s : M8) (p : Nat) : M8 := modFab s fun f => { f with policers := f.policers.filter fun e => e.1 / 8 != p }

/-- The link of an Acsal port that leaves state 4: it leaves every port set, its neighbour is lost, unacknowledged frames
are routed again in LSEQ order and counted in REROUTED, multicast copies are dropped and counted, and an LSA follows
(R464, R469, R474, R479). The port has left state 4 already. -/
def linkLeaves (s : M8) (p : Nat) : M8 :=
  let x := getLink s p
  let s := setLink s p {}
  let s := withNet s fun s => modFab s fun f => { f with nbrs := f.nbrs.drop p, helloAt := f.helloAt.drop p }
  let mcQ := (List.range 8).foldl (fun n tc => n + ((s.fab.egress.get [] (p * 8 + tc)).filter fun f => f.mc).length) 0
  let s := modFab s fun f => { f with egress := (List.range 8).foldl (fun e tc =>
    e.modify [] (p * 8 + tc) fun q => q.filter fun g => !g.mc) f.egress }
  let s := odAdd s Od.MC_DROPPED mcQ
  let s := x.replay.foldl (fun s e =>
    if e.2.mc then odInc s Od.MC_DROPPED
    else if e.2.dst = 0xFFFE then s
    else odInc (routeFrame s e.2) Od.REROUTED) s
  floodLsa s

end Machine
end Sys2Proof
end

