-- ==== Sys2Proof/Machine/RemoteOps.lean ====
section
/-!
DEFINITION. Sys2Proof/Machine/RemoteOps.lean: remote writes (R489 to R511): connections, grants, the packets of RoCE v2
and the frames of Acsal-SR, sending within the window, go-back-N and selective repeat, and how paths fail.
-/
namespace Sys2Proof
namespace Machine

/-- CRC-32 of IEEE 802.3, for the ICRC and the FCS (R489). -/
def crc32 (m : Bytes) : Nat := (m.foldl (crcByte 0xEDB88320) 0xFFFFFFFF) ^^^ 0xFFFFFFFF

def modRem (s : M8) (f : Remote → Remote) : M8 := { s with rem := f s.rem }

/-! ### Tables (R493, R497) -/

/-- Record c of a connection table. -/
def connRecOf (b : Bytes) (c : Nat) : Bytes := slice b (320 * c) 320

def connRec (s : M8) (c : Nat) : Bytes := connRecOf (odBytes s Od.CONN_TABLE) c

/-- Path record j of a connection record. -/
def pathRecOf (r : Bytes) (j : Nat) : Bytes := slice r (64 + 64 * j) 64

/-- Does connection c have a valid record: NPATHS is never 0 in one. -/
def connValid (s : M8) (c : Nat) : Bool := leField (connRec s c) 4 1 != 0

/-- A connection's header and one of its paths, read out of the table. -/
structure ConnInfo where
  sr : Bool := false
  replicate : Bool := false
  npaths : Nat := 0
  inbound : Bool := false
  retry : Nat := 0
  mtu : Nat := 1024
  timeout : Nat := 0
  window : Nat := 0
deriving DecidableEq, Repr

structure PathInfo where
  port : Nat := 0
  qpn : Nat := 0
  tx0 : Nat := 0
  rx0 : Nat := 0
  ip : Bytes := []
  mac : Bytes := []
  vid : Nat := 0
  addrAdj : Int := 0
  keyAdj : Nat := 0
  peer : Nat := 0
deriving DecidableEq, Repr

def connInfoOf (r : Bytes) : ConnInfo :=
  { sr := leField r 2 1 == 1, replicate := leField r 3 1 == 1, npaths := leField r 4 1, inbound := bit (leField r 5 1) 0,
    retry := leField r 6 1, mtu := 2 ^ (leField r 7 1), timeout := leField r 8 4, window := leField r 12 4 }

def pathInfoOf (p : Bytes) : PathInfo :=
  { port := leField p 0 1, qpn := leField p 4 4, tx0 := leField p 8 4, rx0 := leField p 12 4, ip := slice p 16 16,
    mac := slice p 32 6, vid := leField p 38 2, addrAdj := signed 64 (leField p 40 8), keyAdj := leField p 48 4,
    peer := leField p 52 2 }

def connInfo (s : M8) (c : Nat) : ConnInfo := connInfoOf (connRec s c)

def pathInfo (s : M8) (c j : Nat) : PathInfo := pathInfoOf (pathRecOf (connRec s c) j)

/-- Bits of a PSN: 24, or 32 for Acsal-SR (R493). -/
def psnBits (i : ConnInfo) : Nat := if i.sr then 32 else 24

def getPath (s : M8) (c j : Nat) : Path := s.rem.paths.get {} (4 * c + j)

def setPath (s : M8) (c j : Nat) (x : Path) : M8 := modRem s fun r => { r with paths := r.paths.set {} (4 * c + j) x }

def modPath (s : M8) (c j : Nat) (f : Path → Path) : M8 := setPath s c j (f (getPath s c j))

/-- A grant (R497). -/
def grantRecs (s : M8) : List Bytes := chunks 32 (odBytes s Od.GRANTS)

/-- Does a grant of connection c with the key's index cover [addr, addr + len) with the rights of mask (R498)? -/
def granted (s : M8) (c key addr len mask : Nat) : Bool :=
  (grantRecs s).any fun g =>
    leField g 0 4 == key % 2 ^ 24 && leField g 4 2 == c && (leField g 6 1 &&& mask) == mask &&
      leField g 8 8 ≤ addr && addr + len ≤ leField g 8 8 + leField g 16 8

/-- Paths of connection c in a state. -/
def pathsIn (s : M8) (c st : Nat) : List Nat := (List.range (connInfo s c).npaths).filter fun j => (getPath s c j).state == st

/-- The live paths of connection c, from path 0 (R505). -/
def livePaths (s : M8) (c : Nat) : List Nat := pathsIn s c 1

/-- The (connection, path) pairs that use port p (R493). -/
def pathsOn (s : M8) (p : Nat) : List (Nat × Nat) :=
  ((s.rem.paths.filter fun e => e.2.state != 0).map fun e => (e.1 / 4, e.1 % 4)).filter fun cj =>
    !(connInfo s cj.1).sr && (pathInfo s cj.1 cj.2).port == p

/-! ### Packets (R489, R490, R494) -/

/-- Is an address IPv4-mapped? -/
def ipv4Mapped (ip : Bytes) : Bool := ip.take 12 == zeros 10 ++ [0xFF#8, 0xFF#8]

/-- The IP header of a packet: DSCP ROCE_DSCP, ECN 00, TTL 64; on IPv4 DF and ID 0 (R490). ones marks the fields the
ICRC leaves out. -/
def ipHeader (dscp : Nat) (src dst : Bytes) (udpLen : Nat) (ones : Bool) : Bytes :=
  let tc := if ones then 255 else dscp * 4
  let hops := if ones then 255 else 64
  if ipv4Mapped dst then
    let h (sum : Nat) : Bytes := natBe 1 0x45 ++ natBe 1 tc ++ natBe 2 (20 + udpLen) ++ zeros 2 ++ natBe 2 0x4000 ++
      natBe 1 hops ++ natBe 1 17 ++ natBe 2 sum ++ slice src 12 4 ++ slice dst 12 4
    let words := (chunks 2 (h 0)).map beNat
    let t := words.foldl (· + ·) 0
    let t := t % 65536 + t / 65536
    let t := t % 65536 + t / 65536
    h (if ones then 0xFFFF else 65535 - t)
  else
    natBe 4 (6 * 2 ^ 28 + tc * 2 ^ 20 + (if ones then 0xFFFFF else 0)) ++ natBe 2 udpLen ++ natBe 1 17 ++ natBe 1 hops ++
      src ++ dst

/-- A RoCE v2 packet on the fibre: Ethernet, VLAN tag, IP, UDP to port 4791, the transport headers and payload of trans
(BTH first), ICRC and FCS (R489, R490). The UDP checksum is 0. -/
def rocePacket (s : M8) (port localQpn : Nat) (pi : PathInfo) (trans : Bytes) : Bytes :=
  let dscp := odNat s Od.ROCE_DSCP
  let src := odBytes s (Od.PORT_IP + port)
  let src := src ++ zeros (16 - src.length)
  let udpLen := 8 + trans.length + 4
  let udp (sum : Nat) : Bytes := natBe 2 (0xC000 + localQpn % 0x4000) ++ natBe 2 4791 ++ natBe 2 udpLen ++ natBe 2 sum
  let masked := List.replicate 8 0xFF#8 ++ ipHeader dscp src pi.ip udpLen true ++ udp 0xFFFF ++ patch trans 4 [0xFF#8]
  let icrc := natLe 4 (crc32 masked)
  let eth := pi.mac ++ slice (Config.portMac port) 0 6 ++ natBe 2 0x8100 ++
    natBe 2 (odNat s Od.ROCE_PRIO * 2 ^ 13 + pi.vid % 4096) ++ natBe 2 (if ipv4Mapped pi.ip then 0x0800 else 0x86DD)
  let body := eth ++ ipHeader dscp src pi.ip udpLen false ++ udp 0 ++ trans ++ icrc
  body ++ natLe 4 (crc32 body)

/-- The base transport header: opcode, pad count, destination QP, AckReq, PSN. -/
def bth (opcode pad qpn psn : Nat) (ackReq : Bool) : Bytes :=
  natBe 1 opcode ++ natBe 1 (pad * 16) ++ natBe 2 0xFFFF ++ zeros 1 ++ natBe 3 qpn ++ natBe 1 (b2n ackReq * 128) ++
    natBe 3 psn

/-- The local QPN of a path (R494). -/
def localQpn (c j : Nat) : Nat := 0x100000 + 4 * c + j

/-- The key and address a path sends (R498). -/
def pathKey (pi : PathInfo) (key : Nat) : Nat := key / 2 ^ 24 * 2 ^ 24 + (key + pi.keyAdj) % 2 ^ 24

def pathAddr (pi : PathInfo) (addr : Nat) : Nat := unsigned 64 ((addr : Int) + pi.addrAdj)

/-- Packet k of n of a message on path j (R503): an RDMA WRITE packet; AckReq on the message's last packet and on every
64th packet of the path. -/
def writePacket (s : M8) (c j : Nat) (m : Msg) (k n psn : Nat) : Bytes :=
  let ci := connInfo s c
  let pi := pathInfo s c j
  let data := (m.data.drop (k * ci.mtu)).take ci.mtu
  let pad := padLen data.length - data.length
  let op := if n = 1 then 0x0A else if k = 0 then 0x06 else if k + 1 = n then 0x08 else 0x07
  let ack := k + 1 == n || (serialDiff 24 psn pi.tx0 + 1) % 64 == 0
  let reth := if k = 0 then natBe 8 (pathAddr pi m.addr) ++ natBe 4 (pathKey pi m.key) ++ natBe 4 m.data.length else []
  rocePacket s pi.port (localQpn c j) pi (bth op pad pi.qpn psn ack ++ reth ++ data ++ zeros pad)

/-- An acknowledgement or NAK with a syndrome (R489). -/
def ackPacket (s : M8) (c j syndrome psn : Nat) : Bytes :=
  let pi := pathInfo s c j
  rocePacket s pi.port (localQpn c j) pi (bth 0x11 0 pi.qpn psn false ++ natBe 1 syndrome ++ zeros 3)

/-- WRITE frame k of n of a message over Acsal-SR (R508). ACKREQ stands on a message's last frame. -/
def srFrame (s : M8) (c : Nat) (m : Msg) (k n psn : Nat) : Bytes :=
  let ci := connInfo s c
  let data := (m.data.drop (k * ci.mtu)).take ci.mtu
  natLe 1 1 ++ natLe 1 (b2n (k + 1 == n)) ++ zeros 2 ++ natLe 4 (pathInfo s c 0).qpn ++ natLe 4 psn ++ natLe 4 m.key ++
    natLe 8 (m.addr + k * ci.mtu) ++ natLe 4 data.length ++ zeros 4 ++ data

/-! ### Sending (R491, R500, R503, R509) -/

def findMsg (s : M8) (id : Nat) : Option Msg := s.rem.msgs.find? fun m => m.id == id

def setMsg (s : M8) (m : Msg) : M8 := modRem s fun r => { r with msgs := r.msgs.map fun x => if x.id = m.id then m else x }

/-- Packets of a message. -/
def msgPackets (mtu : Nat) (m : Msg) : Nat := max 1 (ceilDiv m.data.length mtu)

/-- The buffer of step n of a rank, and the record slot (R161, R170). -/
def bufOf (s : M8) (r n : Nat) : Nat := n % max 1 (rankOf s r).nbuf

def recOf (s : M8) (r n : Nat) : Nat := n % max 1 (rankOf s r).nrec

/-- Note a transmission into a buffer or a commit record slot (R500). -/
def noteTx (s : M8) (m : Msg) : M8 :=
  match m.tag with
  | .slot id => match s.job.packed.find? fun p => p.id == id with
    | some p => modRem s fun r => { r with bufTx := r.bufTx.put (p.rank * 64 + bufOf s p.rank p.step) (s.clk.now, m.key, p.step) }
    | none => s
  | .body n r => modRem s fun x => { x with recTx := x.recTx.put (r * 65536 + recOf s r n) (s.clk.now, n) }
  | .seal n r => modRem s fun x => { x with recTx := x.recTx.put (r * 65536 + recOf s r n) (s.clk.now, n) }
  | .reply _ => s
  | .replySeq _ => s

/-- Is ROCE_PRIO paused on a port by PFC (R491)? -/
def pfcPaused (s : M8) (p : Nat) : Bool := s.clk.now < (s.rem.pfc.get {} p).until_

/-- The first message of a path with a packet to send. -/
def Path.toSend (x : Path) : Option PathMsg := x.msgs.find? fun m => m.sent < m.pkts

/-- Put a path message back. -/
def Path.put (x : Path) (m : PathMsg) : Path := { x with msgs := x.msgs.map fun y => if y.msg = m.msg then m else y }

/-- Send one packet of a path where R491, R483, R447 and the window admit it; none where they do not. -/
def sendOne (s : M8) (c j : Nat) : Option M8 :=
  let x := getPath s c j
  let ci := connInfo s c
  let w := psnBits ci
  if x.state != 1 then none else
  match x.toSend with
  | none => none
  | some pm => match findMsg s pm.msg with
    | none => none
    | some m =>
      if serialDiff w x.next x.una ≥ ci.window then none else
      let psn := x.next
      let first := if pm.begun then pm.psn else psn
      let nx := (psn + 1) % 2 ^ w
      let done (s : M8) : M8 :=
        let y := (getPath s c j).put { pm with sent := pm.sent + 1, begun := true, psn := first }
        noteTx (setPath s c j { y with
          next := nx, high := if serialDiff w nx x.una > serialDiff w x.high x.una then nx else x.high,
          active := s.clk.now }) m
      if ci.sr then
        some (done (sendFrame s (pathInfo s c 0).peer 0x6 0 (srFrame s c m pm.sent pm.pkts psn)))
      else
        let p := (pathInfo s c j).port
        let b := writePacket s c j m pm.sent pm.pkts psn
        let tc := odNat s Od.ROCE_PRIO
        if pfcPaused s p || !shaperAllows s p tc b.length then none
        else
          let (st, s') := txCommand s p (.packet c j psn b)
          if st ≤ 1 then some (done (shaperTake s' p tc b.length)) else none

/-- Send what a path may send; fuel bounds the packets. -/
def pumpFuel (c j : Nat) : Nat → M8 → M8
  | 0, s => s
  | n + 1, s => match sendOne s c j with
    | some s' => pumpFuel c j n s'
    | none => s

/-- Packets a path has still to send. -/
def Path.backlog (x : Path) : Nat := x.msgs.foldl (fun n m => n + (m.pkts - m.sent)) 0

def pump (s : M8) (c j : Nat) : M8 := pumpFuel c j (getPath s c j).backlog s

def pumpAll (s : M8) (c : Nat) : M8 := (List.range (connInfo s c).npaths).foldl (fun s j => pump s c j) s

/-- Put a message on a path, at its end. -/
def putOnPath (s : M8) (m : Msg) (j : Nat) : M8 :=
  modPath s m.conn j fun x => { x with
    msgs := x.msgs ++ [{ msg := m.id, pkts := msgPackets (connInfo s m.conn).mtu m }],
    active := if x.msgs.isEmpty then s.clk.now else x.active }

/-- The paths a write goes on (R505): all under replicate; under any-path the live path of rank slot mod L for a slot, of
those whose ports take packets where one does (R506, R447), and the lowest live path for the rest. -/
def choosePaths (s : M8) (c : Nat) (slot : Option Nat) : List Nat :=
  let ci := connInfo s c
  if ci.sr then (if (getPath s c 0).state == 1 then [0] else [])
  else if ci.replicate then List.range ci.npaths
  else
    let live := livePaths s c
    let up := live.filter fun j => portUp s (pathInfo s c j).port
    let ps := if up.isEmpty then live else up
    match slot with
    | some k => (ps[k % max 1 ps.length]?).toList
    | none => ps.take 1

/-- Slot of a write's tag, which chooses its path. -/
def tagSlot (s : M8) : WriteTag → Option Nat
  | .slot id => (s.job.packed.find? fun p => p.id == id).map fun p => p.slot
  | _ => none

/-- Give a message its paths and start sending. -/
def placeMsg (s : M8) (m : Msg) : M8 :=
  let ps := choosePaths s m.conn (tagSlot s m.tag)
  let m := { m with paths := ps, acked := [] }
  ps.foldl (fun s j => pump (putOnPath s m j) m.conn j) (setMsg s m)

/-- Has the transport given up on connection c: no path is live or suspended (R507)? -/
def givenUp (s : M8) (c : Nat) : Bool := (livePaths s c).isEmpty && (pathsIn s c 2).isEmpty

/-- A remote write of connection c (R498, R503). A write no grant covers is not sent; it is counted in BOUNDS_BLOCKED and
is a dangerous failure, mode 0x0A. A write of a connection without a path that is live or suspended is given up. -/
def remoteWrite (s : M8) (c key addr : Nat) (data : Bytes) (tag : WriteTag) : M8 :=
  let flagged := match tag with
    | .seal _ _ => true
    | _ => false
  if !granted s c key addr data.length (if flagged then 3 else 1) then
    react (odInc s Od.BOUNDS_BLOCKED) 0x0A 2 (0x51 + 4 * ((pathInfo s c 0).port / 8)) 0xFFFF addr
  else if givenUp s c then s
  else
    let m : Msg := { id := s.rem.nextMsg, conn := c, key := key, addr := addr, data := data, tag := tag }
    placeMsg (modRem s fun r => { r with nextMsg := r.nextMsg + 1, msgs := r.msgs ++ [m] }) m

/-! ### Acknowledgements (R503 to R505, R509) -/

/-- Every message whose last packet lies below the oldest unacknowledged PSN leaves the path. -/
def ackedMsgs (w : Nat) (x : Path) : List PathMsg :=
  x.msgs.filter fun m => m.begun && serialDiff w ((m.psn + m.pkts) % 2 ^ w) x.una == 0 ||
    m.begun && serialNewer w x.una ((m.psn + m.pkts) % 2 ^ w)

/-- Acknowledge on path j what una now covers: the tags of the writes that are wholly acknowledged, and the rest. -/
def settlePath (s : M8) (c j : Nat) : List WriteTag × M8 :=
  let w := psnBits (connInfo s c)
  let x := getPath s c j
  let gone := ackedMsgs w x
  let s := setPath s c j { x with msgs := x.msgs.filter fun m => !gone.contains m }
  gone.foldl (fun (a : List WriteTag × M8) pm => match findMsg a.2 pm.msg with
    | none => a
    | some m =>
      let m := { m with acked := j :: m.acked }
      let a := (a.1, match m.tag with
        | .slot id => fanoutAck a.2 id j true
        | _ => a.2)
      if m.paths.all fun k => m.acked.contains k then
        (a.1 ++ [m.tag], modRem a.2 fun r => { r with msgs := r.msgs.filter fun y => y.id != m.id })
      else (a.1, setMsg a.2 m)) ([], s)

/-- Acknowledgement progress to una = psn (R504). -/
def progress (s : M8) (c j una : Nat) : M8 :=
  modPath s c j fun x => { x with
    una := una, retries := 0, active := s.clk.now,
    next := if serialNewer (psnBits (connInfo s c)) una x.next then una else x.next,
    msgs := x.msgs.map fun m =>
      let d := serialDiff (psnBits (connInfo s c)) una m.psn
      if m.begun && serialNewer (psnBits (connInfo s c)) una m.psn then { m with sent := max m.sent (min m.pkts d) } else m }

/-- Go back: what stands at or beyond PSN is sent again (R504); RDMA_RETRANSMITS and the path's RESENDS count it. -/
def goBack (s : M8) (c j psn : Nat) : M8 :=
  let w := psnBits (connInfo s c)
  let s := odInc s Od.RDMA_RETRANSMITS
  let s := modPath s c j fun x => { x with
    next := psn, resends := (x.resends + 1) % 2 ^ 32, active := s.clk.now,
    msgs := x.msgs.map fun m =>
      if !m.begun then m
      else if serialNewer w psn m.psn then { m with sent := min m.sent (serialDiff w psn m.psn) }
      else { m with sent := 0 } }
  pump s c j

/-! ### Paths fail and return (R506, R507) -/

/-- Does a rank of the loaded job use connection c? -/
def jobUses (s : M8) (c : Nat) : Bool := jobLoaded s && s.job.jr.ranks.any fun r => r.kind == 0 && r.conn == c

/-- Under any-path, the messages of a path go to the other live paths from their first byte, in their order; without a
live or suspended path the transport gives them up (R507). -/
def rehome (s : M8) (c j : Nat) : M8 :=
  let ms := (getPath s c j).msgs
  let s := modPath s c j fun x => { x with msgs := [] }
  ms.foldl (fun s pm => match findMsg s pm.msg with
    | none => s
    | some m =>
      if givenUp s c then modRem s fun r => { r with msgs := r.msgs.filter fun y => y.id != m.id }
      else placeMsg s m) s

/-- Under replicate, the status byte of a failed path becomes 2 in the deliveries that wait on it (R480, R507). -/
def fanoutFail (s : M8) (c j : Nat) : M8 :=
  (getPath s c j).msgs.foldl (fun s pm => match findMsg s pm.msg with
    | some m => match m.tag with
      | .slot id => fanoutAck s id j false
      | _ => s
    | none => s) s

/-- A path fails (state 3) or enters error (state 4) with a REASON (R506, R507). A connection of the job left without a
live path is a unit fault of KIND 4 the holder declares itself (R519). -/
def failPath (s : M8) (c j state reason : Nat) : M8 :=
  let x := getPath s c j
  if x.state = 0 || x.state = 3 || x.state = 4 then s else
  let s := odInc (setPath s c j { x with state := state, reason := reason, retries := 0 }) Od.PATH_FAILS
  let s := if state = 4 then odInc s Od.KEY_NAKS else s
  let s := if (connInfo s c).replicate then fanoutFail s c j else rehome s c j
  if state = 3 && jobUses s c && (livePaths s c).isEmpty then declareSelf s 4 else s

/-- Every path on a port does g. -/
def eachPathOn (s : M8) (p : Nat) (g : M8 → Nat → Nat → M8) : M8 := (pathsOn s p).foldl (fun s cj => g s cj.1 cj.2) s

/-- A port has left state 4: its live paths are suspended (R506). -/
def suspendPaths (s : M8) (p : Nat) : M8 :=
  eachPathOn s p fun s c j =>
    if (getPath s c j).state = 1 then modPath s c j fun x => { x with state := 2, heldFrom := s.clk.now } else s

/-- Messages that no path took while none was live get one. -/
def placeWaiting (s : M8) (c : Nat) : M8 :=
  (s.rem.msgs.filter fun m => m.conn == c && m.paths.isEmpty).foldl placeMsg s

/-- A port has returned to state 4: its suspended paths are live again and resume under R504 (R506). -/
def resumePaths (s : M8) (p : Nat) : M8 :=
  eachPathOn s p fun s c j =>
    if (getPath s c j).state = 2 then
      let s := modPath s c j fun x => { x with state := 1, active := s.clk.now }
      let x := getPath s c j
      placeWaiting (if x.next = x.una then pump s c j else goBack s c j x.una) c
    else if (getPath s c j).state = 1 then pump s c j
    else s

/-- A port has reached state 6: its paths fail at once with REASON 2 (R506). -/
def failPathsOn (s : M8) (p reason : Nat) : M8 := eachPathOn s p fun s c j => failPath s c j 3 reason

end Machine
end Sys2Proof
end

