-- ==== Sys2Proof/Machine/Cotillion.lean ====
section
/-!
DEFINITION. Sys2Proof/Machine/Cotillion.lean: packing, and the slot writes (R130, R155, R158 to R166, R173, R266, R480,
R499, R500).
-/
namespace Sys2Proof
namespace Machine

def modJob (s : M8) (f : Job → Job) : M8 := { s with job := f s.job }

/-! ### Packing (R158, R266) -/

/-- The pack-stage owner of a stream's slots (R337). -/
def packOwner (stream : Nat) : Nat := 0xC0 + stream % 64

/-- The packed bytes of a place descriptor: elements are read from SRC on (R266); all ones where SRC lies in no memory. -/
def packedBytes (s : M8) (t : Nat) (b : Bytes) : Bytes :=
  let l := layoutOf (s.job.img.layouts.getD (leField b 20 2) [])
  match localToPkg t (leField b 0 8) with
  | some p => packLayout l fun off => leNat (readMemOnes s (p + off) (elemSize l.srcType))
  | none => packLayout l fun _ => 2 ^ (8 * elemSize l.srcType) - 1

/-- The connection of a rank has the replicate mode: one fan-out delivery per slot (R480, R505). -/
def fanoutPorts (s : M8) (r : Nat) : List Nat :=
  let k := rankOf s r
  if k.kind = 0 && (connInfo s k.conn).replicate then
    (List.range (connInfo s k.conn).npaths).map fun j => (pathInfo s k.conn j).port else []

/-- Has a CANCEL_ACK said that the slot is never written (R173)? -/
def neverWritten (s : M8) (n r k : Nat) : Bool := s.job.never.contains (n, r, k)

/-- A PLACE completes: it leaves the queue and its counter gains 1 (R195). -/
def placeDone (s : M8) (t req : Nat) : M8 :=
  match findReq s t req with
  | some r => notifyCounter (dropReq s t req) r.counter
  | none => s

/-- The write of a PLACE counts as acknowledged for every remote fence that covers it (R205). -/
def placeAcked (s : M8) (t req : Nat) : M8 :=
  modTile s t fun x => { x with
    placesOut := x.placesOut.filter (· != req),
    rfences := x.rfences.map fun f => { f with covers := f.covers.filter (· != req) } }

/-- What stands in the cells h is packed: the slot's bytes go there, TERM into the descriptor, the formats count (R167,
R203, R602); the slot waits to be written. -/
def packInto (m : M8) (t : Nat) (r : Request) (h : Holding) (owner : Nat) : M8 :=
  let hub := t / 16
  let b := r.desc
  let n := leField b 8 6
  let rk := leField b 14 2
  let k := leField b 16 4
  let lay := leField b 20 2
  let l := layoutOf (m.job.img.layouts.getD lay [])
  let bytes := packedBytes m t b
  let term := slotTerm n rk k (epochOf m n) lay bytes
  let m := if (localToPkg t (leField b 0 8)).isNone then addressError m (0x51 + 4 * hub) (leField b 0 8) else m
  let m := writeMem (writeSpans m (holdSpans m hub 0 h) bytes) (r.addr + 32) (natLe 8 term)
  let m := count m (64 + hub) (13 + l.format) l.elems
  let m := if l.scale = 0 then m else count m (64 + hub) 27 (l.elems / 32)
  let m := modJob m fun j => { j with lastPacked := j.lastPacked.put lay (bytes, leField b 24 6) }
  if m.job.audit then
    placeAcked (placeDone (addPacked (giveHold m hub 0 h.id owner)
      { slot := k, mayVary := r.vary, term := term, data := bytes }) t r.id) t r.id
  else if neverWritten m n rk k then placeAcked (placeDone (giveHold m hub 0 h.id owner) t r.id) t r.id
  else
    let y := getThread m t r.thread
    let id := m.job.nextId
    let m := addPacked (setReq m t { r with phase := .packing }) {
      tile := t, step := n, rank := rk, slot := k, sample := leField b 24 6, mayVary := r.vary, term := term, data := bytes,
      chan := if y.locked then some y.channel else none, hold := some (hub, h.id, owner), req := r.id }
    let ports := fanoutPorts m rk
    if ports.isEmpty then m
    else
      let m := (ports.drop 1).foldl (fun m _ => shareHold m hub 0 h.id owner) m
      modFab m fun f => { f with fanouts := f.fanouts ++ [{
        id := id, status := ports.map fun _ => 0, ports := ports, hub := hub, pool := 0, hold := h.id, owner := owner }] }

/-- COTILLION_PACK: the PLACE at the head of a tile's queue takes cells of its stream's pack owner, waiting for them where
it must, and is packed into them (R163, R196, R266, R337). -/
def cotillionPack (m : M8) (t : Nat) (r : Request) : M8 :=
  let hub := t / 16
  let owner := packOwner (entryStream (sampleEntry m (leField r.desc 24 6)))
  let l := layoutOf (m.job.img.layouts.getD (leField r.desc 20 2) [])
  let (id, m) := if r.hold = 0 then newHold m else (r.hold, m)
  let m := if r.hold = 0 then
    setReq (requestCells m hub 0 { id := id, owner := owner, cells := ceilDiv l.slotBytes 512, chain := true }) t { r with hold := id }
  else m
  match findHold m hub 0 id with
  | some h => drainReqs (packInto m t { r with hold := id } h owner) t
  | none => m

/-- COTILLION_PACK. -/
def execCotillionPack (t req : Nat) (s : State) : Out :=
  live s fun m =>
    match (queuedReqs (getTile m t)).head? with
    | some r => if r.id = req && r.kind = .place then cotillionPack m t r else m
    | none => m

/-! ### Buffers (R161 to R163, R499) -/

def getRank (s : M8) (r : Nat) : RankState := s.job.ranks.get {} r

def setRank (s : M8) (r : Nat) (x : RankState) : M8 := modJob s fun j => { j with ranks := j.ranks.set {} r x }

/-- The key of the buffer of step n (R499). -/
def bufKeyOf (s : M8) (r n : Nat) : Nat := ((getRank s r).keys.find (bufOf s r n)).getD (rankOf s r).bufKey

/-- Is the buffer of step n of rank r released (R161)? Buffers no earlier step of the job has used are free of credits. -/
def bufFree (s : M8) (r n : Nat) : Bool :=
  let k := rankOf s r
  if k.credit = 0 then (getRank s r).released.contains n
  else n < s.job.jr.firstStep + k.nbuf || (match (getRank s r).credit with
    | some c => n ≤ c + k.nbuf
    | none => false)

/-- BUFFER_RELEASE: under implicit release the timebase has reached step n - NBUF + 1 and the seal of step n - NBUF has
been issued (R161). Of a rank another member owns, the command itself tells of the seal (assumption log 38). -/
def execBufferRelease (r n : Nat) (s : State) : Out :=
  live s fun m =>
    let k := rankOf m r
    if r < m.job.jr.ranks.length && k.credit = 0 && m.pav.running && isTarget m n && n + 1 ≤ m.pav.tb / 65536 + k.nbuf &&
        (!ownsRank m r || n < m.job.jr.firstStep + k.nbuf || sealedTo m (n - k.nbuf) r) && !bufFree m r n then
      let x := getRank m r
      setRank m r { x with released := n :: x.released.filter (n ≤ · + 2 * k.nbuf) }
    else m

/-- The credit-stall source stays up while a rank is stalled (R163, R593). -/
def creditLine (s : M8) : M8 := setLine s 0x149 (s.job.ranks.any fun p => p.2.stallCounted)

/-- The 48-bit step nearest a base whose low 32 bits are w (R162). -/
def expandStep (base w : Nat) : Nat :=
  let d := (w + 2 ^ 32 - base % 2 ^ 32) % 2 ^ 32
  if d < 2 ^ 31 then (base + d) % 2 ^ 48 else (base + 2 ^ 48 + d - 2 ^ 32) % 2 ^ 48

/-- Does a key's index have a grant covering a buffer of the rank with WRITE (R499)? -/
def creditKeyOk (s : M8) (r n key : Nat) : Bool :=
  let k := rankOf s r
  k.kind = 1 || granted s k.conn key (k.bufBase + bufOf s r n * k.bufStride) (k.slots * k.slotStride) 1

/-- A credit word of a rank is written (R162, R163, R499): ignored when not newer; too early before its step's seal, for a
rank this member owns; without a usable key the buffer stays held. -/
def creditWrite (m : M8) (r w : Nat) : M8 :=
  let k := rankOf m r
  if !jobLoaded m || r ≥ m.job.jr.ranks.length then m else
  let m := writeMem m (m.job.creditArea + 8 * r) (natLe 8 w)
  let x := getRank m r
  let n := expandStep (x.sealedTo.getD m.job.jr.firstStep) (w % 2 ^ 32)
  let key := w / 2 ^ 32 % 2 ^ 32
  if k.credit = 0 || (match x.credit with
      | some c => n ≤ c
      | none => n < m.job.jr.firstStep) then m
  else if ownsRank m r && !sealedTo m n r then odInc m Od.CREDIT_EARLY
  else if !creditKeyOk m r n key then odInc m Od.CREDIT_BAD
  else creditLine (setRank m r { x with
    credit := some n, creditStep := m.pav.tb / 65536, stallCounted := false, keys := x.keys.put (bufOf m r n) key })

/-- CREDIT_WRITE. -/
def execCreditWrite (r w : Nat) (s : State) : Out := live s fun m => creditWrite m r w

/-- CREDIT_STALL: CREDIT_STALL_STEPS steps have passed without a new credit of a rank (R163): counted once. -/
def execCreditStall (r : Nat) (s : State) : Out :=
  live s fun m =>
    let x := getRank m r
    let from_ := max x.creditStep (m.job.jr.firstStep - m.job.img.lead)
    if r < m.job.jr.ranks.length && (rankOf m r).credit = 1 && m.pav.running && !x.stallCounted &&
        m.pav.tb / 65536 ≥ from_ + odNat m Od.CREDIT_STALL_STEPS then
      creditLine (odInc (setRank m r { x with stallCounted := true }) Od.CREDIT_WAITS)
    else m

/-! ### Slot writes (R130, R160, R500) -/

def findPacked (s : M8) (id : Nat) : Option PackedSlot := s.job.packed.find? fun p => p.id == id

def setPacked (s : M8) (p : PackedSlot) : M8 :=
  modJob s fun j => { j with packed := j.packed.map fun q => if q.id = p.id then p else q }

def dropPacked (s : M8) (id : Nat) : M8 := modJob s fun j => { j with packed := j.packed.filter fun q => q.id != id }

/-- The delivery windows a slot may go in: those of the channel that placed it; of any channel for a free one. -/
def deliveryWindows (s : M8) (p : PackedSlot) : List (Nat × Window) :=
  (List.range s.job.img.windows.length).filterMap fun i => (windowOf s i).bind fun w =>
    if w.kind = 2 && (p.chan.all fun c => w.channel == c) then some (i, w) else none

/-- Is every delivery window of its own target spent for this slot, so that it may go in another target's (R130)? -/
def deliveryMoved (s : M8) (p : PackedSlot) : Bool :=
  (deliveryWindows s p).all fun iw => windowSpent s iw.1 iw.2 p.step (transferNs s iw.2.channel p.data.length)

/-- May the slot's transfer start now (R130, R160)? -/
def deliveryOpen (s : M8) (p : PackedSlot) : Bool :=
  (deliveryWindows s p).any fun iw => s.pav.wins.any fun w =>
    w.idx == iw.1 && !w.closed && (w.target == p.step || deliveryMoved s p) &&
      transferNs s iw.2.channel p.data.length ≤ timeLeft s iw.2 w.target

/-- Older work that has been moved into other targets' windows of the same channel, and may start, goes first (R130). -/
def olderMoved (s : M8) (p : PackedSlot) : Bool :=
  s.job.packed.any fun q => q.step < p.step && (q.chan == p.chan || q.chan.isNone || p.chan.isNone) && !q.issued &&
    !sealedTo s q.step q.rank && bufFree s q.rank q.step && deliveryMoved s q && deliveryOpen s q

/-- MAX_PKT_LIFE_US in ns. -/
def pktLife (s : M8) : Nat := odNat s Od.MAX_PKT_LIFE_US * 1000

/-- Is the first new write into a buffer held, since packets sent under the same key may still live (R500)? -/
def lifeHold (s : M8) (p : PackedSlot) : Bool :=
  match s.rem.bufTx.find (p.rank * 64 + bufOf s p.rank p.step) with
  | some (t, key, n) => n != p.step && key == bufKeyOf s p.rank p.step && s.clk.now < t + pktLife s
  | none => false

/-- A hold of R500 is counted once. -/
def noteHold (s : M8) (key : Nat) : M8 :=
  if s.rem.lifeHeld.contains key then s
  else odInc (modRem s fun r => { r with lifeHeld := key :: r.lifeHeld }) Od.LIFE_HOLDS

def unhold (s : M8) (key : Nat) : M8 := modRem s fun r => { r with lifeHeld := r.lifeHeld.filter (· != key) }

/-- The owner records a slot (R166 to R171, R173): a new one enters the bitmap and the sum; the same term again is a
duplicate; another term is a conflict, mode 0x08: the commit is withheld and both senders are declared faulted. Answers the
senders in conflict and the two terms. -/
def recordSlot (s : M8) (n r k term reason sample sender : Nat) (vary : Bool) : Option (List Nat × Nat × Nat) × M8 :=
  let a := getAsm s n r
  match a.terms.find k with
  | some old =>
    if old = term then (none, odInc s Od.DUP_NOTICES)
    else (some ([sender, (a.senders.find k).getD sender], old, term), setAsm s { a with conflict := true })
  | none =>
    let rec ins : List (Nat × Nat × Nat) → List (Nat × Nat × Nat)
      | [] => [(k, reason, sample)]
      | e :: es => if k < e.1 then (k, reason, sample) :: e :: es else e :: ins es
    (none, setAsm s { a with
      terms := a.terms.put k term, digest := (a.digest + term) % 2 ^ 64, mayVary := a.mayVary || vary,
      exc := if reason = 0 then a.exc else ins a.exc, senders := a.senders.put k sender,
      inFlight := a.inFlight.filter (· != k) })

/-- FAULT of KIND 6 against both senders of conflicting terms; the owner declares itself only when it is one of them
(R549). -/
def declareSenders (s : M8) (senders : List Nat) : M8 :=
  senders.eraseDups.foldl (fun s a =>
    if a = ownAddr s then declareSelf s 6
    else match (List.range (groupW s)).find? fun i => roleHolder s i == a with
      | some i => sendFault s i 6
      | none => s) s

/-- The reaction to conflicting terms (R548, R549, R557): the gates close, SEAL_HOLD is 1, a record is written. -/
def termConflict (s : M8) (bad : Option (List Nat × Nat × Nat)) (rank : Nat) : M8 :=
  match bad with
  | none => s
  | some (senders, old, new) =>
    let s := odSet (closeGates s) Od.SEAL_HOLD 1
    let s := { s with safe := { s.safe with reacting := true } }
    let s := if s.safe.faultN then s else odSet s Od.SAFETY_STATE 1
    let s := logDetection s 0x08 4 0 2 rank (old % 2 ^ 32 + (new % 2 ^ 32) * 2 ^ 32)
    let s := declareSenders s senders
    if (odNat s Od.STOP_CFG).testBit 2 then startStop s 5 else s

/-- A slot's write is acknowledged (R55, R155, R165, R173): its cells and coverage go; a fill's SLOT_DONE waits for its
canaries; a substitute is recorded by the owner at once. -/
def slotAcked (s : M8) (id : Nat) : M8 :=
  match findPacked s id with
  | none => s
  | some p =>
    let s := setPacked s { p with acked := true, data := [], hold := none }
    let s := modJob s fun j => { j with fenceAt := j.fenceAt.put p.step s.pav.tb }
    let s := match p.hold with
      | some (hub, h, owner) => if (fanoutPorts s p.rank).isEmpty then giveHold s hub 0 h owner else s
      | none => s
    let s := if p.req = 0 then s else placeAcked s p.tile p.req
    if p.reason = 0 then s
    else if p.reason = 0xF0 then
      let (bad, s) := recordSlot s p.step p.rank p.slot p.term 0xF0 p.sample (ownAddr s) true
      termConflict s bad p.rank
    else
      { s with safe := { s.safe with held := s.safe.held ++ [{
        hub := p.tile / 16, tile := p.tile, dst := holderOf s (memberAt s p.rank),
        payload := notice 1 p.reason 0 (jobTag s) p.step p.rank p.slot p.sample p.term, heldAt := s.clk.now }] } }

/-- A slot's write is issued (R159, R160, R498, R499): the PLACE completes and the bytes go to the connection, or into the
readback area. -/
def slotIssue (s : M8) (p : PackedSlot) : M8 :=
  let k := rankOf s p.rank
  let s := setPacked (unhold s p.id) { p with issued := true }
  let s := if p.req = 0 then s else placeDone s p.tile p.req
  let a := slotAddr k p.step p.slot
  if k.kind = 1 then slotAcked (writeMem s (partBase s 1 + a) p.data) p.id
  else remoteWrite s k.conn (bufKeyOf s p.rank p.step) a p.data (.slot p.id)

/-- May slots be written: the job runs or drains and the member is not fenced (R522)? -/
def mayWrite (s : M8) : Bool := (jobState s = 3 || jobState s = 4) && s.pav.running && !s.grp.fenced

/-- SLOT_WRITE_ISSUE: a packed slot is written once its window is open, its buffer is released, and no packet under the
same key can still live (R130, R160, R161, R500); a replayed write of a sealed step is not issued (R528). -/
def execSlotWriteIssue (id : Nat) (s : State) : Out :=
  live s fun m =>
    match findPacked m id with
    | none => m
    | some p =>
      if p.issued || sealedTo m p.step p.rank || !mayWrite m || !bufFree m p.rank p.step || olderMoved m p || !deliveryOpen m p then m
      else if lifeHold m p then noteHold m p.id
      else slotIssue m p

/-- REUSE_HOLD_EXPIRE of a slot: its hold ends MAX_PKT_LIFE_US after the last transmission into the buffer (R500). -/
def holdOver (s : M8) (key : Nat) : Bool :=
  if key < 2 ^ 40 then match findPacked s key with
    | some p => !lifeHold s p
    | none => true
  else
    let n := (key - 2 ^ 40) / 65536
    let r := key % 65536
    match s.rem.recTx.find (r * 65536 + recOf s r n) with
    | some (t, m) => m == n || s.clk.now ≥ t + pktLife s
    | none => true

end Machine
end Sys2Proof
end

