-- ==== Sys2Proof/Machine/Commit.lean ====
section
/-!
DEFINITION. Sys2Proof/Machine/Commit.lean: the commit owner's work: notices, the commit record, the seal, late
substitution (R132, R164 to R173, R516, R543, R546), and what follows an acknowledged write.
-/
namespace Sys2Proof
namespace Machine

/-- SLOT_DONE_RECEIVE: a notice of the loaded job for a rank this member owns is recorded (R165, R166); one for a sealed
step is a duplicate when its term is the one recorded. -/
def slotDone (m : M8) (src : Nat) (b : Bytes) : M8 :=
  let r := leField b 14 2
  let n := leField b 8 6
  let k := leField b 16 4
  if b.length ≠ 40 || leField b 0 1 ≠ 1 || !jobLoaded m || leField b 4 4 ≠ jobTag m || !ownsRank m r || !isTarget m n ||
      k ≥ (rankOf m r).slots || m.grp.fenced then m
  else
    let (bad, m) := recordSlot m n r k (leField b 28 8) (leField b 1 1) (leField b 20 6) src (bit (leField b 2 1) 0)
    termConflict m bad r

/-- SLOT_DONE_RECEIVE. -/
def execSlotDoneReceive (src : Nat) (payload : Bytes) (s : State) : Out := live s fun m => slotDone m src payload

/-! ### The commit record (R168 to R171) -/

/-- Has the commit window of target n opened (R168)? -/
def commitOpened (s : M8) (n : Nat) : Bool := s.pav.wins.any fun r => r.target == n && (windowOf s r.idx).any fun v => v.kind == 3

/-- Is the commit of the step before n sealed for rank r (R58, R168)? -/
def prevSealed (s : M8) (n r : Nat) : Bool := n ≤ s.job.jr.firstStep || sealedTo s (n - 1) r

/-- Exception entries written: at most EXC_MAX (R171). -/
def excWritten (s : M8) (a : Assembly) : List (Nat × Nat × Nat) := a.exc.take (rankOf s a.rank).excMax

/-- The exception entries' bytes (R171). -/
def excBytes (s : M8) (a : Assembly) : Bytes :=
  (excWritten s a).flatMap fun e => natLe 4 e.1 ++ natLe 1 e.2.1 ++ zeros 1 ++ natLe 6 e.2.2 ++ zeros 4

/-- The SEAL word (R170). -/
def sealWord (s : M8) (n : Nat) : Bytes := natLe 6 n ++ natLe 2 (jobTag s)

/-- The FLAGS of a record (R170). -/
def recordFlags (s : M8) (a : Assembly) (quar subst : Nat) : Nat :=
  b2n (s.pav.src == 3) + b2n a.late * 2 + b2n (quar != 0) * 4 + b2n (subst != 0) * 8 + b2n a.mayVary * 16

/-- The 64-byte commit record (R170). -/
def commitRecord (s : M8) (a : Assembly) : Bytes :=
  let k := rankOf s a.rank
  let subst := (a.exc.filter fun e => e.2.1 == 0xF0).length
  let quar := a.exc.length - subst
  natLe 8 a.digest ++ natLe 6 a.step ++ natLe 2 a.rank ++ natLe 3 (epochOf s a.step) ++ natLe 1 k.layout ++
    natLe 4 (jobTag s) ++ natLe 4 k.slots ++ natLe 2 quar ++ natLe 2 subst ++ natLe 2 (recordFlags s a quar subst) ++
    natLe 2 s.job.jr.datasetId ++ natLe 4 (excWritten s a).length ++ natLe 8 s.clk.now ++ zeros 8 ++ sealWord s a.step

/-- Address of the record and of the exception list of step n (R170, R171). -/
def recordAddr (s : M8) (n r : Nat) : Nat := (rankOf s r).commitBase + recOf s r n * 64

def excAddr (s : M8) (n r : Nat) : Nat :=
  let k := rankOf s r
  k.commitBase + k.nrec * 64 + recOf s r n * k.excMax * 16

/-- A write into the commit area: over the connection, or into the readback area. Answers how many are not acknowledged
yet. -/
def commitWrite (s : M8) (r addr : Nat) (b : Bytes) (tag : WriteTag) : Nat × M8 :=
  let k := rankOf s r
  if b.isEmpty then (0, s)
  else if k.kind = 1 then (0, writeMem s (partBase s 1 + addr) b)
  else (1, remoteWrite s k.conn k.commitKey addr b tag)

/-! ### Seal intents (R516) -/

/-- The holder of a partner role, or of role i + 3 where that one's holder is declared faulted and not replaced (R516). -/
def partnerHolder (s : M8) (i d : Nat) : Nat :=
  let w := max 1 (groupW s)
  let h := roleHolder s ((i + d) % w)
  if h = 0xFFFF then roleHolder s ((i + 3) % w) else h

/-- To whom the intents of rank r go. -/
def intentHolders (s : M8) (r : Nat) : List Nat :=
  match roleOfAddr s (memberAt s r) with
  | some i => ([partnerHolder s i 1, partnerHolder s i 2].filter fun a => a != ownAddr s && a != 0xFFFF).eraseDups
  | none => []

/-- The payloads of SEAL_INTENT: 283 entries a part (R516, R518). -/
def intentParts (s : M8) (role : Nat) (record exc : Bytes) : List Bytes :=
  let n := max 1 (ceilDiv exc.length (283 * 16))
  (List.range n).map fun i => recoveryHeader s 6 role ++ natLe 2 i ++ natLe 2 n ++ record ++ ((exc.drop (i * 4528)).take 4528)

/-- Send a recovery message that awaits an answer: it is sent again every 100 us until the answer arrives (R518). kind and
key name the answer. -/
def sendAwait (s : M8) (kind key dst : Nat) (payload : Bytes) : M8 :=
  let a : AwaitMsg := { kind := kind, key := key, dst := dst, payload := payload, time := s.clk.now }
  let s := { s with grp := { s.grp with
    awaits := s.grp.awaits.filter (fun x => !(x.kind == kind && x.key == key && x.dst == dst)) ++ [a] } }
  sendFrame s dst 0x4 0 payload

/-- What names an INTENT_ACK: step, rank and part. -/
def intentKey (n r part : Nat) : Nat := n * 2 ^ 32 + r * 2 ^ 16 + part

/-- Send the intents of a commit (R516). -/
def sendIntents (s : M8) (a : Assembly) : M8 :=
  let hs := intentHolders s a.rank
  let role := (roleOfAddr s (memberAt s a.rank)).getD 0xFFFF
  let parts := intentParts s role a.record a.excData
  let s := { s with grp := { s.grp with
    acks := { step := a.step, rank := a.rank, parts := parts.length, holders := hs } ::
      s.grp.acks.filter fun x => !(x.step == a.step && x.rank == a.rank) } }
  hs.foldl (fun s h => (List.range parts.length).foldl (fun s i =>
    sendAwait s 6 (intentKey a.step a.rank i) h (parts.getD i [])) s) s

/-- Have both holders answered every part? -/
def intentsAcked (s : M8) (n r : Nat) : Bool :=
  match s.grp.acks.find? fun x => x.step == n && x.rank == r with
  | some x => x.holders.all fun h => (List.range x.parts).all fun i => x.acks.contains (h, i)
  | none => false

/-! ### Parts 1 and 2: the exceptions and the body (R168, R169) -/

/-- Is the commit record slot of step n held, since packets of step n - NREC may still live (R500)? -/
def recordHeld (s : M8) (n r : Nat) : Bool :=
  match s.rem.recTx.find (r * 65536 + recOf s r n) with
  | some (t, m) => m != n && s.clk.now < t + pktLife s
  | none => false

/-- May the commit of step n to rank r be issued (R58, R129, R166, R168, R522)? -/
def commitReady (s : M8) (n r : Nat) : Bool :=
  let a := getAsm s n r
  mayWrite s && ownsRank s r && targetMine s n r && isTarget s n && (missingSlots s n r).isEmpty && commitOpened s n && prevSealed s n r &&
    !a.bodyDone && !a.conflict && !sealedTo s n r

/-- COMMIT_ISSUE: the exception entries and the body are written and fenced, and the intents go out (R168 to R171, R516);
a record slot whose last packets may still live is held (R500). -/
def commitIssue (m : M8) (n r : Nat) : M8 :=
  let key := 2 ^ 40 + n * 65536 + r
  if recordHeld m n r then noteHold m key
  else
    let m := unhold m key
    let a := getAsm m n r
    let a := { a with bodyDone := true, record := commitRecord m a, excData := excBytes m a }
    let m := setAsm m a
    let (i, m) := commitWrite m r (excAddr m n r) a.excData (.body n r)
    let (j, m) := commitWrite m r (recordAddr m n r) (a.record.take 56) (.body n r)
    let a := getAsm m n r
    sendIntents (setAsm m { a with fencePending := a.fencePending + i + j }) a

/-- COMMIT_ISSUE. -/
def execCommitIssue (n r : Nat) (s : State) : Out := live s fun m => if commitReady m n r then commitIssue m n r else m

/-! ### Part 3: the seal (R58, R169, R516, R522, R543) -/

/-- The hub that issues the seal of a rank: that of its connection's first port, Hub 0 for readback. -/
def sealHub (s : M8) (r : Nat) : Nat :=
  if (rankOf s r).kind = 1 then 0 else (pathInfo s (rankOf s r).conn 0).port / 8

/-- Does R543 let the hub issue a seal? -/
def sealAllowed (s : M8) (r : Nat) : Bool :=
  odNat s Od.SEAL_HOLD = 0 && !s.safe.gates.get false (sealHub s r) && !s.safe.reacting

/-- A stand-in issues no seal earlier than HB_MISS * HB_US after its ROLE_ACK (R522). -/
def standinWaits (s : M8) : Bool :=
  s.grp.takenRole.isSome && s.clk.now < s.grp.ackAt + odNat s Od.HB_MISS * odNat s Od.HB_US * 1000

/-- LAST_COMMITTED: the lowest last-committed step among the owned ranks (R178). -/
def lastCommitted (s : M8) : M8 :=
  let own := ownedRanks s
  if own.all fun r => ((getRank s r).sealedTo).isSome then
    odSet s Od.LAST_COMMITTED (lowestUnsealed s - 1)
  else s

/-- JOB_DONE: a running job whose last target this owner has committed on all its ranks is Done (R144). -/
def jobDone (s : M8) : M8 :=
  if jobState s = 3 && !(ownedRanks s).isEmpty && lowestUnsealed s > lastTarget s then enterJobState s 5 else s

/-- The member tells the device that takes its role over of a seal it issues meanwhile (R531). -/
def markToPeer (s : M8) (n r : Nat) : M8 :=
  match s.grp.swap with
  | some w =>
    if w.giving && w.peer != 0xFFFF && roleOfAddr s (memberAt s r) == some w.role then
      sendFrame s w.peer 0x4 0 (recoveryHeader s 8 w.role ++ natLe 2 1 ++ zeros 2 ++ natLe 2 r ++ natLe 6 n)
    else s
  | none => s

/-- The seal is issued: one flagged 8-byte write; the step is committed to the rank (R56, R144, R169, R170, R178). -/
def sealIssue (m : M8) (n r : Nat) : M8 :=
  let a := getAsm m n r
  let m := setAsm m { a with sealed := true }
  let m := setRank m r { getRank m r with sealedTo := some n }
  let m := lastCommitted (odInc m Od.COMMITS)
  let m := { m with safe := { m.safe with watches := m.safe.watches.filter fun w => !(w.step == n && w.rank == r) } }
  let m := (commitWrite m r (recordAddr m n r + 56) (a.record.drop 56) (.seal n r)).2
  let m := if m.dbg.recovery && !m.grp.rollback && n ≥ m.grp.restart then { m with dbg := { m.dbg with recovery := false } } else m
  jobDone (markToPeer m n r)

/-- A commit a stand-in still has to write again for rank r before any other seal (R527). -/
def rewriteBefore (s : M8) (n r : Nat) : Bool := s.job.asm.any fun a => a.rewrite && a.rank == r && a.step < n

/-- Is the fence set of a seal complete, and are its other conditions met (R56 to R58, R169, R516)? -/
def sealReady (s : M8) (n r : Nat) : Bool :=
  let a := getAsm s n r
  mayWrite s && ownsRank s r && a.bodyDone && a.fencePending = 0 && !a.conflict && !a.refused && !standinWaits s &&
    !rewriteBefore s n r &&
    (a.rewrite || (!a.sealed && prevSealed s n r && !sealedTo s n r && intentsAcked s n r))

/-- A stand-in writes the seal of an intended step again: no second commit (R516, R527). -/
def sealAgain (m : M8) (n r : Nat) : M8 :=
  let a := getAsm m n r
  (commitWrite (setAsm m { a with sealed := true, rewrite := false }) r (recordAddr m n r + 56) (a.record.drop 56) (.seal n r)).2

/-- SEAL_ISSUE: refused, and not queued, under R543. -/
def execSealIssue (n r : Nat) (s : State) : Out :=
  live s fun m =>
    if !sealReady m n r then m
    else if sealAllowed m r then (if (getAsm m n r).rewrite then sealAgain m n r else sealIssue m n r)
    else setAsm m { getAsm m n r with refused := true }

/-! ### Late substitution (R132, R173) -/

/-- The batch offset of a (rank, slot) (R140). -/
def offsetOfSlot (s : M8) (r k : Nat) : Nat :=
  let j := s.job.jr
  if j.slotmapMode = 0 then (j.ranks.take r).foldl (fun n e => n + e.slots) k
  else (j.slotMap.findIdx? fun p => p == (r, k)).getD 0

/-- The sample a slot of step n carries. -/
def sampleOfSlot (s : M8) (n r k : Nat) : Nat :=
  match locate s n with
  | some (epoch, base) => jobQuadrille s epoch (base + offsetOfSlot s r k)
  | none => 0

/-- What a home member answers to CANCEL, and remembers (R173): a write that has not started never will. -/
def cancelAnswer (s : M8) (n r k : Nat) : Bool × M8 :=
  let p? := s.job.packed.find? fun p => p.step == n && p.rank == r && p.slot == k
  if p?.any fun p => p.issued then (true, s)
  else
    let s := if neverWritten s n r k then s else modJob s fun j => { j with never := (n, r, k) :: j.never }
    match p? with
    | none => (false, s)
    | some p =>
      let s := match p.hold with
        | some (hub, h, owner) =>
          let s := modFab s fun f => { f with fanouts := f.fanouts.filter fun g => g.id != p.id }
          (List.range (max 1 (fanoutPorts s p.rank).length)).foldl (fun s _ => giveHold s hub 0 h owner) s
        | none => s
      let s := dropPacked s p.id
      (false, if p.req = 0 then s else placeAcked (placeDone s p.tile p.req) p.tile p.req)

/-- The owner substitutes a slot: its own most recently packed sample of the layout, or a fill (R173). -/
def substitute (s : M8) (n r k : Nat) : M8 :=
  let lay := (rankOf s r).layout
  let (bytes, sample) := match s.job.lastPacked.find lay with
    | some e => e
    | none => (fillBytes s r, 0xFFFFFFFFFFFF)
  odInc (addPacked s {
    step := n, rank := r, slot := k, sample := sample, mayVary := true, reason := 0xF0,
    term := slotTerm n r k (epochOf s n) lay bytes, data := bytes }) Od.SUBSTITUTED

/-- A CANCEL_ACK for a slot the owner cancelled (R173). -/
def cancelAcked (s : M8) (n r k : Nat) (inFlight : Bool) : M8 :=
  if !(s.job.cancels.any fun c => c.step == n && c.rank == r && c.slot == k) then s else
  let s := modJob s fun j => { j with cancels := j.cancels.filter fun c => !(c.step == n && c.rank == r && c.slot == k) }
  let a := getAsm s n r
  if inFlight then setAsm s { a with inFlight := k :: a.inFlight }
  else if a.terms.has k then s
  else substitute (setAsm s { a with cancelled := k :: a.cancelled }) n r k

/-- Send CANCEL for one missing slot to its sample's home (R173); the owner's own is answered at once. -/
def sendCancel (s : M8) (n r k : Nat) : M8 :=
  let sample := sampleOfSlot s n r k
  let home := sampleHome s sample
  let dst := holderOf s home
  let s := modJob s fun j => { j with
    cancels := j.cancels ++ [{ step := n, rank := r, slot := k, home := home, time := s.clk.now }] }
  if actsFor s home then
    let (f, s) := cancelAnswer s n r k
    cancelAcked s n r k f
  else sendFrame s dst 0x5 (k % 65536) (notice 2 0 0 (jobTag s) n r k sample 0)

/-- Has the deadline of target n plus LATE_SUBST_GRACE passed (R132)? -/
def graceOver (s : M8) (n : Nat) : Bool :=
  s.pav.passedDeadlines.any fun d => d.2 == n && (windowOf s d.1).any fun w =>
    w.kind == 3 && (s.pav.tb : Int) ≥ closePoint w n + odNat s Od.LATE_SUBST_GRACE

/-- LATE_SUBST_START (R132, R173): the program carries the substitution for the layouts it has registered (R207). -/
def execLateSubstStart (n : Nat) (s : State) : Out :=
  live s fun m =>
    if odNat m Od.LATE_SUBST_GRACE = 0 || m.job.substLayouts.isEmpty || !mayWrite m || !graceOver m n then m
    else (ownedRanks m).foldl (fun m r =>
      let a := getAsm m n r
      if a.cancelSent || sealedTo m n r || !m.job.substLayouts.contains (rankOf m r).layout then m
      else (missingSlots m n r).foldl (fun m k => sendCancel m n r k) (setAsm m { a with cancelSent := true })) m

/-- Is a notice of the loaded job (R166)? -/
def noticeOk (m : M8) (b : Bytes) (type : Nat) : Bool :=
  b.length == 40 && leField b 0 1 == type && jobLoaded m && leField b 4 4 == jobTag m

/-- CANCEL_RECEIVE (R173): bit 0 of the answer's FLAGS is IN_FLIGHT (R165). -/
def execCancelReceive (src : Nat) (payload : Bytes) (s : State) : Out :=
  live s fun m =>
    if !noticeOk m payload 2 || m.grp.fenced then m
    else
      let n := leField payload 8 6
      let r := leField payload 14 2
      let k := leField payload 16 4
      let (f, m) := cancelAnswer m n r k
      sendFrame m src 0x5 (k % 65536) (notice 3 0 (b2n f) (jobTag m) n r k (leField payload 20 6) 0)

/-- CANCEL_ACK_RECEIVE (R173). -/
def execCancelAckReceive (_src : Nat) (payload : Bytes) (s : State) : Out :=
  live s fun m =>
    if noticeOk m payload 3 then
      cancelAcked m (leField payload 8 6) (leField payload 14 2) (leField payload 16 4) (bit (leField payload 2 1) 0)
    else m

/-! ### Acknowledged writes (R55, R205, R378) -/

/-- A remote write is acknowledged whole. -/
def writeDone (s : M8) (tag : WriteTag) : M8 :=
  match tag with
  | .slot id => slotAcked s id
  | .body n r =>
    let a := getAsm s n r
    setAsm s { a with fencePending := a.fencePending - 1 }
  | .seal _ _ => s
  | .reply id => { s with hubs := { s.hubs with replies := s.hubs.replies.map fun p => if p.id = id then { p with waits := p.waits - 1 } else p } }
  | .replySeq _ => s

def writesDone (s : M8) (tags : List WriteTag) : M8 := tags.foldl writeDone s

/-- FLAGGED_WRITE_ISSUE: a flagged write is issued once every fence in its set has completed (R56): a grammar reply's SEQ
word after its body (R378). A seal's is SEAL_ISSUE. -/
def execFlaggedWriteIssue (id : Nat) (s : State) : Out :=
  live s fun m =>
    match m.hubs.replies.find? fun p => p.id == id with
    | some p =>
      if p.waits = 0 then
        let m := { m with hubs := { m.hubs with replies := m.hubs.replies.filter fun q => q.id != id } }
        remoteWrite m p.conn p.key p.addr p.seq (.replySeq id)
      else m
    | none => m

end Machine
end Sys2Proof
end

