-- ==== Sys2Proof/Machine/JobOps.lean ====
section
/-!
DEFINITION. Sys2Proof/Machine/JobOps.lean: loading, stopping and unloading a job (R138 to R146, R216 to R220, R330, R347,
R428, R496, R501, R645) and the audit (R291 to R297).
-/
namespace Sys2Proof
namespace Machine

/-! ### Load limits that need the part's tables (R219) -/

/-- Limit 0x02: FW_IFACE equals FW_IFACE_VERSION. -/
def limit02 (s : M8) (b : Bytes) : Option LoadFail := firstFail [(leField b 12 4 == odNat s Od.FW_IFACE_VERSION, ⟨2, 0xFF, 12⟩)]

/-- Where in its bytes a cache-point record fails the checks of R320 that need no tensor. -/
def cachePointFault (e : Bytes) : Option Nat :=
  firstFail [(decide (leField e 12 1 ≤ 2), 12), (decide (1 ≤ leField e 13 1), 13),
    ((List.range 4).all fun k => (leField e 14 2 >>> (4 * k)) % 16 ≤ 7, 14), ((e.drop 16).all (· == 0#8), 16)]

/-- Limit 0x0F (R157, R320; assumption log 113). -/
def limit0F (b : Bytes) : Option LoadFail :=
  let n := leField b 97 1
  let sec := (secsOf b 8 0xFF).headD {}
  let proof := oneSec b 0x0B 0xFF
  if sec.length ≠ 32 * n then some ⟨0x0F, 0xFF, sec.offset⟩ else firstOver (List.range n) fun k =>
    if Config.proofAttests proof k then
      (cachePointFault (((oneSec b 8 0xFF).drop (32 * k)).take 32)).map fun j => ⟨0x0F, 0xFF, sec.offset + 32 * k + j⟩
    else some ⟨0x0F, 0xFF, ((secsOf b 0x0B 0xFF).headD {}).offset⟩

/-- Limit 0x10: every descriptor of a descriptor index passes R199, every QUAR R197 (assumption log 113). -/
def limit10 (b : Bytes) : Option LoadFail :=
  let streams := (streamsOf (leField b 97 1) (oneSec b 6 0xFF)).map Prod.snd
  match firstOver (maskTiles (leField b 104 8)) (fun t =>
    let x := (secsOf b 9 t).headD {}
    let sram := (secsOf b 3 t).headD {}
    if x.length % 4 ≠ 0 then some ⟨0x10, t, x.offset + x.length / 4 * 4⟩ else firstOver (List.range (x.length / 4)) fun k =>
      let off := leField (oneSec b 9 t) (4 * k) 4
      if !(off % 16 = 0 && off + 128 ≤ 0xFC0000) then some ⟨0x10, t, x.offset + 4 * k⟩
      else if descOk streams (slice (oneSec b 3 t) off 128) then none
      else some ⟨0x10, t, if off < sram.length then sram.offset + off else x.offset + 4 * k⟩) with
  | some f => some f
  | none => limit10Quar b

/-- Limit 0x11: every layout is valid. -/
def limit11 (b : Bytes) : Option LoadFail :=
  let x := (secsOf b 7 0xFF).headD {}
  if x.length ≠ 64 * leField b 98 2 then some ⟨0x11, 0xFF, x.offset⟩
  else firstOver (List.range (leField b 98 2)) fun k =>
    (layoutFault (slice (oneSec b 7 0xFF) (64 * k) 64)).map fun j => ⟨0x11, 0xFF, x.offset + 64 * k + j⟩

/-- Limit 0x13: SCHEMA_HASH matches the dataset's. -/
def limit13 (b : Bytes) : Option LoadFail :=
  firstFail [(slice b 48 32 == Config.datasetSchema (oneSec b 0x0A 0xFF), ⟨0x13, 0xFF, 48⟩)]

/-- The limits in their order; the first that fails refuses the load (R219). -/
def loadLimits (s : M8) (b : Bytes) : Option LoadFail :=
  firstOver [limit01, limit02 s, limit03 s, limit04, limit05, limit06, limit07, limit08, limit09, limit0A, limit0B, limit0C,
    limit0D, limit0E, limit0F, limit10, limit11, limit12, limit13] fun f => f b

/-- The package-wide tables of an image; layouts are 64 bytes each (R265). -/
def imageTables (b : Bytes) : Image := imageOf (sha256 b) b fun n x => (List.range n).map fun k => slice x (64 * k) 64

/-! ### The job record's checks (R141, R496) -/

/-- Bytes of the buffers and of the commit area of a rank (R496). -/
def bufRange (k : Rank) : Nat := (k.nbuf - 1) * k.bufStride + k.slots * k.slotStride

def commitRange (k : Rank) : Nat := k.nrec * 64 + k.nrec * k.excMax * 16

/-- The offset in staging where the readback area begins, and the size of staging (R330). -/
def readbackFrom (s : M8) : Nat := odInForce s Od.PART_STAGING - odInForce s Od.READBACK_BYTES

def inReadback (s : M8) (off len : Nat) : Bool := readbackFrom s ≤ off && off + len ≤ odInForce s Od.PART_STAGING

/-- Where the credit area stands in staging when a rank is of KIND 1: above every region the rank entries name, on a
64-byte boundary (R417; assumption log 36). -/
def creditOff (s : M8) (r : JobRec) : Nat :=
  let ends := (r.ranks.filter fun k => k.kind == 1).foldl (fun n k =>
    max n (max (k.bufBase + bufRange k) (k.commitBase + commitRange k))) (readbackFrom s)
  roundUp ends 64

/-- Code 0x0009: KIND 1 regions, and the credit area, lie inside the readback area (R141, R330, R417). -/
def readbackOk (s : M8) (r : JobRec) : Bool :=
  let ks := r.ranks.filter fun k => k.kind == 1
  ks.isEmpty || (ks.all (fun k => inReadback s k.bufBase (bufRange k) && inReadback s k.commitBase (commitRange k)) &&
    inReadback s (creditOff s r) (8 * r.ranks.length))

/-- Code 0x0012: the connection of a KIND 0 rank has a record with enough paths on distinct engines (R496). -/
def connOk (s : M8) (k : Rank) : Bool :=
  k.kind == 1 || (connValid s k.conn &&
    ((List.range (connInfo s k.conn).npaths).map fun j => (pathInfo s k.conn j).port / 4).eraseDups.length ≥ odNat s Od.CONN_MIN_PATHS)

/-- Code 0x0013: both ranges of a KIND 0 rank are covered by grants (R496, R497). -/
def grantsOk (s : M8) (k : Rank) : Bool :=
  k.kind == 1 || (granted s k.conn k.bufKey k.bufBase (bufRange k) 1 &&
    granted s k.conn k.commitKey k.commitBase (commitRange k) 3)

/-- The first code of R141 and R496 a job record fails with against its image; 0 for none. rec is the record's bytes, b the
image's. Code 0x000D is the load limits' (R219). -/
def jobCode (s : M8) (b rec_ : Bytes) : Nat × Option LoadFail :=
  let r := jobRecOf rec_
  let img := imageTables b
  let bytesOf (k : Rank) : Nat := leField (img.layouts.getD k.layout []) 40 4
  if r.programHash ≠ sha256 b then (1, none)
  else if !(versionHeld s.fl r.datasetVersion) then (2, none)
  else if !jobRecOk rec_ then (8, none)
  else if slotSum r ≠ r.batch then (3, none)
  else if !slotMapOk r then (4, none)
  else match loadLimits s b with
    | some f => (0x0D, some f)
    | none =>
      if r.ranks.any fun k => k.layout ≥ img.layouts.length then (8, none)
      else if r.ranks.any fun k => k.slotStride < bytesOf k || k.bufStride < k.slots * k.slotStride then (5, none)
      else if r.ranks.any fun k => k.credit == 0 && k.nbuf ≤ maxDeliveryOff img then (6, none)
      else if r.ranks.any fun k => !isPow2 k.nrec || k.nrec < k.nbuf then (7, none)
      else if !readbackOk s r then (9, none)
      else if r.batch > Config.datasetCount img.datasetLink then (0x0C, none)
      else if r.ranks.any fun k => !connOk s k then (0x12, none)
      else if r.ranks.any fun k => !grantsOk s k then (0x13, none)
      else (0, none)

/-- The codes an audit's image and original record can be refused with: no transport is used (R291, R293). -/
def auditCode (s : M8) (b rec_ : Bytes) : Nat × Option LoadFail :=
  let h := rec_.take 64
  let j := rec_.drop 64
  let mode := leField h 0 1
  let flags := leField h 1 1
  let headOk := rec_.length ≥ 64 && mode ≤ 2 && flags < 8 && leField h 3 1 == 0 && leField h 19 1 == 0 && leField h 27 1 == 0 &&
    leField h 52 12 == 0 && !(mode == 2 && bit flags 0) &&
    (!bit flags 0 || (1 ≤ leField h 48 4 && leField h 48 4 ≤ 16777216))
  let r := jobRecOf j
  if !headOk || !jobRecOk j then (8, none)
  else if r.programHash ≠ sha256 b then (1, none)
  else if !(versionHeld s.fl r.datasetVersion) then (2, none)
  else if slotSum r ≠ r.batch then (3, none)
  else if !slotMapOk r then (4, none)
  else match loadLimits s b with
    | some f => (0x0D, some f)
    | none =>
      if r.ranks.any fun k => k.layout ≥ (imageTables b).layouts.length then (8, none)
      else if r.batch > Config.datasetCount (oneSec b 0x0A 0xFF) then (0x0C, none)
      else (0, none)

/-- A refused load: Failed, with its code; no tile state changes (R141, R219). -/
def refuseLoad (s : M8) (code : Nat) (f : Option LoadFail) : M8 :=
  let s := odSet (enterJobState s 6) Od.JOB_FAIL code
  match f with
  | some f => odSet (odSet (odSet s Od.LOAD_LIMIT f.limit) Od.LOAD_TILE f.tile) Od.LOAD_OFFSET f.offset
  | none => s

/-! ### Loading (R142, R146, R217, R220, R487, R499, R501) -/

/-- Load one tile from the image: its SRAM, sync objects, instructions and threads (R217, R220). -/
def loadTile (s : M8) (b : Bytes) (t : Nat) : M8 :=
  let base := 0x020000000000 + t * 0x1000000
  let s := writeMem (clearMem s base 0xFC0000) base (oneSec b 3 t)
  let objs := syncTable b t
  let s := (List.range 4032).foldl (fun s k => match objs[k]? with
    | some o => setSync s (t * 4096 + k) o
    | none => if s.sync.has (t * 4096 + k) then setSync s (t * 4096 + k) {} else s) s
  let code := codeWords b t
  let s := modTile s t fun x => { emptyTile x with
    istore := (List.range code.length).foldl (fun m k => m.set 0 k (code.getD k 0)) [], ilen := code.length,
    initThreads := threadTable b t, prog := code.length * 8 }
  enterTileSt s t .loaded

/-- The working positions of the cable map, ascending; without a map, this device alone (R164; assumption log 39). -/
def jobMembers (s : M8) : List Nat :=
  let ps := (positions s).filter fun p => !p.spare
  if ps.isEmpty then [ownAddr s] else (ps.foldl (fun l p => insertPos p l) []).map Position.addr

/-- LIMIT and RESERVE of the fetch and pack owners, from the proof record (R337). -/
def setOwners (s : M8) (img : Image) : M8 :=
  (List.range 4).foldl (fun s hub => (List.range img.streams.length).foldl (fun s k =>
    [0x80 + k, 0xC0 + k].foldl (fun s o =>
      let x := getPool s hub 0
      let c := Config.proofOwner img.proof o
      setPool s hub 0 { x with cfg := x.cfg.set {} o { limit := c.1 % 2 ^ 24, reserve := c.2 % 2 ^ 24 } }) s) s) s

/-- What a job and an audit have in common: the tables, the tiles, the counters that start with the job (R290). -/
def installImage (s : M8) (b rec_ : Bytes) : M8 :=
  let img := imageTables b
  let r := jobRecOf rec_
  let count := Config.datasetCount img.datasetLink
  let spe := stepsPerEpoch count r.batch
  let s := { s with job := { img := img, jr := r, loaded := true, layoutHash := layoutHash rec_, sampleCount := count,
                             members := jobMembers s, nextId := s.job.nextId, quarLog := s.job.quarLog, imgBytes := b } }
  let s := odSet (odSet (odSet s Od.JOB_ID (jobIdOf rec_)) Od.STEPS_PER_EPOCH spe) Od.LAST_STEP
    (r.firstStep + r.epochs * spe - 1)
  let s := odSet (odSet (odSet s Od.JOB_LEAD img.lead) Od.JOB_MIN_PERIOD_NS img.minPeriod) Od.JOB_FAIL 0
  let s := odSet (odSet (odSet s Od.LOAD_LIMIT 0) Od.LOAD_TILE 0) Od.LOAD_OFFSET 0
  let shares := Config.proofShares img.proof
  let margin := (img.windows.filter fun w => w.valid && w.kind == 3).foldl (fun (n : Option Nat) w =>
    let d := (closePoint w 0 - openPoint w 0).toNat
    some (match n with
      | some m => min m d
      | none => d)) none
  let s := odSet (odSet (odSet s Od.SHARE_NS_EC shares.1) Od.SHARE_NS_OWN shares.2) Od.LEAD_MARGIN_PU (margin.getD 0)
  let s := [Od.REFRESH_WAIT_NS, Od.LINK_REPLAYS, Od.RDMA_RETRANSMITS, Od.MEDIA_RETRIES, Od.QDR_PASSES].foldl (odSet · · 0) s
  let s := odPut s Od.AUDIT_OUT (.bytes [])
  (maskTiles img.tileMask).foldl (fun s t => loadTile s b t) (setOwners s img)

/-- A job's fencing, intents and replay start anew (R518, R552, R553). -/
def freshGroup (s : M8) : M8 :=
  let s := { s with grp := { s.grp with
    rbId := 0, fenced := false, loadAt := some s.clk.now, awaits := [], intents := [], acks := [], rollback := false, marks := [], pastFaults := [],
    lowSteps := [], hb := s.grp.hb.map fun p => (p.1, s.clk.now) } }
  if s.safe.faultN then s else odSet s Od.SAFETY_STATE (if s.safe.reacting then 1 else 0)

/-- The job enters Armed: Pavane listens, offsets are measured, the credit area and its key stand (R126, R144, R162, R487,
R501). -/
def armJob (s : M8) : M8 :=
  let area := if s.job.jr.ranks.any fun k => k.kind == 1 then partBase s 1 + creditOff s s.job.jr else Config.creditAreaAt
  let s := modJob s fun j => { j with creditArea := area }
  let s := modRem (odSet s Od.CREDIT_AREA area) fun r => { r with creditGen := (r.creditGen + 1) % 256, bufTx := [], recTx := [] }
  let s := { s with pav := { s.pav with armedAt := s.clk.now } }
  let src := odNat s Od.PKT_SOURCE
  let s := if src = 0xFFFF then s else beginOffset s src true
  let s := if s.grp.master = 0xFFFF || s.grp.master = ownAddr s then s else beginOffset s s.grp.master false
  enterJobState s 2

/-- A job load: accepted in Idle alone; it is loaded into Armed or refused (R141, R144, R219, R220, R428). -/
def jobLoad (s : M8) (image record_ : Bytes) : M8 :=
  if jobState s ≠ 0 then s else
  let s := enterJobState s 1
  let (code, f) := jobCode s image record_
  if code ≠ 0 then refuseLoad s code f
  else armJob (freshGroup (installImage s image record_))

/-! ### Audit (R291 to R296) -/

/-- The audit header of the loaded audit. -/
def auditMode (s : M8) : Nat := leField s.job.auditRec 0 1

/-- The (step, batch offset) an audit of MODE 0 or 1 names; none when the sample is not delivered (R292). -/
def auditTarget (s : M8) : Option (Nat × Nat) :=
  let h := s.job.auditRec
  let r := s.job.jr
  let spe := stepsPerEpoch s.job.sampleCount r.batch
  if auditMode s = 0 then
    (if (locate s (leField h 4 6)).isSome && leField h 12 4 < r.batch then some (leField h 4 6, leField h 12 4) else none)
  else
    let epoch := leField h 16 3
    let p := jobPosition s epoch (leField h 20 6)
    if epoch < r.firstEpoch || epoch ≥ r.firstEpoch + r.epochs || leField h 20 6 ≥ s.job.sampleCount || p ≥ spe * r.batch then none
    else some (r.firstStep + (epoch - r.firstEpoch) * spe + p / r.batch, p % r.batch)

/-- The (step, rank, slot) an audit computes: one slot, or every slot of a rank (R292). -/
def auditSlotsOf (s : M8) : Option (List (Nat × Nat × Nat)) :=
  if auditMode s = 2 then
    let n := leField s.job.auditRec 4 6
    let r := leField s.job.auditRec 10 2
    if (locate s n).isSome && r < s.job.jr.ranks.length then some ((List.range (rankOf s r).slots).map fun k => (n, r, k)) else none
  else (auditTarget s).map fun t => [(t.1, slotOf s.job.jr t.2)]

/-- The audit's result with a status (R294). -/
def auditResult (s : M8) (status reason value : Nat) (slotData : Bytes) : Bytes :=
  let h := s.job.auditRec
  let tgt := if auditMode s = 2 then some (leField h 4 6, 0) else auditTarget s
  let step := (tgt.getD (0, 0)).1
  let q := (tgt.getD (0, 0)).2
  let (rank, slot) := if auditMode s = 2 then (leField h 10 2, 0) else slotOf s.job.jr q
  let eb := (locate s step).getD (leField h 16 3, 0)
  let pos := if auditMode s = 2 then 0 else eb.2 + q
  let sample := if auditMode s = 2 then 0 else if auditMode s = 1 then leField h 20 6 else jobQuadrille s eb.1 pos
  let tap := if bit (leField h 1 1) 0 then leField h 48 4 else 0
  natLe 8 (odNat s Od.JOB_ID) ++ natLe 1 status ++ natLe 1 reason ++ natLe 2 rank ++ natLe 4 slot ++ natLe 6 step ++
    natLe 3 eb.1 ++ zeros 1 ++ natLe 6 sample ++ natLe 8 value ++ natLe 6 pos ++ zeros 2 ++ natLe 4 tap ++
    natLe 4 slotData.length ++ zeros 8 ++ (s.job.tapOut ++ zeros (tap - s.job.tapOut.length)).take tap ++ slotData

/-- The audit ends with a result (R294, R297). -/
def auditEnd (s : M8) (status reason value : Nat) (slotData : Bytes) : M8 :=
  odInc (odSet (odPut s Od.AUDIT_OUT (.bytes (auditResult s status reason value slotData))) Od.AUDIT_STATE 3) Od.AUDITS

/-- AUDIT_LOAD: accepted in Idle; the image is checked and loaded as for a job, the tiles are started, and the audit runs,
or ends at once with status 5 or 6 (R291, R292). JOB_STATE stays Idle but for a refused load (assumption log 40). -/
def auditLoad (s : M8) (image record_ : Bytes) : M8 :=
  if jobState s ≠ 0 || odNat s Od.AUDIT_STATE = 1 || odNat s Od.AUDIT_STATE = 2 then s else
  let s := odSet s Od.AUDIT_STATE 1
  let (code, f) := auditCode s image record_
  if code ≠ 0 then odSet (refuseLoad s code f) Od.AUDIT_STATE 0
  else
    let h := record_.take 64
    let s := installImage s image (record_.drop 64)
    let tap : Option (Nat × Nat × Nat) := if bit (leField h 1 1) 0 then
      let t := leField h 26 1
      some (t, 0x020000000000 + t * 0x1000000 + leField (oneSec image 9 t) (4 * leField h 28 4) 4, leField h 48 4) else none
    let s := modJob s fun j => { j with audit := true, auditRec := h, tap := tap }
    if bit (leField h 1 1) 2 && odNat s Od.JOB_ID ≠ leField h 40 8 then auditEnd s 6 0 0 []
    else match auditSlotsOf s with
      | none => auditEnd s 5 0 0 []
      | some _ => (maskTiles s.job.img.tileMask).foldl (fun s t => startTile s t) (odSet s Od.AUDIT_STATE 2)

/-- What has been packed for a slot of the audit. -/
def auditSlot (s : M8) (k : Nat) : Option (Nat × Bool × Nat × Bytes) :=
  (s.job.auditSlots.find? fun e => e.1 == k).map fun e => e.2

/-- A tile of the audit has trapped with a program-class cause (R294). -/
def auditTrap (s : M8) : Option Nat :=
  ((maskTiles s.job.img.tileMask).find? fun t => (getTile s t).trapValid && !(getTile s t).trapHw).map fun t => (getTile s t).trapCause

/-- AUDIT_COMPLETE: every slot the audit names has been packed, or a tile has trapped (R294). -/
def execAuditComplete (s : State) : Out :=
  live s fun m =>
    if odNat m Od.AUDIT_STATE ≠ 2 then m
    else match auditTrap m with
      | some cause => auditEnd m 7 cause 0 []
      | none => match auditSlotsOf m with
        | none => m
        | some ts =>
          let got := ts.map fun t => auditSlot m t.2.2
          if got.any Option.isNone then m
          else
            let es := got.filterMap id
            let value := es.foldl (fun n e => (n + e.2.2.1) % 2 ^ 64) 0
            let h := m.job.auditRec
            let reason := (es.find? fun e => e.1 != 0).elim 0 Prod.fst
            let status := if reason ≠ 0 then 3 else if es.any fun e => e.2.1 then 4
              else if !bit (leField h 1 1) 1 then 2 else if value = leField h 32 8 then 0 else 1
            auditEnd m status reason value (if auditMode m = 2 then [] else (es.headD (0, false, 0, [])).2.2.2)

/-! ### Stop, drain and unload (R144, R347, R428, R645) -/

/-- JOB_STOP: only a Running job (R144, R428). -/
def jobStop (s : M8) : M8 := if jobState s = 3 then enterJobState s 4 else s

/-- Is every target whose fetch window has opened committed on the owned ranks (R144)? -/
def drained (s : M8) : Bool :=
  s.pav.wins.all fun w => !((windowOf s w.idx).any fun v => v.kind == 0) || !isTarget s w.target ||
    (ownedRanks s).all fun r => sealedTo s w.target r

/-- What the end of a job leaves: buffered slots, windows, offsets, the deduplication table and, under CACHE_MODE 1, the
epoch cache go; cells still held return and are counted (R177, R347, R487, R645). -/
def clearJob (s : M8) : M8 :=
  let s := pavStop (returnLeaks s)
  let s := if odNat s Od.CACHE_MODE = 1 then emptyCache s else s
  let s := (List.range 4).foldl (fun s h => modCodec s h fun x => { x with
    hits := [], fills := [],
    lanes := x.lanes.filter fun l => match l.2 with
      | .fw _ _ _ _ _ _ _ _ _ => true
      | _ => false }) s
  let s := modFab s fun f => { f with offsets := [], fanouts := [] }
  let s := modRem s fun r => { r with
    msgs := r.msgs.filter fun m => match m.tag with
      | .reply _ => true
      | .replySeq _ => true
      | _ => false,
    lifeHeld := [] }
  let s := modRem s fun r => { r with paths := r.paths.map fun p =>
    (p.1, { p.2 with msgs := p.2.msgs.filter fun q => r.msgs.any fun m => m.id == q.msg }) }
  let s := { s with job := { nextId := s.job.nextId, quarLog := s.job.quarLog }, safe := { s.safe with held := [], watches := [] } }
  let s := { s with grp := { s.grp with awaits := [], intents := [], acks := [], rollback := false, marks := [], swap := none } }
  creditLine (odSet s Od.CREDIT_AREA 0)

/-- The tiles of the job are unloaded: requests their hubs still hold end with the job, dispatches with no item running are
discarded, and a tile with nothing running is empty at once (R215; assumption log 41). -/
def unloadTiles (s : M8) : M8 :=
  (maskTiles s.job.img.tileMask).foldl (fun s t =>
    if (getTile s t).st = .quarantined || (getTile s t).st = .empty then s else
    let s := modTile s t fun x => { x with reqQ := [], rfences := [], placesOut := [] }
    let x := getTile s t
    if !workInFlight x && x.rfences.isEmpty then enterTileSt (setTile s t (emptyTile x)) t .empty
    else modTile s t fun x => { x with
      busy := some .unload, dispQ := x.dispQ.filter fun d => x.cells.any fun c => c.2.disp == d.id }) s

/-- Is every tile of the job in state 0, or quarantined? -/
def tilesEmpty (s : M8) : Bool :=
  (maskTiles s.job.img.tileMask).all fun t => (getTile s t).st == .empty || (getTile s t).st == .quarantined

/-- DRAIN_COMPLETE: the job leaves Draining for Idle: the stop is complete (R144), and the tiles are unloaded with it. -/
def execDrainComplete (s : State) : Out :=
  live s fun m =>
    if jobState m = 4 && drained m then
      let m := unloadTiles m
      if tilesEmpty m then enterJobState (clearJob m) 0 else m
    else m

/-- May JOB_UNLOAD run: in Done or Failed, or after an audit has ended (R428)? -/
def unloadAllowed (s : M8) : Bool :=
  jobState s = 5 || jobState s = 6 || (s.job.audit && (odNat s Od.AUDIT_STATE = 3 || odNat s Od.AUDIT_STATE = 4))

/-- JOB_UNLOAD: the tiles are unloaded; once all are in state 0 the job is gone and the state Idle (R144, R428). -/
def jobUnload (s : M8) : M8 :=
  if !unloadAllowed s then s else
  let s := unloadTiles s
  if tilesEmpty s then enterJobState (clearJob s) 0 else s

/-- An audit stops within 1 ms when its device is called to stand in: status 8, no partial result, the tiles unloaded
(R296). -/
def auditAbort (s : M8) : M8 :=
  if s.job.audit && (odNat s Od.AUDIT_STATE = 1 || odNat s Od.AUDIT_STATE = 2) then
    let s := modJob s fun j => { j with tapOut := [], auditSlots := [] }
    let s := odPut (odSet s Od.AUDIT_STATE 4) Od.AUDIT_OUT (.bytes (auditResult s 8 0 0 []))
    let s := (maskTiles s.job.img.tileMask).foldl (fun s t =>
      if (getTile s t).st = .quarantined then s else enterTileSt (setTile s t (emptyTile (getTile s t))) t .empty) s
    enterJobState (clearJob s) 0
  else s

end Machine
end Sys2Proof
end

