-- ==== Sys2Proof/Machine/TextOps.lean ====
section
/-!
DEFINITION. Sys2Proof/Machine/TextOps.lean: tokens and vocabularies (R362 to R366), text jobs (R367 to R370), machines
(R372, R373) as functions of bytes.
-/
namespace Sys2Proof
namespace Machine

/-! ### Vocabularies (R362 to R365) -/

/-- The merge records of a vocabulary. -/
def vocabRecs (b : Bytes) : List (Nat × Nat) := (chunks 8 (b.drop 64)).map fun e => (leField e 0 4, leField e 4 4)

/-- V of a vocabulary; empty means 258 (R362, R381). -/
def vocabSize (b : Bytes) : Nat := if b.isEmpty then 258 else 258 + leField b 4 4

/-- The bytes of a token, given those of the merged tokens. -/
def tokenBytesIn (table : List Bytes) (t : Nat) : Bytes :=
  if t < 256 then [BitVec.ofNat 8 t] else if t < 258 then [] else table.getD (t - 258) []

/-- The bytes of every merged token, in order. -/
def tokenTable (b : Bytes) : List Bytes :=
  (vocabRecs b).foldl (fun t r => t ++ [tokenBytesIn t r.1 ++ tokenBytesIn t r.2]) []

/-- SLOTS of the merge table: the smallest power of two at or above 1.25 MERGES (R365). -/
def mergeSlots (n : Nat) : Nat := ((List.range 32).find? fun k => 5 * n ≤ 4 * 2 ^ k).elim 1 (2 ^ ·)

/-- Where the pairs stand in the merge table; none when one finds no free slot within 15 of its home (R365). -/
def mergePlaces (slots : Nat) : Nat → List (Nat × Nat) → Sparse (Nat × Nat × Nat) → Option (Sparse (Nat × Nat × Nat))
  | _, [], m => some m
  | k, p :: ps, m =>
    let home := crc64xz (natLe 4 p.1 ++ natLe 4 p.2)
    match ((List.range 16).map fun i => (home + i) % slots).find? fun i => !m.has i with
    | some i => mergePlaces slots (k + 1) ps (m.put i (p.1, p.2, 258 + k))
    | none => none

/-- The merge table of a vocabulary, as slots. -/
def mergeTable (b : Bytes) : Option (Sparse (Nat × Nat × Nat)) :=
  mergePlaces (mergeSlots (vocabRecs b).length) 0 (vocabRecs b) []

/-- A slot's 16 bytes (R365). -/
def mergeSlot (e : Nat × Nat × Nat) : Bytes := natLe 4 e.1 ++ natLe 4 e.2.1 ++ natLe 4 e.2.2 ++ natLe 1 1 ++ zeros 3

/-- Bytes of the text region of a hub (R331). -/
def textRegion (s : M8) : Nat := (56 - odInForce s Od.SRAM_POOL_MIB) * 0x100000

/-- Do the three structures fit the text region (R364, R365)? 16 MiB hold those of every vocabulary. -/
def textFits (s : M8) (b : Bytes) : Bool :=
  textRegion s ≥ 0x1000000 || 16 * mergeSlots (vocabRecs b).length + Config.textTables b ≤ textRegion s

/-- The first rule of R364 a vocabulary breaks, as TEXT_LOAD_FAIL names it; 0 for none. -/
def vocabRule (s : M8) (b : Bytes) : Nat :=
  let rs := vocabRecs b
  let lens := (tokenTable b).map List.length
  if b.length < 64 || leField b 0 2 ≠ 0x5642 || leField b 2 1 ≠ 1 || leField b 3 1 ≠ 0 || leField b 4 4 > 261886 ||
      leField b 40 24 ≠ 0 || b.length ≠ 64 + 8 * leField b 4 4 then 1
  else if !((List.range rs.length).all fun k => match rs[k]? with
      | some p => p.1 < 258 + k && p.2 < 258 + k && p.1 / 2 != 128 && p.2 / 2 != 128
      | none => false) then 2
  else if !(decide rs.Nodup) then 3
  else if lens.any (256 < ·) then 4
  else if lens.foldl (· + ·) 0 > 0x400000 then 5
  else if (mergeTable b).isNone then 6
  else if !textFits s b then 10
  else 0

/-! ### Tokenising (R366, R368) -/

/-- The BOUNDARY bit of a byte. -/
def boundary (vocab : Bytes) (b : Byte) : Bool := bit (leField vocab (8 + b.toNat / 8) 1) (b.toNat % 8)

/-- Cut a string before every boundary byte. -/
def cutBoundaries (isB : Byte → Bool) : Bytes → List Bytes
  | [] => []
  | b :: bs => match cutBoundaries isB bs with
    | [] => [[b]]
    | c :: cs => match c with
      | [] => [b] :: cs
      | d :: _ => if isB d then [b] :: c :: cs else (b :: c) :: cs

/-- The chunks of an input: a chunk with no boundary byte is split after every 4,096 bytes (R366). -/
def textChunks (isB : Byte → Bool) (b : Bytes) : List Bytes :=
  (cutBoundaries isB b).flatMap fun c =>
    if c.any isB then [c] else (List.range (ceilDiv c.length 4096)).map fun i => (c.drop (4096 * i)).take 4096

/-- The lowest rank among adjacent pairs. -/
def bestRank (rs : List (Nat × Nat)) : List Nat → Option Nat
  | a :: b :: t =>
    match rs.findIdx? (· == (a, b)), bestRank rs (b :: t) with
    | some i, some j => some (min i j)
    | some i, none => some i
    | none, r => r
  | _ => none

/-- One scan: the pair of rank best is replaced from the left (R366). fuel bounds the length. -/
def mergeScan (p : Nat × Nat) (tok : Nat) : Nat → List Nat → List Nat
  | 0, t => t
  | f + 1, a :: b :: t => if (a, b) = p then tok :: mergeScan p tok f t else a :: mergeScan p tok f (b :: t)
  | _ + 1, t => t

/-- tokenise_chunk (R366); fuel bounds the rounds. -/
def tokeniseChunk (rs : List (Nat × Nat)) : Nat → List Nat → List Nat
  | 0, t => t
  | f + 1, t => match bestRank rs t with
    | none => t
    | some i => tokeniseChunk rs f (mergeScan (rs.getD i (0, 0)) (258 + i) t.length t)

/-- What a lane ends with: status, consumed, output. -/
structure TextOut where
  status : Nat := 0
  consumed : Nat := 0
  out : Bytes := []

/-- Write chunk after chunk while the tokens fit (R368). -/
def tokeniseFrom (tok : Bytes → List Nat) (cap : Nat) : List Bytes → Nat → Bytes → TextOut
  | [], n, out => { consumed := n, out := out }
  | c :: cs, n, out =>
    let o := (tok c).flatMap (natLe 4)
    if out.length + o.length > cap then { status := 2, consumed := n, out := out }
    else tokeniseFrom tok cap cs (n + c.length) (out ++ o)

/-- A tokenise job (R366, R368). -/
def tokenise (vocab : Bytes) (merges bos eos : Bool) (cap : Nat) (b : Bytes) : TextOut :=
  let isB (x : Byte) : Bool := merges && !vocab.isEmpty && boundary vocab x
  let rs := if merges then vocabRecs vocab else []
  let tok (c : Bytes) : List Nat := tokeniseChunk rs c.length (c.map BitVec.toNat)
  if bos && cap < 4 then { status := 2 }
  else
    let r := tokeniseFrom tok cap (textChunks isB b) 0 (if bos then natLe 4 256 else [])
    if r.status = 0 && eos then
      if r.out.length + 4 > cap then { r with status := 2 } else { r with out := r.out ++ natLe 4 257 }
    else r

/-- A detokenise job over its input tokens (R369). -/
def detokeniseFrom (table : List Bytes) (v cap : Nat) : List Nat → Nat → Bytes → TextOut
  | [], n, out => { consumed := n, out := out }
  | t :: ts, n, out =>
    if t ≥ v then { status := 0x11, consumed := n, out := out }
    else
      let o := tokenBytesIn table t
      if out.length + o.length > cap then { status := 2, consumed := n, out := out }
      else detokeniseFrom table v cap ts (n + 1) (out ++ o)

/-! ### Machines (R372, R373, R376) -/

def machKind (b : Bytes) : Nat := leField b 3 1

def machStates (b : Bytes) : Nat := leField b 4 2

def machClasses (b : Bytes) : Nat := leField b 6 2

def machStart (b : Bytes) : Nat := leField b 8 2

/-- The transition word of a state and class. -/
def machWord (b : Bytes) (st cl : Nat) : Nat := leField b (272 + 4 * (st * machClasses b + cl)) 4

/-- Is a state accepting? -/
def machAccepts (b : Bytes) (st : Nat) : Bool :=
  bit (leField b (272 + 4 * machStates b * machClasses b + st / 8) 1) (st % 8)

/-- One pass of what reaches an accepting state. -/
def reachPass (b : Bytes) (good : List Bool) : List Bool :=
  (List.range (machStates b)).map fun st => good.getD st false || (List.range (machClasses b)).any fun cl =>
    let w := machWord b st cl
    bits w 26 24 == 1 && good.getD (w % 65536) false

/-- Passes until nothing changes; fuel bounds them. -/
def reachFix (b : Bytes) : Nat → List Bool → List Bool
  | 0, g => g
  | f + 1, g => let g' := reachPass b g; if g' = g then g else reachFix b f g'

/-- The first rule of R373 a machine breaks, as TEXT_LOAD_FAIL names it; 0 for none. -/
def machRule (b : Bytes) : Nat :=
  let n := machStates b
  let c := machClasses b
  if b.length < 272 || leField b 0 2 ≠ 0x4D47 || leField b 2 1 ≠ 1 || machKind b > 1 || n = 0 || c = 0 || c > 256 ||
      leField b 10 6 ≠ 0 || machStart b ≥ n || b.length ≠ 272 + 4 * n * c + ceilDiv n 8 || b.length > 0x1000000 ||
      ((b.drop 16).take 256).any fun x => x.toNat ≥ c then 7
  else if !((List.range n).all fun st => (List.range c).all fun cl =>
      let w := machWord b st cl
      w / 2 ^ 27 == 0 && bits w 26 24 ≤ (if machKind b = 0 then 1 else 3) && w % 65536 < n) then 8
  else if machKind b = 0 && !((reachFix b n ((List.range n).map (machAccepts b))).all id) then 9
  else 0

/-- A step of a machine: the new state and stack, or a dead byte (1) or a stack overflow (3) (R370, R372). -/
def machStep (b : Bytes) (st : Nat) (stack : List Nat) (x : Byte) : Except Nat (Nat × List Nat) :=
  let w := machWord b st (leField b (16 + x.toNat) 1)
  let sym := bits w 23 16
  let next := w % 65536
  match bits w 26 24 with
  | 1 => .ok (next, stack)
  | 2 => if stack.length ≥ 256 then .error 3 else .ok (next, sym :: stack)
  | 3 => match stack with
    | t :: r => if t = sym then .ok (next, r) else .error 1
    | [] => .error 1
  | _ => .error 1

/-- Run a machine over bytes. -/
def machRun (b : Bytes) : Bytes → Nat → List Nat → Except Nat (Nat × List Nat)
  | [], st, stack => .ok (st, stack)
  | x :: xs, st, stack => match machStep b st stack x with
    | .ok (st, stack) => machRun b xs st stack
    | .error e => .error e

/-- validate over bytes from position n: RESULT and OFFSET (R370). -/
def validateFrom (b : Bytes) : Bytes → Nat → Nat → List Nat → Nat × Nat
  | [], n, st, stack => if machAccepts b st && stack.isEmpty then (0, 0) else (2, n)
  | x :: xs, n, st, stack => match machStep b st stack x with
    | .ok (st, stack) => validateFrom b xs (n + 1) st stack
    | .error e => (e, n)

/-- validate (R370). -/
def validate (b data : Bytes) : Nat × Nat := validateFrom b data 0 (machStart b) []

/-- Is EOS admitted: an accepting state and an empty stack (R376)? -/
def eosOk (b : Bytes) (st : Nat) (stack : List Nat) : Bool := machAccepts b st && stack.isEmpty

/-- Apply one token of a vocabulary of V tokens: the new state, stack and FINISHED; none when it is rejected (R376). -/
def applyToken (b : Bytes) (table : List Bytes) (v st : Nat) (stack : List Nat) (fin : Bool) (t : Nat) :
    Option (Nat × List Nat × Bool) :=
  if fin || t = 256 || t ≥ v then none
  else if t = 257 then (if eosOk b st stack then some (st, stack, true) else none)
  else match machRun b (tokenBytesIn table t) st stack with
    | .ok (st, stack) => some (st, stack, false)
    | .error _ => none

/-- The mask of a context, ceil(V / 8) bytes rounded up to 64 (R378). -/
def grammarMask (b : Bytes) (table : List Bytes) (v st : Nat) (stack : List Nat) (fin : Bool) : Bytes :=
  (List.range (ceilDiv (ceilDiv v 8) 64 * 64)).map fun i => BitVec.ofNat 8 ((List.range 8).foldl (fun n k =>
    n + b2n (applyToken b table v st stack fin (8 * i + k)).isSome * 2 ^ k) 0)

end Machine
end Sys2Proof
end

