-- ==== Sys2Proof/Machine/Text.lean ====
section
/-!
DEFINITION. Sys2Proof/Machine/Text.lean: the text block of the hubs (R362 to R381): loading vocabularies and machines, text
jobs, and the grammar service.
-/
namespace Sys2Proof
namespace Machine

def getText (s : M8) (hub : Nat) : TextHub := s.hubs.text.get {} hub

def setText (s : M8) (hub : Nat) (x : TextHub) : M8 := { s with hubs := { s.hubs with text := s.hubs.text.set {} hub x } }

def modText (s : M8) (hub : Nat) (f : TextHub → TextHub) : M8 := setText s hub (f (getText s hub))

/-- The loaded vocabulary; empty for none. -/
def vocabOf (s : M8) : Bytes := odBytes s Od.VOCAB

/-- Dictionary key of MACHINE_k (R381). -/
def machineKey (k : Nat) : Nat := 0x208101 + k

/-- Machine k; empty when not loaded. -/
def machineOf (s : M8) (k : Nat) : Bytes := odBytes s (machineKey k)

/-- Is any context open, or any text job queued or running (R365)? -/
def textBusy (s : M8) : Bool := s.hubs.text.any fun p => !p.2.ctxs.isEmpty || !p.2.jobs.isEmpty || !p.2.lanes.isEmpty

/-- CTX_OPEN (R381). -/
def countCtx (s : M8) : M8 := odSet s Od.CTX_OPEN (s.hubs.text.foldl (fun n p => n + p.2.ctxs.length) 0)

/-- The merge table of a vocabulary is built at the start of the text region of every hub (R365). -/
def buildText (s : M8) (b : Bytes) : M8 :=
  [0, 1, 2, 3].foldl (fun s h =>
    let base := hubSram h + 0x400000
    let s := clearMem s base (textRegion s)
    ((mergeTable b).getD []).foldl (fun s e => writeMem s (base + 16 * e.1) (mergeSlot e.2)) s) s

/-- What an accepted vocabulary does: V, the structures (R362, R365). -/
def vocabEffect (s : M8) (b : Bytes) : M8 := buildText (odSet s Od.VOCAB_SIZE (vocabSize b)) b

/-- VOCAB_LOAD: a vocabulary written whole is checked and its structures are built, or the old one stands (R364, R365). An
empty one means none. -/
def vocabLoad (s : M8) (b : Bytes) : M8 :=
  if textBusy s then emit s (.fwStatus 0x08000021)
  else
    let rule := if b.isEmpty then 0 else vocabRule s b
    if rule ≠ 0 then emit (odSet s Od.TEXT_LOAD_FAIL rule) (.fwStatus 0x06090030)
    else vocabEffect (odPut (odSet s Od.TEXT_LOAD_FAIL 0) Od.VOCAB (.bytes b)) b

/-- VOCAB_LOAD. -/
def execVocabLoad (blob : Bytes) (s : State) : Out := live s fun m => vocabLoad m blob

/-- What an accepted machine does: every context on it closes (R373). -/
def machineEffect (s : M8) (k : Nat) : M8 :=
  countCtx ([0, 1, 2, 3].foldl (fun s h => modText s h fun x => { x with ctxs := x.ctxs.filter fun c => c.2.machine != k }) s)

/-- MACHINE_LOAD (R373). -/
def machineLoad (s : M8) (k : Nat) (b : Bytes) : M8 :=
  if k ≥ 16 then s else
  let rule := if b.isEmpty then 0 else machRule b
  if rule ≠ 0 then emit (odSet s Od.TEXT_LOAD_FAIL rule) (.fwStatus 0x06090030)
  else machineEffect (odPut (odSet s Od.TEXT_LOAD_FAIL 0) (machineKey k) (.bytes b)) k

/-- MACHINE_LOAD. -/
def execMachineLoad (machine : Nat) (blob : Bytes) (s : State) : Out := live s fun m => machineLoad m machine blob

/-! ### Text jobs (R367 to R371) -/

/-- Package address of a text register (R370). -/
def textReg (hub off : Nat) : Nat := 0x030001000000 + hub * 0x100000 + 0xB000 + off

/-- A write to TXT_SUBMIT (R370). -/
def txtSubmit (s : M8) (agent hub addr : Nat) : M8 :=
  let x := getText s hub
  let a := addr % 2 ^ 48
  if !isCore agent then addressError s agent (textReg hub 0)
  else if a % 64 ≠ 0 then setText s hub { x with align := true }
  else if x.jobs.length ≥ 64 then setText s hub { x with full := true }
  else if x.jobs.contains a || x.lanes.any fun l => l.2.desc == a then setText s hub { x with dup := true }
  else setText s hub { x with jobs := x.jobs ++ [a] }

/-- TXT_SUBMIT. -/
def execTxtSubmit (agent hub addr : Nat) (s : State) : Out := live s fun m => if hub < 4 then txtSubmit m agent hub addr else m

/-- TXT_STAT (R370). -/
def txtStat (x : TextHub) : Nat :=
  b2n x.doneBit + b2n x.align * 2 + b2n x.full * 4 + b2n x.dup * 8 + x.lanes.length * 2 ^ 8 + x.jobs.length * 2 ^ 16

/-- Is a text descriptor valid (R18, R367)? -/
def textDescOk (s : M8) (b : Bytes) : Bool :=
  let op := leField b 0 1
  let fl := leField b 1 1
  1 ≤ op && op ≤ 3 && fl < 16 && leField b 4 4 == 0 && leField b 41 3 == 0 && leField b 48 16 == 0 &&
  (op == 1 || (!bit fl 1 && !bit fl 2)) && (op != 3 || !bit fl 0) &&
  (if op = 3 then leField b 2 1 < 16 && leField b 24 8 == 0 && !(machineOf s (leField b 2 1)).isEmpty else leField b 2 1 == 0) &&
  (op == 2 || leField b 16 4 ≤ 0x1000000)

/-- The request of the grammar area served next: (queue, HEAD), the queues in turn (R376). -/
def nextGrammar (s : M8) (hub : Nat) : Option (Nat × Nat) :=
  let x := getText s hub
  (((List.range 64).map fun i => (x.rr + 1 + i) % 64).find? fun q => x.heads.get 0 q != x.tails.get 0 q).map fun q =>
    (q, x.heads.get 0 q)

/-- A free lane of a hub that has no mask request to serve first (R371). -/
def laneFree (s : M8) (hub lane : Nat) : Bool :=
  hub < 4 && lane < 4 && !(getText s hub).lanes.has lane && (nextGrammar s hub).isNone

/-- Put a job's result on its lane, its output in memory. -/
def laneStart (s : M8) (hub lane d : Nat) (b : Bytes) (j : TextJob) (out : Bytes) : M8 :=
  let j := { j with desc := d, irq := bit (leField b 1 1) 3 }
  let bad := !(inMem (leField b 24 8) out.length)
  let j := if bad then { j with status := 0x15, consumed := 0, produced := 0 } else { j with produced := out.length }
  let s := if bad then s else writeMem s (leField b 24 8) out
  modText s hub fun x => { x with jobs := x.jobs.drop 1, lanes := x.lanes.put lane j }

/-- The shape of a text job's start: the next descriptor of the hub on a free lane, when op accepts its OP. An invalid one
ends with 0x10, one whose input cannot be read with 0x15 (R367, R371). -/
def textStart (m : M8) (hub lane : Nat) (op : Nat → Bool) (inBytes : Nat → Nat) (g : Bytes → Bytes → TextJob × Bytes) : M8 :=
  if !laneFree m hub lane then m else
  match (getText m hub).jobs with
  | [] => m
  | d :: _ =>
    let b := readMemOnes m d 64
    if !op (leField b 0 1) then m
    else if !textDescOk m b then laneStart m hub lane d b { status := 0x10 } []
    else match readMem m (leField b 8 8) (inBytes (leField b 16 4)) with
      | none => laneStart m hub lane d b { status := 0x15 } []
      | some i =>
        let (j, out) := g b i
        laneStart m hub lane d b j out

/-- TOKENISE (R366, R368). A reserved OP starts here as well and ends with 0x10. -/
def execTokenise (hub lane : Nat) (s : State) : Out :=
  live s fun m => textStart m hub lane (fun op => op != 2 && op != 3) id fun b i =>
    let fl := leField b 1 1
    let r := tokenise (vocabOf m) (bit fl 0) (bit fl 1) (bit fl 2) (leField b 32 4) i
    ({ status := r.status, consumed := r.consumed }, r.out)

/-- DETOKENISE (R369). -/
def execDetokenise (hub lane : Nat) (s : State) : Out :=
  live s fun m => textStart m hub lane (· == 2) (4 * ·) fun b i =>
    let merges := bit (leField b 1 1) 0
    let v := if merges then vocabSize (vocabOf m) else 258
    let r := detokeniseFrom (if merges then tokenTable (vocabOf m) else []) v (leField b 32 4) ((chunks 4 i).map leNat) 0 []
    ({ status := r.status, consumed := r.consumed }, r.out)

/-- VALIDATE (R370). -/
def execValidate (hub lane : Nat) (s : State) : Out :=
  live s fun m => textStart m hub lane (· == 3) id fun b i =>
    let (r, off) := validate (machineOf m (leField b 2 1)) i
    ({ consumed := if r = 0 || r = 2 then i.length else off, result := r, offset := off, isValidate := true }, [])

/-- TEXT_JOB_END: STATUS and the out fields are written, then the source is raised (R367, R371, R381). -/
def execTextJobEnd (hub lane : Nat) (s : State) : Out :=
  live s fun m =>
    match (getText m hub).lanes.find lane with
    | some j =>
      let m := modText m hub fun x => { x with lanes := x.lanes.drop lane, doneBit := x.doneBit || j.irq }
      let m := writeMem m (j.desc + 3) (natLe 1 j.status)
      let m := writeMem m (j.desc + 20) (natLe 4 j.consumed)
      let m := writeMem m (j.desc + 36) (natLe 4 j.produced ++ natLe 1 j.result)
      let m := writeMem m (j.desc + 44) (natLe 4 j.offset)
      let m := if j.isValidate && j.result != 0 then odInc m Od.VALIDATE_REJECTS else m
      if j.irq then pulse m (0x144 + hub) else m
    | none => m

/-! ### The grammar service (R374 to R379) -/

/-- Package address of a hub's request area, and of a queue's tail word (R375). -/
def grammarArea (hub : Nat) : Nat := hubSram hub + 0x100000

def tailAddr (hub q : Nat) : Nat := grammarArea hub + 0x40000 + 8 * q

/-- An aligned 8-byte write of a tail word: ignored and counted when a reserved bit is set, or TAIL is behind HEAD or more
than 64 ahead of it (R375). -/
def tailWrite (s : M8) (hub q value : Nat) : M8 :=
  let x := getText s hub
  let d := serialDiff 16 (value % 65536) (x.heads.get 0 q)
  if value / 65536 ≠ 0 || d > 64 then odInc s Od.GRAMMAR_TAIL_REJECTS
  else writeMem (setText s hub { x with tails := x.tails.set 0 q (value % 65536) }) (tailAddr hub q) (natLe 8 value)

/-- GRAMMAR_TAIL_WRITE; whole tells whether it is one aligned 8-byte write (R375). -/
def execGrammarTailWrite (hub queue value : Nat) (whole : Bool) (s : State) : Out :=
  live s fun m =>
    if hub ≥ 4 || queue ≥ 64 then m
    else if whole then tailWrite m hub queue value
    else odInc m Od.GRAMMAR_TAIL_REJECTS

/-- What a request leaves: its STATUS, ACCEPTED and the context, if one is open. -/
structure GrammarRes where
  status : Nat := 0
  accepted : Nat := 0
  ctx : Option GrammarCtx := none

/-- Apply tokens until one is rejected: how many, and the context (R376). -/
def applyTokens (b : Bytes) (table : List Bytes) (v : Nat) : List Nat → GrammarCtx → Nat → Nat × Bool × GrammarCtx
  | [], c, n => (n, true, c)
  | t :: ts, c, n => match applyToken b table v c.state c.stack c.finished t with
    | some (st, stack, fin) => applyTokens b table v ts { c with state := st, stack := stack, finished := fin } (n + 1)
    | none => (n, false, c)

/-- Is a request well formed (R18, R374)? -/
def grammarOk (b : Bytes) : Bool :=
  let op := leField b 0 1
  1 ≤ op && op ≤ 3 && leField b 1 1 ≤ 1 && leField b 9 1 ≤ 8 && leField b 10 2 == 0 && leField b 56 8 == 0 &&
    (op != 1 || leField b 8 1 < 16)

/-- Serve a request on its context (R374, R376, R377, R379). -/
def grammarServe (m : M8) (hub : Nat) (b : Bytes) : GrammarRes :=
  let op := leField b 0 1
  let seq := leField b 4 4
  let c? := (getText m hub).ctxs.find (leField b 2 2)
  if !grammarOk b then { status := 5, ctx := c? }
  else
    let again : Option GrammarRes := match c? with
      | some c => if c.seq = seq then some { status := c.status, accepted := c.accepted, ctx := c? } else none
      | none => none
    match again with
    | some r => r
    | none =>
      if op = 1 then
        let mb := machineOf m (leField b 8 1)
        if mb.isEmpty then { status := 4, ctx := c? }
        else { ctx := some { machine := leField b 8 1, state := machStart mb, seq := seq } }
      else match c? with
        | none => { status := 2 }
        | some c =>
          if seq ≠ (c.seq + 1) % 2 ^ 32 then { status := 3, ctx := c? }
          else if op = 3 then {}
          else
            let toks := (List.range (leField b 9 1)).map fun i => leField b (24 + 4 * i) 4
            let (n, ok, c) := applyTokens (machineOf m c.machine) (tokenTable (vocabOf m)) (vocabSize (vocabOf m)) toks
              { c with seq := seq } 0
            let st := if ok then 0 else 1
            { status := st, accepted := n, ctx := some { c with status := st, accepted := n } }

/-- The connection of a grant that covers a reply buffer with WRITE (R498; assumption log 43). -/
def replyConn (s : M8) (key addr len : Nat) : Nat :=
  match (grantRecs s).find? fun g => leField g 0 4 == key % 2 ^ 24 && bit (leField g 6 1) 0 && leField g 8 8 ≤ addr &&
      addr + len ≤ leField g 8 8 + leField g 16 8 with
  | some g => leField g 4 2
  | none => 0

/-- The mask a reply carries, where it carries one (R374, R378). -/
def replyMask (m : M8) (b : Bytes) (c? : Option GrammarCtx) : Bytes :=
  match c? with
  | some c =>
    if bit (leField b 1 1) 0 then
      grammarMask (machineOf m c.machine) (tokenTable (vocabOf m)) (vocabSize (vocabOf m)) c.state c.stack c.finished
    else []
  | none => []

/-- Send the reply: everything but SEQ, then SEQ as a flagged write behind it (R378). -/
def sendReply (m : M8) (b : Bytes) (r : GrammarRes) (q head : Nat) : M8 :=
  let c := r.ctx.getD {}
  let mask := replyMask m b r.ctx
  let acc := r.ctx.isSome && eosOk (machineOf m c.machine) c.state c.stack
  let flags := b2n acc + b2n c.finished * 2 + b2n (!mask.isEmpty) * 4
  let front := natLe 1 r.status ++ natLe 1 flags ++ natLe 2 (leField b 2 2)
  let rest := natLe 1 r.accepted ++ natLe 1 q ++ natLe 2 c.state ++ natLe 2 c.stack.length ++ natLe 2 head ++ zeros 48 ++ mask
  let key := leField b 12 4
  let addr := leField b 16 8
  let conn := replyConn m key addr (64 + mask.length)
  let id := m.hubs.nextReply
  let m := { m with hubs := { m.hubs with
    nextReply := id + 1,
    replies := m.hubs.replies ++ [{ id := id, conn := conn, key := key, addr := addr + 4, seq := slice b 4 4 }] } }
  let m := if mask.isEmpty then m else odInc m Od.MASKS
  remoteWrite (remoteWrite m conn key addr front (.reply id)) conn key (addr + 8) rest (.reply id)

/-- Take the next request of a hub when op accepts its OP, serve it and reply (R375 to R379). -/
def grammarTake (m : M8) (hub : Nat) (op : Nat → Bool) : M8 :=
  match nextGrammar m hub with
  | none => m
  | some (q, h) =>
    let b := readMemOnes m (grammarArea hub + q * 0x1000 + h % 64 * 0x40) 64
    if hub ≥ 4 || !op (leField b 0 1) then m
    else
      let r := grammarServe m hub b
      let k := leField b 2 2
      let head := (h + 1) % 65536
      let touched := r.status ≤ 1 || r.status = 3
      let m := modText m hub fun x => { x with
        heads := x.heads.set 0 q head, rr := q,
        ctxs := match r.ctx with
          | some c => x.ctxs.put k (if touched then { c with active := m.clk.now } else c)
          | none => x.ctxs.drop k }
      sendReply (countCtx m) b r q head

/-- GRAMMAR_OPEN (R377). A malformed request of a reserved OP is taken here as well. -/
def execGrammarOpen (hub : Nat) (s : State) : Out := live s fun m => grammarTake m hub fun op => op != 2 && op != 3

/-- GRAMMAR_ADVANCE (R376, R378). -/
def execGrammarAdvance (hub : Nat) (s : State) : Out := live s fun m => grammarTake m hub (· == 2)

/-- GRAMMAR_CLOSE (R379). -/
def execGrammarClose (hub : Nat) (s : State) : Out := live s fun m => grammarTake m hub (· == 3)

/-- CTX_IDLE_TIMEOUT: a context without a request for CTX_IDLE_MS closes (R379). -/
def execCtxIdleTimeout (hub ctx : Nat) (s : State) : Out :=
  live s fun m =>
    match (getText m hub).ctxs.find ctx with
    | some c =>
      if m.clk.now ≥ c.active + odNat m Od.CTX_IDLE_MS * 1000000 then
        countCtx (modText m hub fun x => { x with ctxs := x.ctxs.drop ctx })
      else m
    | none => m

end Machine
end Sys2Proof
end

