-- ==== Sys2Proof/Machine/Rings.lean ====
section
/-!
DEFINITION. Sys2Proof/Machine/Rings.lean: the command rings (R415 to R440).
-/
namespace Sys2Proof
namespace Machine

/-! ### Rings and their entries -/

def modRings (s : M8) (f : Rings → Rings) : M8 := { s with rings := f s.rings }

/-- The ring with a key: PCIe ring r at r, fabric ring n at 1024 + n. -/
def getRing (s : M8) (k : Nat) : Ring := s.rings.rings.get {} k

/-- Rings in a state. -/
def ringsIn (s : M8) (f : RingSt → Bool) : Nat := (s.rings.rings.filter fun p => f p.2.st).length

/-- Put a ring; RINGS_OPEN and RINGS_FROZEN follow (R440). -/
def setRing (s : M8) (k : Nat) (x : Ring) : M8 :=
  let s := modRings s fun r => { r with rings := r.rings.set {} k x }
  odSet (odSet s Od.RINGS_OPEN (ringsIn s fun st => st == .running || st == .frozen)) Od.RINGS_FROZEN (ringsIn s (· == .frozen))

def modRing (s : M8) (k : Nat) (f : Ring → Ring) : M8 := setRing s k (f (getRing s k))

/-- Is it a fabric ring? -/
def isFabricRing (k : Nat) : Bool := k ≥ 1024

/-- INFLIGHT: started commands not yet completed (R421). -/
def Ring.inflight (x : Ring) : Nat := (x.cmds.filter fun c => c.started && !c.silent).length

/-- Started commands of the package. -/
def startedAll (s : M8) : Nat := s.rings.rings.foldl (fun n p => n + p.2.inflight) 0

def findCmd (x : Ring) (seq : Nat) : Option RingCmd := x.cmds.find? fun c => c.seq == seq

def putCmd (x : Ring) (c : RingCmd) : Ring := { x with cmds := x.cmds.map fun d => if d.seq = c.seq then c else d }

/-- Fields of an SQ entry (R420). -/
def RingCmd.opc (c : RingCmd) : Nat := leField c.entry 0 1

def RingCmd.flags (c : RingCmd) : Nat := leField c.entry 1 1

def RingCmd.fua (c : RingCmd) : Bool := c.flags.testBit 0

def RingCmd.sgl (c : RingCmd) : Bool := c.flags.testBit 1

def RingCmd.fence (c : RingCmd) : Bool := c.flags.testBit 2

def RingCmd.audit (c : RingCmd) : Bool := c.flags.testBit 3

def RingCmd.machine (c : RingCmd) : Bool := c.flags.testBit 4

def RingCmd.version (c : RingCmd) : Nat := leField c.entry 4 4

def RingCmd.lpn (c : RingCmd) : Nat := leField c.entry 8 6

def RingCmd.mach (c : RingCmd) : Nat := leField c.entry 14 1

def RingCmd.len (c : RingCmd) : Nat := leField c.entry 16 4

def RingCmd.len2 (c : RingCmd) : Nat := leField c.entry 20 4

def RingCmd.addr (c : RingCmd) : Nat := leField c.entry 24 8

def RingCmd.addr2 (c : RingCmd) : Nat := leField c.entry 32 8

/-- The level a ring acts at (R419). -/
def ringLevel (s : M8) (k : Nat) : Nat :=
  if isFabricRing k then ((s.dict.sessions.find? fun x => x.sid == (getRing s k).sess).map Session.level).getD 0
  else odNat s Od.PCIE_RING_LEVEL

/-- The level an opcode asks for; none for an opcode not listed (R428). -/
def opcLevel (opc : Nat) : Option Nat :=
  if opc = 0x00 || opc = 0x10 then some 0
  else if opc = 0x11 || opc = 0x12 || opc = 0x14 || opc = 0x15 || opc = 0x20 || opc = 0x21 || opc = 0x22 then some 1
  else if opc = 0x13 || opc = 0x16 then some 2
  else none

/-- Opcodes whose LEN counts LPNs, and those that move data under ADDR or SGL. -/
def lpnOpc (opc : Nat) : Bool := 0x10 ≤ opc && opc ≤ 0x13

def dataOpc (opc : Nat) : Bool := opc == 0x10 || opc == 0x11

/-- The first invalid field of an entry, by its byte offset (R18, R420, R433). -/
def badField (fabric : Bool) (c : RingCmd) : Option Nat :=
  ([ (decide (c.flags / 32 ≠ 0) || (fabric && c.sgl), 1),
     (if c.machine then decide (c.mach > 15) else decide (c.mach ≠ 0), 14),
     (decide (leField c.entry 15 1 ≠ 0), 15),
     (lpnOpc c.opc && (c.len == 0 || decide (c.len > 4096)), 16),
     (dataOpc c.opc && c.sgl && (c.len2 == 0 || decide (c.len2 > 4096)), 20),
     (fabric && decide (c.addr ≠ 0), 24),
     (fabric && decide (c.addr2 ≠ 0), 32),
     ((slice c.entry 40 24).any (· != 0#8), 40) ].find? Prod.fst).map Prod.snd

/-- What an entry is refused with as it starts: STATUS and FIELD_OFF (R428, R433). -/
def entryFault (s : M8) (k : Nat) (c : RingCmd) : Option (Nat × Nat) :=
  match opcLevel c.opc with
  | none => some (0x0001, 0xFFFF)
  | some l =>
    if l > ringLevel s k then some (0x0004, 0xFFFF)
    else (badField (isFabricRing k) c).map fun off => (0x0002, off)

/-- A command ends with a status and a result; it waits to be posted. -/
def RingCmd.finish (c : RingCmd) (status result : Nat) : RingCmd :=
  { c with worked := true, ready := true, status := status, result := result }

/-- A command starts: a refused entry is ready at once; a FLUSH waits for the writes completed before it (R430). -/
def beginCmd (s : M8) (k : Nat) (c : RingCmd) : RingCmd :=
  let c := { c with started := true, lp := s.rings.atHold }
  match entryFault s k c with
  | some (st, off) => { c.finish st 0 with fieldOff := off }
  | none => if c.opc = 0x14 then { c with recs := s.rings.doneRecs } else c

/-- May rings start commands: not while a low-power entry is between hold points (R434)? -/
def mayStart (s : M8) : Bool := odNat s Od.POWER_STATE != 1 || s.rings.atHold

/-- Start the commands of a ring in fetch order: one with FENCE after every earlier one has completed; 256 of a ring and
4,096 of the package at most (R419, R422). -/
def startRing (k : Nat) : Nat → M8 → M8
  | 0, s => s
  | n + 1, s =>
    let x := getRing s k
    let live := x.cmds.filter fun c => !c.silent
    match live.find? fun c => !c.started with
    | none => s
    | some c =>
      let first := (live.head?).any fun d => d.seq == c.seq
      if !mayStart s || x.st != .running || (c.fence && !first) || x.inflight ≥ 256 || startedAll s ≥ 4096 then s
      else startRing k n (setRing s k (putCmd x (beginCmd s k c)))

def startCmds (s : M8) (k : Nat) : M8 := startRing k (getRing s k).cmds.length s

/-! ### Fabric frames (R426) -/

/-- The 8-byte header of ring traffic (R426). -/
def ringHeader (type count ring credit cid : Nat) : Bytes :=
  natLe 1 type ++ natLe 1 count ++ natLe 2 ring ++ natLe 2 credit ++ natLe 2 cid

/-- The key of an open session. -/
def sessionKeyOf (s : M8) (sid : Nat) : Option Bytes := (s.dict.sessions.find? fun x => x.sid == sid).map Session.key

/-- CREDIT: free SQ entries of a fabric ring (R426, R427). -/
def Ring.credit (x : Ring) : Nat := 2 ^ x.sqLog - 1 - x.sqIn.length

/-- Send a ring frame of a fabric ring, tagged with its session's key, in ESEQ order (R426, R466). -/
def sendRing (s : M8) (k type count cid : Nat) (body : Bytes) : M8 :=
  let x := getRing s k
  let n := k - 1024
  let hd := ringHeader type count n x.credit cid ++ body
  let s := setRing s k { x with eseq := (x.eseq + 1) % 65536 }
  { s with fab := { s.fab with units := s.fab.units ++
      [{ dst := x.peer, cls := 7, flow := n, eseq := x.eseq, payload := hd ++ dictTag (sessionKeyOf s x.sess) hd }] } }

/-! ### Completion, freeze, log (R421, R423, R436, R437) -/

/-- An error-log entry (R437). -/
def errEntry (s : M8) (k : Nat) (c : RingCmd) (errSeq : Nat) : Bytes :=
  let x := getRing s k
  let fabric := isFabricRing k
  natLe 8 s.clk.now ++ natLe 4 errSeq ++ natLe 1 (b2n fabric) ++ zeros 1 ++ natLe 2 (k % 1024) ++ natLe 2 c.cid ++
    natLe 1 c.opc ++ natLe 1 c.flags ++ natLe 2 c.status ++ natLe 2 c.index ++ natLe 8 c.result ++ natLe 6 c.lpn ++
    natLe 2 c.fieldOff ++ natLe 8 c.hostAddr ++ natLe 4 (if fabric then x.sess else 0) ++
    natLe 2 (if fabric then x.peer else 0xFFFF) ++ zeros 10

/-- Log an error completion: the ring of 256 entries, ERR_SEQ_LAST (R437, R440). -/
def logError (s : M8) (k : Nat) (c : RingCmd) : M8 :=
  let n := (odNat s Od.ERR_SEQ_LAST + 1) % 2 ^ 32
  let e := errEntry s k c n
  let s := modRings s fun r => { r with log := (r.log ++ [e]).drop (r.log.length + 1 - 256) }
  odPut (odSet s Od.ERR_SEQ_LAST n) Od.ERROR_LOG (.bytes (s.rings.log.flatMap id))

/-- Is a status one that freezes and is logged (R436)? -/
def errorStatus (st : Nat) : Bool := st != 0x0000 && st != 0x0030 && st != 0x0031

/-- A CQ entry (R421). -/
def cqEntry (x : Ring) (c : RingCmd) (phase : Bool) : Bytes :=
  natLe 8 c.result ++ natLe 2 x.sqHead ++ natLe 2 c.cid ++ natLe 2 c.status ++ natLe 1 (b2n phase + b2n c.lp * 2) ++ zeros 1

/-- Give back the cells a fabric command's data lie in (R427). -/
def giveData (s : M8) (k cid : Nat) : M8 :=
  let s := ((getRing s k).holds.get [] cid).foldl (fun s h => giveHold s 0 0 h 3) s
  modRing s k fun x => { x with data := x.data.drop cid, holds := x.holds.drop cid }

/-- Post a completion: the CQ entry after its data and then the MSI-X message, or a COMPLETE frame; nothing for a command
whose ring was reset (R418, R421, R423, R426). -/
def postCmd (s : M8) (k : Nat) (c : RingCmd) : M8 :=
  let s := modRing s k fun x => { x with cmds := x.cmds.filter fun d => d.seq != c.seq }
  if c.silent then s
  else if isFabricRing k then
    let x := getRing s k
    giveData (sendRing s k 4 1 0 (cqEntry x c true)) k c.cid
  else
    let x := getRing s k
    let s := emit s (.hostWrite (x.cqBase + 16 * x.cqTail) (cqEntry x c x.phase))
    let t := (x.cqTail + 1) % 2 ^ x.cqLog
    let s := setRing s k { x with cqTail := t, phase := if t = 0 then !x.phase else x.phase }
    if x.irqEn then emit s (.msix x.vector) else s

/-- The fetched commands that have not started complete with a status, in fetch order (R425, R436). -/
def dropUnstarted (s : M8) (k status : Nat) : M8 :=
  ((getRing s k).cmds.filter fun c => !c.started && !c.silent).foldl (fun s c => postCmd s k (c.finish status 0)) s

/-- Freeze a ring (R436); its source pulses (R593). -/
def freezeRing (s : M8) (k errSeq : Nat) : M8 :=
  if (getRing s k).st = .running then
    dropUnstarted (pulse (modRing s k fun x => { x with st := .frozen, errSeq := errSeq }) 0x18C) k 0x0030
  else s

/-- RESTART takes effect (R438). -/
def applyRestart (s : M8) (k : Nat) (discard : Bool) : M8 :=
  let s := modRing s k fun x => { x with
    st := .running, pendRestart := none, sqHead := if discard then x.sqTail else x.sqHead,
    sqIn := if discard then [] else x.sqIn }
  startCmds s k

/-- A held RESTART takes effect once nothing is in flight (R438). -/
def restartIfIdle (s : M8) (k : Nat) : M8 :=
  match (getRing s k).pendRestart with
  | some d => if (getRing s k).inflight = 0 then applyRestart s k d else s
  | none => s

/-- A command completes: it is posted; an error is logged and freezes its ring; what waited for it goes on (R422, R436 to
R438). -/
def completeCmd (s : M8) (k : Nat) (c : RingCmd) : M8 :=
  let s := if errorStatus c.status && !c.silent then logError s k c else s
  let s := postCmd s k c
  let s := if errorStatus c.status && !c.silent then freezeRing s k (odNat s Od.ERR_SEQ_LAST) else s
  restartIfIdle (startCmds s k) k

/-! ### The ring registers (R421, R424, R425, R438) -/

/-- Package address of a PCIe ring's register. -/
def ringReg (ring off : Nat) : Nat := 0x030001000000 + 0x40000 + ring * 0x40 + off

/-- Only the host and the control cores write ring registers; another write is discarded under R41. -/
def ringWriter (m : M8) (agent ring off : Nat) (f : M8 → M8) : M8 :=
  if ring ≥ 64 then m
  else if agent = 0x70 || isCore agent then f m else addressError m agent (ringReg ring off)

/-- A dropped write or action sets REFUSED (R421). -/
def refuseRing (s : M8) (k : Nat) : M8 := modRing s k fun x => { x with refused := true }

/-- ENABLE takes effect (R424). -/
def applyEnable (s : M8) (k : Nat) : M8 :=
  modRing s k fun x => { x with
    st := .running, enable := true, pendEnable := false, sqHead := 0, sqTail := 0, cqHead := 0, cqTail := 0, phase := true }

/-- A write of ENABLE 1: dropped with a CQ smaller than the SQ, held in state 3, in effect in state 0 (R424, R425). -/
def ringEnable (s : M8) (k : Nat) : M8 :=
  let x := getRing s k
  if x.st = .running || x.st = .frozen then s
  else if x.cqLog < x.sqLog then refuseRing s k
  else if x.st = .stopping then setRing s k { x with pendEnable := true, enable := true }
  else applyEnable s k

/-- A write of ENABLE 0: the ring stops; commands not started complete with 0x0031; a held ENABLE is cancelled (R425). -/
def ringDisable (s : M8) (k : Nat) : M8 :=
  let s := modRing s k fun x => { x with enable := false, pendEnable := false, pendRestart := none }
  if (getRing s k).st = .running || (getRing s k).st = .frozen then
    dropUnstarted (modRing s k fun x => { x with st := .stopping }) k 0x0031
  else s

/-- RESTART: dropped outside state 2; held while a command is in flight (R438). -/
def ringRestart (s : M8) (k : Nat) (discard : Bool) : M8 :=
  let x := getRing s k
  if x.st ≠ .frozen then refuseRing s k
  else if x.inflight ≠ 0 then setRing s k { x with pendRestart := some discard }
  else applyRestart s k discard

/-- RING_ENABLE: RING_CTL is written with ENABLE 1 and an IRQ_EN (R421, R424). -/
def execRingEnable (agent ring : Nat) (irqEn : Bool) (s : State) : Out :=
  live s fun m => ringWriter m agent ring 0x14 fun m => ringEnable (modRing m ring fun x => { x with irqEn := irqEn }) ring

/-- RING_DISABLE: RING_CTL is written with ENABLE 0 (R425). -/
def execRingDisable (agent ring : Nat) (irqEn : Bool) (s : State) : Out :=
  live s fun m => ringWriter m agent ring 0x14 fun m => ringDisable (modRing m ring fun x => { x with irqEn := irqEn }) ring

/-- RING_SHUTDOWN_DONE: with nothing in flight a stopping ring enters state 0; a held ENABLE takes effect, a fabric ring is
gone (R425, R427). -/
def execRingShutdownDone (ring : Nat) (s : State) : Out :=
  live s fun m =>
    let x := getRing m ring
    if x.st ≠ .stopping || x.inflight ≠ 0 then m
    else if isFabricRing ring then
      setRing (x.holds.foldl (fun m h => giveData m ring h.1) m) ring {}
    else
      let m := modRing m ring fun x => { x with st := .disabled }
      if x.pendEnable then applyEnable m ring else m

/-- RING_RESTART (R438). -/
def execRingRestart (agent ring : Nat) (s : State) : Out :=
  live s fun m => ringWriter m agent ring 0x14 fun m => ringRestart m ring false

/-- RING_RESTART_DISCARD (R438). -/
def execRingRestartDiscard (agent ring : Nat) (s : State) : Out :=
  live s fun m => ringWriter m agent ring 0x14 fun m => ringRestart m ring true

/-- RING_SQ_TAIL written: the endpoint's source pulses; an index at or above the queue's size is discarded (R424, R593). -/
def sqTailWrite (m : M8) (ring index : Nat) : M8 :=
  let m := pulse m 0x187
  if index < 2 ^ (getRing m ring).sqLog then modRing m ring fun x => { x with sqTail := index } else refuseRing m ring

/-- SQ_TAIL_DOORBELL (R424). -/
def execSqTailDoorbell (agent ring index : Nat) (s : State) : Out :=
  live s fun m => ringWriter m agent ring 0x20 fun m => sqTailWrite m ring index

/-- RING_CQ_HEAD written (R424). -/
def cqHeadWrite (m : M8) (ring index : Nat) : M8 :=
  let m := pulse m 0x187
  if index < 2 ^ (getRing m ring).cqLog then modRing m ring fun x => { x with cqHead := index } else refuseRing m ring

/-- CQ_HEAD_DOORBELL (R424). -/
def execCqHeadDoorbell (agent ring index : Nat) (s : State) : Out :=
  live s fun m => ringWriter m agent ring 0x24 fun m => cqHeadWrite m ring index

/-! ### Fetch (R419, R422) -/

/-- Has the CQ a slot for one command more: those fetched and those not read leave one free (R419)? -/
def cqRoom (x : Ring) : Bool :=
  let size := 2 ^ x.cqLog
  (x.cmds.filter fun c => !c.silent).length + (x.cqTail + size - x.cqHead) % size + 1 < size

/-- SQ_FETCH: the entry at SQ_HEAD is fetched, with entry what host memory holds there; a fabric ring takes its oldest
SUBMIT entry (R419, R427). It starts as R422 allows. The first one after mount ends start-up recording (R609). -/
def execSqFetch (ring : Nat) (entry : Bytes) (s : State) : Out :=
  live s fun m =>
    let x := getRing m ring
    let take (m : M8) (e : Bytes) : M8 :=
      let c : RingCmd := { seq := m.rings.nextSeq, cid := leField e 2 2, entry := e, index := x.sqHead }
      let m := modRings m fun r => { r with nextSeq := r.nextSeq + 1 }
      let m := if m.fl.mounted then { m with dbg := { m.dbg with startup := false } } else m
      startCmds (modRing m ring fun y => { y with cmds := y.cmds ++ [c], sqHead := (x.sqHead + 1) % 2 ^ x.sqLog }) ring
    if x.st ≠ .running then m
    else if isFabricRing ring then
      match x.sqIn with
      | [] => m
      | e :: es => take (setRing m ring { x with sqIn := es }) e
    else if x.sqHead = x.sqTail || !cqRoom x || !m.rings.d0 then m
    else take m (slice entry 0 64)

/-! ### The work of the commands (R428 to R432) -/

/-- Work on a started command of an opcode. -/
def workOn (m : M8) (ring seq opc : Nat) (f : RingCmd → M8) : M8 :=
  match findCmd (getRing m ring) seq with
  | some c => if c.started && !c.worked && c.opc = opc then f c else m
  | none => m

def setCmd (m : M8) (ring : Nat) (c : RingCmd) : M8 := modRing m ring fun x => putCmd x c

/-- End a command. -/
def endCmd (m : M8) (ring : Nat) (c : RingCmd) (status result : Nat) : M8 := setCmd m ring (c.finish status result)

/-- CMD_NOP (R428). -/
def execCmdNop (ring seq : Nat) (s : State) : Out :=
  live s fun m => workOn m ring seq 0x00 fun c => endCmd m ring c 0x0000 0

/-- Does the command reach past the namespace (R433)? -/
def pastNs (m : M8) (c : RingCmd) : Bool := c.lpn + c.len > nsPages m

/-- The segments of a list: addresses and lengths (R420). -/
def segments (segs : Bytes) : List (Nat × Nat) := (chunks 16 segs).map fun b => (leField b 0 8, leField b 8 4)

/-- Is a segment list well formed for its command (R420, R433)? -/
def segsOk (c : RingCmd) (segs : Bytes) : Bool :=
  segs.length == 16 * c.len2 && (chunks 16 segs).all (fun b => leField b 12 4 == 0) &&
    (segments segs).foldl (fun n p => n + p.2) 0 == c.len * 4096

/-- Write bytes into host memory over segments in order. -/
def hostSegments (m : M8) : List (Nat × Nat) → Bytes → M8
  | [], _ => m
  | p :: ps, b => hostSegments (emit m (.hostWrite p.1 (b.take p.2))) ps (b.drop p.2)

/-- CMD_READ: LEN pages of a version go to host memory, or to the client in DATA frames. segs is the segment list in host
memory, hostErr a failing host address, fault that a codeword cannot be read (R421, R427, R428, R433). -/
def execCmdRead (ring seq : Nat) (segs : Bytes) (hostErr : Option Nat) (fault : Bool) (s : State) : Out :=
  live s fun m => workOn m ring seq 0x10 fun c =>
    if !m.fl.mounted then m
    else if pastNs m c then endCmd m ring c 0x0010 0
    else if c.version ≠ 0 && !m.fl.held.contains c.version then endCmd m ring c 0x0011 0
    else if c.sgl && !segsOk c segs then endCmd m ring { c with fieldOff := 24 } 0x0002 0
    else if fault then endCmd m ring c 0x0016 0
    else
      let pages := (List.range c.len).map fun i => readLpn m.fl c.version (c.lpn + i)
      if isFabricRing ring then
        endCmd (pages.foldl (fun m p => sendRing m ring 5 0 c.cid p) m) ring c 0x0000 c.len
      else match hostErr with
        | some a => endCmd m ring { c with hostAddr := a } 0x0003 0
        | none =>
          let data := pages.flatMap id
          let m := hostSegments m (if c.sgl then segments segs else [(c.addr, c.len * 4096)]) data
          endCmd m ring c 0x0000 0

/-- Store the pieces of a WRITE in order, each atomic, until one fails; failAt names a piece that a storage fault fails.
Answers the LPNs applied, their records and the failing STATUS (R429, R431). -/
def storePieces (failAt : Option Nat) : Nat → Nat → List (List Bytes) → M8 → Nat × List Nat × Nat × M8
  | _, _, [], m => (0, [], 0, m)
  | i, lpn, p :: ps, m =>
    if failAt = some i then (0, [], 0x0016, m)
    else match writePiece m lpn p with
      | .error st => (0, [], st, m)
      | .ok (seq, m) =>
        let (n, seqs, st, m) := storePieces failAt (i + 1) (lpn + p.length) ps m
        (n + p.length, seq :: seqs, st, m)

/-- Lists of at most 64 pages (R431). -/
def pieces64 : Nat → List Bytes → List (List Bytes)
  | 0, _ => []
  | _ + 1, [] => []
  | n + 1, ps => ps.take 64 :: pieces64 n (ps.drop 64)

/-- CMD_WRITE: the data are validated with MACHINE, then stored in pieces of 64 LPNs; FUA 0 ends it, FUA 1 waits for
durability (R409, R429 to R432). data is what host memory holds, or has come in DATA frames. -/
def execCmdWrite (ring seq : Nat) (segs data : Bytes) (hostErr failAt : Option Nat) (s : State) : Out :=
  live s fun m => workOn m ring seq 0x11 fun c =>
    let data := if isFabricRing ring then (getRing m ring).data.get [] c.cid else data
    if !m.fl.mounted then m
    else if pastNs m c then endCmd m ring c 0x0010 0
    else match hostErr with
    | some a => endCmd m ring { c with hostAddr := a } 0x0003 0
    | none =>
      if c.sgl && !segsOk c segs then endCmd m ring { c with fieldOff := 24 } 0x0002 0
      else if data.length ≠ c.len * 4096 then m
      else if c.machine && (machineOf m c.mach).isEmpty then endCmd m ring { c with fieldOff := 14 } 0x0002 0
      else
        let v := if c.machine then validate (machineOf m c.mach) data else (0, 0)
        if v.1 ≠ 0 then endCmd m ring c 0x0015 (v.1 * 2 ^ 32 + v.2 % 2 ^ 32)
        else
          let (n, recs, st, m) := storePieces failAt 0 c.lpn (pieces64 c.len (chunks 4096 data)) m
          if st ≠ 0 then endCmd m ring { c with recs := recs } st n
          else if c.fua then setCmd m ring { c with worked := true, result := n, recs := recs }
          else endCmd m ring { c with recs := recs } 0x0000 n

/-- Unmap the LPNs of a discard in records of 64: their numbers and the failing STATUS (R411, R412). -/
def discardPieces (type : Nat) : Nat → Nat → Nat → M8 → List Nat × Nat × M8
  | 0, _, _, m => ([], 0, m)
  | fuel + 1, lpn, n, m =>
    if n = 0 then ([], 0, m)
    else match discardPiece m type lpn (min 64 n) with
      | .error st => ([], st, m)
      | .ok (seq, m) =>
        let (seqs, st, m) := discardPieces type fuel (lpn + min 64 n) (n - min 64 n) m
        (seq :: seqs, st, m)

/-- CMD_DISCARD (R411). -/
def execCmdDiscard (ring seq : Nat) (s : State) : Out :=
  live s fun m => workOn m ring seq 0x12 fun c =>
    if !m.fl.mounted then m
    else if pastNs m c then endCmd m ring c 0x0010 0
    else
      let (recs, st, m) := discardPieces 2 c.len c.lpn c.len m
      if st ≠ 0 then endCmd m ring { c with recs := recs } st 0
      else setCmd m ring { c with worked := true, recs := recs }

/-- Does the pinned version map one of n LPNs (R401, R412)? -/
def pinnedMaps (m : M8) (lpn n : Nat) : Bool :=
  m.job.loaded && (List.range n).any fun i => (lookup m.fl m.job.jr.datasetVersion (lpn + i)).isSome

/-- Superblocks that hold a copy of one of n LPNs, old copies included (R412). -/
def copiesIn (x : Flash) (lpn n : Nat) : List Nat :=
  ((x.cw.filter fun e => lpn ≤ e.2.1 && e.2.1 < lpn + n).map fun e => physBlock e.1).eraseDups

/-- Epoch-cache entries that may hold discarded data go: with no job loaded the cache is emptied; with one, each entry of
another DATASET_VERSION is dead and its compressed bytes are zeros (R177, R412). -/
def scrubCache (m : M8) : M8 :=
  if !m.job.loaded then emptyCache m
  else (List.range (odNat m Od.DIR_SLOTS)).foldl (fun m i =>
    let e := readMemOnes m (dirSlot m i) 64
    let st := slotState m i
    if (st = 1 || st = 2) && leField e 4 4 ≠ m.job.jr.datasetVersion then
      setSlotState (clearMem m (cacheAddr m (leField e 24 8)) (leField e 32 4)) i 3
    else m) m

/-- SECURE_DISCARD: refused where a pinned version maps the range; else the LPNs are unmapped in every version and each
superblock with a copy is to be erased (R412). -/
def execSecureDiscard (ring seq : Nat) (s : State) : Out :=
  live s fun m => workOn m ring seq 0x13 fun c =>
    if !m.fl.mounted then m
    else if pastNs m c then endCmd m ring c 0x0010 0
    else if pinnedMaps m c.lpn c.len then endCmd m ring c 0x0012 0
    else
      let sbs := copiesIn m.fl c.lpn c.len
      let (recs, st, m) := discardPieces 3 c.len c.lpn c.len m
      if st ≠ 0 then endCmd m ring { c with recs := recs } st 0
      else
        let m := modFl (scrubCache m) fun x => { x with secure := x.secure ++ [{ ring := ring, seq := seq, sbs := sbs }] }
        setCmd m ring { c with worked := true, recs := recs }

/-- CMD_FLUSH: it waits for the writes completed before it started (R430). -/
def execCmdFlush (ring seq : Nat) (s : State) : Out :=
  live s fun m => workOn m ring seq 0x14 fun c => setCmd m ring { c with worked := true }

/-- Version seals recorded and not yet applied. -/
def sealsPending (x : Flash) : Nat := (x.recs.filter fun r => r.type == 5 && !r.durable).length

/-- VERSION_SEAL: refused with eight versions held; else the seal is journaled (R399). -/
def execVersionSeal (ring seq : Nat) (s : State) : Out :=
  live s fun m => workOn m ring seq 0x15 fun c =>
    if !m.fl.mounted then m
    else if m.fl.held.length + sealsPending m.fl ≥ 8 then endCmd m ring c 0x0014 0
    else
      let v := m.fl.openVer + sealsPending m.fl
      let n := m.fl.nextSeq
      setCmd (modFl m fun x => addRec x { type := 5 }) ring { c with worked := true, result := v, recs := [n] }

/-- VERSION_RELEASE: the version is released with the copies no older held version needs (R400, R401, R433). -/
def execVersionRelease (ring seq : Nat) (s : State) : Out :=
  live s fun m => workOn m ring seq 0x16 fun c =>
    let v := c.version
    if !m.fl.mounted then m
    else if !m.fl.held.contains v then endCmd m ring c 0x0011 0
    else if m.job.loaded && m.job.jr.datasetVersion = v then endCmd m ring c 0x0012 0
    else
      let m := modFl m fun x =>
        let held := x.held.filter (· != v)
        { x with held := held, delta := x.delta.filter fun d => held.any fun u => u ≤ d.version }
      endCmd (setVersions m) ring c 0x0000 0

/-! ### Jobs and audits (R144, R291, R428, R589) -/

/-- May a job or audit be loaded now: JOB_STATE 0, no audit in hand, a confirmed image (R428, R589)? -/
def loadAllowed (m : M8) : Bool :=
  jobState m == 0 && odNat m Od.AUDIT_STATE != 1 && odNat m Od.AUDIT_STATE != 2 && !m.job.loaded && odNat m Od.FW_STATE != 7

/-- Run a job command for the ring command it serves, if one is named: not allowed, it completes with 0x0021 (R433);
a host access that fails, with 0x0003. -/
def jobCommand (m : M8) (cmd : Option (Nat × Nat)) (opc : Nat) (isAudit : Bool) (hostErr : Option Nat) (allowed : Bool)
    (f : M8 → M8) : M8 :=
  match cmd with
  | none => if allowed then f m else m
  | some (ring, seq) => workOn m ring seq opc fun c =>
    if opc = 0x20 && c.audit ≠ isAudit then m
    else match hostErr with
      | some a => endCmd m ring { c with hostAddr := a } 0x0003 0
      | none =>
        if !allowed then endCmd m ring c 0x0021 0
        else f (setCmd m ring { c with worked := true })

/-- JOB_LOAD: image and record are what host memory holds (R141, R219, R428). -/
def execJobLoad (cmd : Option (Nat × Nat)) (image record_ : Bytes) (hostErr : Option Nat) (s : State) : Out :=
  live s fun m => jobCommand m cmd 0x20 false hostErr (loadAllowed m) fun m => jobLoad m image record_

/-- AUDIT_LOAD (R291, R428). -/
def execAuditLoad (cmd : Option (Nat × Nat)) (image record_ : Bytes) (hostErr : Option Nat) (s : State) : Out :=
  live s fun m => jobCommand m cmd 0x20 true hostErr (loadAllowed m) fun m => auditLoad m image record_

/-- JOB_STOP (R144, R428). -/
def execJobStop (cmd : Option (Nat × Nat)) (s : State) : Out :=
  live s fun m => jobCommand m cmd 0x21 false none (jobState m = 3) jobStop

/-- JOB_UNLOAD (R144, R428). -/
def execJobUnload (cmd : Option (Nat × Nat)) (s : State) : Out :=
  live s fun m => jobCommand m cmd 0x22 false none (unloadAllowed m) jobUnload

/-! ### CMD_COMPLETE (R409, R428, R430) -/

/-- Parity holders have reported the contributions of some records durable (R409). -/
def parityReported (m : M8) (durable : List Nat) : M8 :=
  let m := modFl m fun x => { x with pending := x.pending.filter fun q => !durable.contains q }
  odSet m Od.PARITY_PENDING m.fl.pending.length

/-- Is a record durable with its parity (R409)? -/
def fullyDurable (x : Flash) (seq : Nat) : Bool := recDurable x seq && !x.pending.contains seq

/-- How a worked command that is not ready has come to its end, if it has: STATUS and RESULT (R428, R430, R433). others: the
other members concerned have done their part (a version seal journaled, superseded parity erased). -/
def cmdEnd (m : M8) (ring : Nat) (c : RingCmd) (others : Bool) : Option (Nat × Nat) :=
  let durable := c.recs.all (fullyDurable m.fl)
  let alone := others || groupW m ≤ 1
  if c.opc = 0x20 then
    if c.audit then
      (if jobState m = 6 && odNat m Od.AUDIT_STATE = 0 then some (0x0020, odNat m Od.JOB_FAIL)
       else if odNat m Od.AUDIT_STATE = 4 then some (0x0022, leField (odBytes m Od.AUDIT_OUT) 8 1)
       else if odNat m Od.AUDIT_STATE = 3 then some (0x0000, leField (odBytes m Od.AUDIT_OUT) 8 1)
       else none)
    else if jobState m = 6 then some (0x0020, odNat m Od.JOB_FAIL)
    else if jobState m = 1 || jobState m = 2 then none
    else some (0x0000, odNat m Od.JOB_ID)
  else if c.opc = 0x21 then (if jobState m = 4 then none else some (0x0000, 0))
  else if c.opc = 0x22 then (if tilesEmpty m then some (0x0000, 0) else none)
  else if c.opc = 0x12 then (if c.recs.all (recDurable m.fl) then some (0x0000, 0) else none)
  else if c.opc = 0x15 then (if c.recs.all (recDurable m.fl) && alone then some (0x0000, c.result) else none)
  else if c.opc = 0x13 then
    (if durable && alone && (m.fl.secure.all fun q => q.ring != ring || q.seq != c.seq || q.sbs.isEmpty) then some (0x0000, 0) else none)
  else if durable then some (0x0000, c.result) else none

/-- CMD_COMPLETE: a command that is ready, or has come to its end, is posted. durable names the records whose parity holders
have all reported (R409). A freeze follows an error (R436). -/
def execCmdComplete (ring seq : Nat) (durable : List Nat) (others : Bool) (s : State) : Out :=
  live s fun m =>
    let m := parityReported m durable
    match findCmd (getRing m ring) seq with
    | none => m
    | some c =>
      let done := if c.ready then some c
        else if c.worked then (cmdEnd m ring c others).map fun e => c.finish e.1 e.2 else none
      match done with
      | none => m
      | some c =>
        let m := modFl m fun x => { x with secure := x.secure.filter fun q => q.ring != ring || q.seq != seq }
        let m := if c.opc = 0x11 && c.status = 0 then modRings m fun r => { r with
          doneRecs := (r.doneRecs ++ c.recs).filter fun q => !fullyDurable m.fl q } else m
        completeCmd m ring c

/-! ### Endpoint resets (R418, R629) -/

/-- What a function reset does: every PCIe ring and the mailbox are disabled and every PCIe session closes; started
commands run on without CQ entries (R418). -/
def functionReset (m : M8) : M8 :=
  let m := (List.range 64).foldl (fun m k => if m.rings.rings.has k then modRing m k fun x => { x with
    st := .disabled, enable := false, pendEnable := false, pendRestart := none,
    cmds := (x.cmds.filter fun c => c.started).map fun c => { c with silent := true } } else m) m
  let m := (m.dict.sessions.filter fun x => x.path == 3).foldl (fun m x => closeSession m x.sid) m
  { m with mbx := {}, dict := { m.dict with hellos := m.dict.hellos.filter fun h => h.path != 3 } }

/-- FLR (R418). -/
def execFlr (s : State) : Out := live s fun m => pulse (functionReset m) 0x187

/-- PERST_N: the endpoint alone is reset, its ring registers with it; the link is down (R19, R629). -/
def execPerstN (s : State) : Out :=
  live s fun m =>
    let m := functionReset m
    let m := (List.range 64).foldl (fun m k => if m.rings.rings.has k then modRing m k fun x => { cmds := x.cmds } else m) m
    modRings m fun r => { r with linkUp := false, linkRate := 0, linkWidth := 0, d0 := true }

/-! ### Fabric rings (R426, R427, R438) -/

/-- Does a ring frame carry the tag of a session, and does it come from the session's address (R426)? -/
def ringFrameOk (m : M8) (sid src : Nat) (payload : Bytes) : Bool :=
  payload.length ≥ 24 && (m.dict.sessions.any fun x => x.sid == sid && x.path == 2 && x.addr == src &&
    dictTag (some x.key) (payload.take (payload.length - 16)) == payload.drop (payload.length - 16))

/-- The body of a ring frame: what stands between header and tag. -/
def ringBody (payload : Bytes) : Bytes := (payload.take (payload.length - 16)).drop 8

/-- Fabric rings that are open. -/
def fabricOpen (m : M8) : List Nat := (m.rings.rings.filter fun p => p.1 ≥ 1024).map Prod.fst

/-- REFUSED with an abort code (R427). -/
def refuseOpen (m : M8) (src code : Nat) (key : Option Bytes) : M8 :=
  let hd := ringHeader 7 0 0 0 0 ++ natLe 4 code
  sendFrame m src 0x7 0 (hd ++ dictTag key hd)

/-- FABRIC_RING_OPEN (R427): the session's identifier in bytes 8 to 11, SQ_LOG2 in byte 12. -/
def execFabricRingOpen (src : Nat) (payload : Bytes) (s : State) : Out :=
  live s fun m =>
    let sid := leField payload 8 4
    let log := leField payload 12 1
    match m.dict.sessions.find? fun x => x.sid == sid && x.path == 2 && x.addr == src with
    | none => refuseOpen m src 0x05040000 none
    | some x =>
      if !ringFrameOk m sid src payload then m
      else if log < 4 || log > 16 then refuseOpen m src 0x05040005 (some x.key)
      else if (fabricOpen m).length ≥ odInForce m Od.FABRIC_RINGS_MAX then refuseOpen m src 0x05040004 (some x.key)
      else
        let n := ((List.range 256).find? fun i => !(fabricOpen m).contains (1024 + i)).getD 0
        let m := setRing m (1024 + n) { st := .running, enable := true, sqLog := log, cqLog := log, sess := sid, peer := src }
        sendRing m (1024 + n) 2 0 0 []

/-- The fabric ring a frame names, when its tag and source are right. -/
def frameRing (m : M8) (src : Nat) (payload : Bytes) : Option Nat :=
  let k := 1024 + leField payload 2 2
  if m.rings.rings.has k && ringFrameOk m (getRing m k).sess src payload then some k else none

/-- FABRIC_RING_SUBMIT: entries beyond the credit are discarded and freeze the ring with 0x0002 (R426, R427). -/
def execFabricRingSubmit (src : Nat) (payload : Bytes) (s : State) : Out :=
  live s fun m =>
    match frameRing m src payload with
    | none => m
    | some k =>
      let x := getRing m k
      let es := (chunks 64 (ringBody payload)).take (leField payload 1 1)
      if x.st = .stopping then m
      else
        let m := setRing m k { x with sqIn := x.sqIn ++ es.take x.credit }
        match es.drop x.credit with
        | [] => m
        | e :: _ =>
          let c : RingCmd := { cid := leField e 2 2, entry := e, index := x.sqHead, status := 0x0002 }
          let m := logError m k c
          freezeRing m k (odNat m Od.ERR_SEQ_LAST)

/-- FABRIC_RING_DATA: the data of a WRITE land in cells of owner 0x03 (R337, R427); without free cells the frame waits. -/
def execFabricRingData (src : Nat) (payload : Bytes) (s : State) : Out :=
  live s fun m =>
    match frameRing m src payload with
    | none => m
    | some k =>
      let cid := leField payload 6 2
      let b := ringBody payload
      let (id, m') := newHold m
      let q : PoolReq := { id := id, owner := 3, cells := ceilDiv b.length 512, chain := true }
      match grantable m 0 0 q with
      | none => m
      | some pieces =>
        let m := grantReq m' 0 0 q pieces
        let m := writeSpans m (pieces.map fun p => (cellAddr m 0 0 p.1, p.2 * 512)) b
        modRing m k fun x => { x with
          data := x.data.put cid (x.data.get [] cid ++ b), holds := x.holds.put cid (id :: x.holds.get [] cid) }

/-- FABRIC_RING_CLOSE: the ring is shut down (R425, R427). -/
def execFabricRingClose (src : Nat) (payload : Bytes) (s : State) : Out :=
  live s fun m =>
    match frameRing m src payload with
    | none => m
    | some k => ringDisable m k

/-- Fabric rings whose session has closed are shut down (R427). -/
def closeOrphans (m : M8) : M8 :=
  (fabricOpen m).foldl (fun m k =>
    if (m.dict.sessions.any fun x => x.sid == (getRing m k).sess) then m else ringDisable m k) m

/-- The abort a write of OD 0x1321:02 from a session meets (R440). -/
def fabricRestartAbort (m : M8) (sid v : Nat) : Option Nat :=
  let k := 1024 + v % 65536
  if v / 2 ^ 17 ≠ 0 then some 0x06090030
  else if !(m.rings.rings.has k) || (getRing m k).sess ≠ sid then some 0x06090030
  else if (getRing m k).st ≠ .frozen then some 0x08000021
  else none

/-- FABRIC_RING_RESTART: OD 0x1321:02 is written from a session (R438, R440). -/
def execFabricRingRestart (sid value : Nat) (s : State) : Out :=
  live s fun m =>
    match fabricRestartAbort m sid value with
    | some a => emit m (.fwStatus a)
    | none => ringRestart m (1024 + value % 65536) (value.testBit 16)

/-! ### Low-power entry (R434) -/

/-- Does a ring hold a started or waiting command? -/
def ringsBusy (m : M8) : Bool :=
  m.rings.rings.any fun p => p.2.cmds.any fun c => !c.silent

/-- LP_HOLD_POINT: the entry pauses at a hold point while commands wait; they start, and their completions carry
LP_DELAYED (R434). The entry goes on once no ring holds one. -/
def execLpHoldPoint (s : State) : Out :=
  live s fun m =>
    if odNat m Od.POWER_STATE ≠ 1 then m
    else if ringsBusy m then
      let m := modRings m fun r => { r with atHold := true }
      (m.rings.rings.map Prod.fst).foldl startCmds m
    else modRings m fun r => { r with atHold := false }

end Machine
end Sys2Proof
end

