-- ==== Sys2Proof/Machine/Remote.lean ====
section
/-!
DEFINITION. Sys2Proof/Machine/Remote.lean: what arrives from accelerators and what times out on the way to them (R489 to
R511): acknowledgements, PFC, inbound writes, Acsal-SR, and the connection and grant tables.
-/
namespace Sys2Proof
namespace Machine

/-! ### RoCE acknowledgements (R503, R504) -/

/-- Does a PSN lie in the unacknowledged window of a path? -/
def psnOut (s : M8) (c j psn : Nat) : Bool :=
  let w := psnBits (connInfo s c)
  let x := getPath s c j
  x.state == 1 && serialDiff w psn x.una < serialDiff w x.high x.una

/-- The peer has everything below psn: progress, and what it completes (R504, R505). -/
def acked (m : M8) (c j psn : Nat) : M8 :=
  if psn = (getPath m c j).una then m else
  let (tags, m) := settlePath (progress m c j psn) c j
  pump (writesDone m tags) c j

/-- An acknowledgement of a PSN; outside the window it is ignored and counted (R503). -/
def roceAck (m : M8) (c j psn : Nat) : M8 :=
  if psnOut m c j psn then acked m c j ((psn + 1) % 2 ^ psnBits (connInfo m c)) else odInc m Od.STALE_ACKS

/-- ROCE_ACK_RECEIVE. -/
def execRoceAckReceive (conn path psn : Nat) (s : State) : Out := live s fun m => roceAck m conn path psn

/-- Resend from psn, with one more on the retry count; above RETRY_CNT the path fails (R504). -/
def retryFrom (m : M8) (c j psn : Nat) : M8 :=
  let n := (getPath m c j).retries + 1
  if n > (connInfo m c).retry then failPath m c j 3 1
  else goBack (modPath m c j fun x => { x with retries := n }) c j psn

/-- A NAK with a syndrome (R489, R504). -/
def roceNak (m : M8) (c j psn syndrome : Nat) : M8 :=
  if !psnOut m c j psn then odInc m Od.STALE_ACKS
  else
    let m := acked m c j psn
    if syndrome = 0x60 then retryFrom m c j psn
    else if syndrome = 0x61 then failPath m c j 4 5
    else if syndrome = 0x62 then failPath m c j 4 4
    else if syndrome = 0x63 then failPath m c j 4 6
    else m

/-- ROCE_NAK_RECEIVE. -/
def execRoceNakReceive (conn path psn syndrome : Nat) (s : State) : Out := live s fun m => roceNak m conn path psn syndrome

/-- ROCE_ACK_TIMEOUT: no progress for ACK_TIMEOUT_NS since the later of the last progress and the last transmission
(R504). -/
def execRoceAckTimeout (conn path : Nat) (s : State) : Out :=
  live s fun m =>
    let x := getPath m conn path
    let i := connInfo m conn
    if !i.sr && x.state = 1 && x.high ≠ x.una && m.clk.now ≥ x.active + i.timeout then retryFrom m conn path x.una else m

/-- PATH_HOLD_TIMEOUT: a path suspended for PATH_HOLD_MS fails with REASON 2 (R506). -/
def execPathHoldTimeout (conn path : Nat) (s : State) : Out :=
  live s fun m =>
    let x := getPath m conn path
    if x.state = 2 && m.clk.now ≥ x.heldFrom + odNat m Od.PATH_HOLD_MS * 1000000 then failPath m conn path 3 2 else m

/-- A path starts from its record (R507). -/
def startPath (s : M8) (c j : Nat) : M8 :=
  let p := pathInfo s c j
  let ms := (getPath s c j).msgs
  setPath s c j { state := 1, next := p.tx0, high := p.tx0, una := p.tx0, rx := p.rx0, active := s.clk.now,
                  msgs := ms.map fun m => { m with begun := false, sent := 0 } }

/-- CONN_REARM: a failed path starts again from its record; a path not in state 3 or 4 is refused (R507, R512). -/
def connRearm (m : M8) (c j : Nat) : M8 :=
  let st := (getPath m c j).state
  if st = 3 || st = 4 then placeWaiting (pump (startPath m c j) c j) c else emit m (.fwStatus 0x08000021)

/-- CONN_REARM. -/
def execConnRearm (conn path : Nat) (s : State) : Out := live s fun m => connRearm m conn path

/-! ### The tables (R493, R495, R497) -/

/-- Is a record of the connection table valid (R493)? A record of zeros stands for no connection. -/
def connRecOk (s : M8) (c : Nat) (r : Bytes) : Bool :=
  let i := connInfoOf r
  let lg := leField r 7 1
  r.all (· == 0#8) ||
  (leField r 0 2 == c && leField r 2 1 ≤ 1 && leField r 3 1 ≤ 1 && 1 ≤ i.npaths && i.npaths ≤ 4 && leField r 5 1 ≤ 1 &&
    1 ≤ i.retry && i.retry ≤ 7 && 10 ≤ lg && lg ≤ 12 && 500 ≤ i.timeout && i.timeout ≤ 10000000 && 16 ≤ i.window &&
    i.window ≤ (if i.sr then 64 else 4096) && ((r.drop 16).take 48).all (· == 0#8) &&
    (!i.sr || (!i.replicate && i.npaths == 1)) &&
    (List.range 4).all fun j =>
      let p := pathRecOf r j
      let x := pathInfoOf p
      if j ≥ i.npaths then p.all (· == 0#8)
      else
        leField p 1 3 == 0 && leField p 54 10 == 0 && (j != 0 || (leField p 40 8 == 0 && x.keyAdj == 0)) && x.keyAdj < 2 ^ 24 &&
        x.vid < 4096 &&
        (if i.sr then x.port == 0 && x.ip == zeros 16 && x.mac == zeros 6
         else x.port < 32 && !(getPort s x.port).acsal && x.qpn < 2 ^ 24 && x.tx0 < 2 ^ 24 && x.rx0 < 2 ^ 24 && x.peer == 0))

/-- Is a connection table valid? -/
def connTableOk (s : M8) (b : Bytes) : Bool :=
  b.length % 320 == 0 && b.length ≤ 4096 * 320 && (List.range (b.length / 320)).all fun c => connRecOk s c (connRecOf b c)

/-- Connections a table may hold, old or new. -/
def connCount (s : M8) (b : Bytes) : Nat := max (b.length / 320) ((odBytes s Od.CONN_TABLE).length / 320)

/-- While a job is loaded only records of paths in state 3 or 4 may change (R495). -/
def connChangeOk (s : M8) (b : Bytes) : Bool :=
  !jobLoaded s || (List.range (connCount s b)).all fun c =>
    let old := connRec s c
    let new := connRecOf b c
    slice old 0 64 == slice new 0 64 && (List.range 4).all fun j =>
      pathRecOf old j == pathRecOf new j || (getPath s c j).state == 3 || (getPath s c j).state == 4

/-- The abort a connection table meets, if any (R495). -/
def connAbort (s : M8) (b : Bytes) : Option Nat :=
  if !connTableOk s b then some 0x06090030 else if !connChangeOk s b then some 0x08000021 else none

/-- A connection table is stored: outside a job, paths whose records changed start from them, paths without a record are
unused (R493, R506, R507). -/
def setConnTable (s : M8) (b : Bytes) : M8 :=
  let n := connCount s b
  let old := odBytes s Od.CONN_TABLE
  let s := odPut s Od.CONN_TABLE (.bytes b)
  if jobLoaded s then s else
  (List.range n).foldl (fun s c => (List.range 4).foldl (fun s j =>
    let new := connRecOf b c
    if slice new 0 64 == slice (connRecOf old c) 0 64 && pathRecOf new j == pathRecOf (connRecOf old c) j then s
    else if j < (connInfoOf new).npaths then startPath (setPath s c j {}) c j
    else setPath s c j {}) s) s

/-- CONN_TABLE_WRITE (R495). -/
def execConnTableWrite (data : Bytes) (s : State) : Out :=
  live s fun m => match connAbort m data with
    | some a => emit m (.fwStatus a)
    | none => setConnTable m data

/-- Is a grant table valid (R497)? -/
def grantTableOk (b : Bytes) : Bool :=
  b.length % 32 == 0 && b.length ≤ 4096 * 32 && (chunks 32 b).all fun g =>
    leField g 0 4 < 2 ^ 24 && leField g 6 1 < 4 && leField g 7 1 == 0 && 1 ≤ leField g 16 8 && leField g 24 8 == 0

/-- Does the loaded job still have the grants it uses (R497)? -/
def jobGrantsOk (s : M8) : Bool :=
  !jobLoaded s || s.job.audit || (List.range s.job.jr.ranks.length).all fun r =>
    let k := rankOf s r
    grantsOk s k && (k.kind == 1 || (getRank s r).keys.all fun e =>
      granted s k.conn e.2 (k.bufBase + e.1 * k.bufStride) (k.slots * k.slotStride) 1)

/-- The abort a grant table meets, if any (R497). -/
def grantAbort (s : M8) (b : Bytes) : Option Nat :=
  if !grantTableOk b then some 0x06090030
  else if jobGrantsOk s && !jobGrantsOk (odPut s Od.GRANTS (.bytes b)) then some 0x08000021 else none

/-- GRANTS_WRITE (R497). -/
def execGrantsWrite (data : Bytes) (s : State) : Out :=
  live s fun m => match grantAbort m data with
    | some a => emit m (.fwStatus a)
    | none => odPut m Od.GRANTS (.bytes data)

/-- REUSE_HOLD_EXPIRE: what R500 held may go. -/
def execReuseHoldExpire (held : Nat) (s : State) : Out :=
  live s fun m => if m.rem.lifeHeld.contains held && holdOver m held then unhold m held else m

/-! ### PFC (R491) -/

def getPfc (s : M8) (p : Nat) : Pfc := s.rem.pfc.get {} p

def setPfc (s : M8) (p : Nat) (x : Pfc) : M8 := modRem s fun r => { r with pfc := r.pfc.set {} p x }

/-- A PFC frame of this port for ROCE_PRIO with a quanta (R491). -/
def pfcFrame (s : M8) (p quanta : Nat) : Bytes :=
  let prio := odNat s Od.ROCE_PRIO
  let body := natBe 6 0x0180C2000001 ++ slice (Config.portMac p) 0 6 ++ natBe 2 0x8808 ++ natBe 2 0x0101 ++ natBe 2 (2 ^ prio) ++
    ((List.range 8).flatMap fun k => natBe 2 (if k = prio then quanta else 0)) ++ zeros 26
  body ++ natLe 4 (crc32 body)

/-- The receive buffer of a port holds n bytes for ROCE_PRIO: XOFF goes out at PFC_XOFF_KIB, the cancel below it less
32 KiB (R491). -/
def pfcOccupied (s : M8) (p n : Nat) : M8 :=
  let x := { getPfc s p with occupied := n }
  let hi := odNat s Od.PFC_XOFF_KIB * 1024
  if !x.xoff && n ≥ hi then transmit (setPfc s p { x with xoff := true, xoffAt := s.clk.now }) p (.bytes (pfcFrame s p 0xFFFF))
  else if x.xoff && n < hi - 32768 then transmit (setPfc s p { x with xoff := false }) p (.bytes (pfcFrame s p 0))
  else setPfc s p x

/-- PFC_XOFF_REPEAT: XOFF is repeated every 50 us while occupancy stays high (R491). -/
def execPfcXoffRepeat (port occupied : Nat) (s : State) : Out :=
  live s fun m =>
    let m := pfcOccupied m port occupied
    let x := getPfc m port
    if x.xoff && m.clk.now ≥ x.xoffAt + 50000 then
      transmit (setPfc m port { x with xoffAt := m.clk.now }) port (.bytes (pfcFrame m port 0xFFFF))
    else m

/-- Every live path of a port may send again. -/
def pumpPort (s : M8) (p : Nat) : M8 := eachPathOn s p fun s c j => pump s c j

/-- A PFC frame arrives: its quanta for ROCE_PRIO pause or resume that priority, a quantum being 512 bit times at
800 Gb/s; frames for other priorities are counted (R491). -/
def pfcReceive (s : M8) (p mask quanta : Nat) : M8 :=
  let x := getPfc s p
  let prio := odNat s Od.ROCE_PRIO
  if mask.testBit prio then
    let x' := { x with until_ := s.clk.now + ceilDiv (quanta * 512) 800,
                       from_ := if s.clk.now < x.until_ then x.from_ else s.clk.now,
                       storm := x.storm && quanta != 0 }
    let s := setPfc s p x'
    if quanta = 0 then pumpPort s p else s
  else if mask ≠ 0 then setPfc s p { x with others := x.others + 1 } else s

/-- PFC_RECEIVE. -/
def execPfcReceive (port mask quanta : Nat) (s : State) : Out := live s fun m => pfcReceive m port mask quanta

/-- PFC_PAUSE_EXPIRE (R491). -/
def execPfcPauseExpire (port : Nat) (s : State) : Out :=
  live s fun m =>
    let x := getPfc m port
    if x.until_ ≠ 0 && m.clk.now ≥ x.until_ then pumpPort (setPfc m port { x with until_ := 0, storm := false }) port else m

/-- PFC_STORM: a port paused for PFC_STORM_MS without a break fails its paths with REASON 3 (R491). -/
def execPfcStorm (port : Nat) (s : State) : Out :=
  live s fun m =>
    let x := getPfc m port
    if m.clk.now < x.until_ && !x.storm && m.clk.now ≥ x.from_ + odNat m Od.PFC_STORM_MS * 1000000 then
      failPathsOn (odInc (setPfc m port { x with storm := true }) Od.PFC_STORMS) port 3
    else m

/-! ### Inbound writes (R501, R502) -/

/-- The inbound keys: (key, base, length, is the credit area) (R501). -/
def inboundKeys (s : M8) : List (Nat × Nat × Nat × Bool) :=
  ((List.range 4).map fun h => (Config.inboundKey h % 2 ^ 32, grammarArea h, 0x40000 + 512, false)) ++
    (if jobLoaded s && !s.job.audit then
      [(Config.inboundKey 4 % 2 ^ 24 + s.rem.creditGen * 2 ^ 24, s.job.creditArea, 8 * s.job.jr.ranks.length, true)] else [])

/-- INBOUND_KEYS as R497 lays records out (R501). -/
def inboundKeyBytes (s : M8) : Bytes :=
  (inboundKeys s).flatMap fun k => natLe 4 k.1 ++ natLe 2 0 ++ natLe 1 1 ++ zeros 1 ++ natLe 8 k.2.1 ++ natLe 8 k.2.2.1 ++ zeros 8

/-- Why an inbound write does not execute: a Remote Access Error, or an Invalid Request for a credit write of the wrong
shape (R502). whole tells that the bytes are one write and not a part of one. -/
def inboundNak (s : M8) (key addr len : Nat) (whole : Bool) : Option Nat :=
  match (inboundKeys s).find? fun k => k.1 == key && k.2.1 ≤ addr && addr + len ≤ k.2.1 + k.2.2.1 with
  | none => some 0x62
  | some k => if k.2.2.2 && !(whole && len == 8 && addr % 8 == 0) then some 0x61 else none

/-- Perform an inbound write that has passed (R162, R375, R502). -/
def inboundDo (s : M8) (key addr : Nat) (data : Bytes) (whole : Bool) : M8 :=
  match (inboundKeys s).find? fun k => k.1 == key && k.2.1 ≤ addr && addr + data.length ≤ k.2.1 + k.2.2.1 with
  | none => s
  | some k =>
    if k.2.2.2 then creditWrite s ((addr - k.2.1) / 8) (leNat data)
    else
      let off := addr - k.2.1
      let hub := (addr - 0x020100000000) / 0x4000000
      if off + data.length ≤ 0x40000 then writeMem s addr data
      else if whole && data.length = 8 && addr % 8 = 0 then tailWrite s hub ((off - 0x40000) / 8) (leNat data)
      else odInc s Od.GRAMMAR_TAIL_REJECTS

/-- Answer a requester on path j (R489). -/
def answer (s : M8) (c j syndrome psn : Nat) : M8 :=
  (txCommand s (pathInfo s c j).port (.packet c j psn (ackPacket s c j syndrome psn))).2

/-- An inbound RDMA WRITE packet (R489, R502): behind the expected PSN it is acknowledged and discarded; ahead of it a
sequence error is answered; else it is checked and executed. key, addr and dlen are the RETH's of a First or Only. -/
def inboundWrite (m : M8) (c j psn opcode key addr dlen : Nat) (data : Bytes) : M8 :=
  let x := getPath m c j
  let d := serialDiff 24 psn x.rx
  if x.state ≠ 1 || (connInfo m c).sr then m
  else if d ≥ 2 ^ 23 then answer (odInc m Od.DUP_INBOUND) c j 0 ((x.rx + 2 ^ 24 - 1) % 2 ^ 24)
  else if d ≠ 0 then answer m c j 0x60 x.rx
  else if !(opcode = 0x06 || opcode = 0x07 || opcode = 0x08 || opcode = 0x0A) then answer m c j 0x61 psn
  else
    let first := opcode = 0x06 || opcode = 0x0A
    let cur : Option (Nat × Nat × Nat) := if first then some (key, addr, dlen) else x.rxAddr
    match cur with
    | none => answer m c j 0x61 psn
    | some (k, a, left) =>
      let whole := opcode = 0x0A
      let last := opcode = 0x08 || opcode = 0x0A
      if !(connInfo m c).inbound then answer (odInc m Od.INBOUND_REJECTS) c j 0x62 psn
      else if data.length > left || (last && data.length ≠ left) then answer (odInc m Od.INBOUND_REJECTS) c j 0x61 psn
      else match inboundNak m k a (if first then left else data.length) whole with
        | some e => answer (odInc m Od.INBOUND_REJECTS) c j e psn
        | none =>
          let m := inboundDo m k a data whole
          let m := modPath m c j fun x => { x with
            rx := (psn + 1) % 2 ^ 24, rxAddr := if last then none else some (k, a + data.length, left - data.length) }
          answer m c j 0 psn

/-- INBOUND_WRITE. -/
def execInboundWrite (conn path psn opcode key addr dlen : Nat) (data : Bytes) (s : State) : Out :=
  live s fun m => inboundWrite m conn path psn opcode key addr dlen data

/-! ### Ethernet frames (R489, R490, R492) -/

/-- What a RoCE v2 frame holds: its priority, destination address, transport bytes, and the bytes its ICRC covers. -/
structure RoceFrame where
  pcp : Nat := 0
  dst : Bytes := []
  trans : Bytes := []
  masked : Bytes := []
  icrc : Nat := 0

/-- Read a frame as RoCE v2 (R489): VLAN tag or none, IPv4 or IPv6, UDP to 4791. -/
def roceParse (b : Bytes) : Option RoceFrame :=
  let tagged := beField b 12 2 == 0x8100
  let pcp := if tagged then beField b 14 2 / 2 ^ 13 else 0
  let o := if tagged then 18 else 14
  let et := beField b (o - 2) 2
  let ip := b.drop o
  let v4 := et == 0x0800
  let hl := if v4 then 20 else 40
  let proto := if v4 then beField ip 9 1 else beField ip 6 1
  let udp := ip.drop hl
  let n := beField udp 4 2
  if !(v4 || et == 0x86DD) || proto ≠ 17 || (v4 && beField ip 0 1 ≠ 0x45) || beField udp 2 2 ≠ 4791 || n < 24 || udp.length < n then
    none
  else
    let h := ip.take hl
    let hm := if v4 then patch (patch (patch h 1 [0xFF#8]) 8 [0xFF#8]) 10 [0xFF#8, 0xFF#8]
      else patch (patch h 0 [0x6F#8, 0xFF#8, 0xFF#8, 0xFF#8]) 7 [0xFF#8]
    let trans := (udp.drop 8).take (n - 12)
    some { pcp := pcp,
           dst := if v4 then zeros 10 ++ [0xFF#8, 0xFF#8] ++ slice ip 16 4 else slice ip 24 16,
           trans := trans,
           masked := List.replicate 8 0xFF#8 ++ hm ++ patch (udp.take 8) 6 [0xFF#8, 0xFF#8] ++ patch trans 4 [0xFF#8],
           icrc := leField udp (n - 4) 4 }

/-- A RoCE v2 packet for a local QPN (R489, R494). -/
def rocePacketIn (m : M8) (t : Bytes) : M8 :=
  let op := beField t 0 1
  let pad := bits (beField t 1 1) 5 4
  let q := beField t 5 3
  let psn := beField t 9 3
  let c := (q - 0x100000) / 4
  let j := q % 4
  if q < 0x100000 || c ≥ 4096 || (getPath m c j).state = 0 then odInc m Od.FOREIGN_DROPS
  else if op = 0x81 then odInc m Od.CNP_RX
  else if op = 0x11 then
    let syn := beField t 12 1
    if syn < 0x20 then roceAck m c j psn else roceNak m c j psn syn
  else
    let first := op = 0x06 || op = 0x0A
    let data := t.drop (if first then 28 else 12)
    inboundWrite m c j psn op (beField t 20 4) (beField t 12 8) (beField t 24 4) (data.take (data.length - pad))

/-- ETH_FRAME_RECEIVE (R481, R490 to R492): PFC, RoCE v2 to PORT_IP, or foreign; a frame whose FCS or ICRC fails is
dropped. occupied tells the bytes the receive buffer holds with it. -/
def ethFrame (m : M8) (p occupied : Nat) (frame : Bytes) : M8 :=
  let b := frame.take (frame.length - 4)
  if leField frame b.length 4 ≠ crc32 b then m
  else if beField b 0 6 = 0x0180C2000001 && beField b 12 2 = 0x8808 && beField b 14 2 = 0x0101 then
    let prio := odNat m Od.ROCE_PRIO
    pfcReceive m p (beField b 16 2) (beField b (18 + 2 * prio) 2)
  else match roceParse b with
    | none => odInc m Od.FOREIGN_DROPS
    | some f =>
      let own := odBytes m (Od.PORT_IP + p)
      if f.dst ≠ own ++ zeros (16 - own.length) then odInc m Od.FOREIGN_DROPS
      else
        let m := if f.pcp = odNat m Od.ROCE_PRIO then pfcOccupied m p occupied else m
        let (c, m) := police m p f.pcp 0 frame.length
        if c.isNone || f.icrc ≠ crc32 f.masked then m else rocePacketIn m f.trans

/-- ETH_FRAME_RECEIVE. -/
def execEthFrameReceive (port occupied : Nat) (frame : Bytes) (s : State) : Out :=
  live s fun m => if port < 32 && !(getPort m port).acsal then ethFrame m port occupied frame else m

/-! ### Acsal-SR (R508 to R510) -/

/-- The connection an SR payload names, when it is one with its sender and live. -/
def srConn (s : M8) (src : Nat) (b : Bytes) : Option Nat :=
  let c := leField b 4 4
  if c < 4096 && b.length ≥ 32 && connValid s c && (connInfo s c).sr && (pathInfo s c 0).peer == src && (getPath s c 0).state == 1 then
    some c else none

/-- Send one PSN of an SR path again (R509): RESENDS counts it; above RETRY_CNT resends the connection fails. -/
def srResend (s : M8) (c psn : Nat) : M8 :=
  let x := getPath s c 0
  if x.state ≠ 1 then s
  else if x.tries.get 0 psn ≥ (connInfo s c).retry then failPath s c 0 3 1
  else match x.msgs.find? fun m => m.begun && serialDiff 32 psn m.psn < m.pkts with
    | none => s
    | some pm => match findMsg s pm.msg with
      | none => s
      | some m =>
        let s := sendFrame s (pathInfo s c 0).peer 0x6 0 (srFrame s c m (serialDiff 32 psn pm.psn) pm.pkts psn)
        noteTx (setPath s c 0 { x with
          tries := x.tries.modify 0 psn (· + 1), triedAt := x.triedAt.put psn s.clk.now,
          resends := (x.resends + 1) % 2 ^ 32, active := s.clk.now }) m

/-- SR_SACK_RECEIVE (R509). -/
def srSack (m : M8) (src : Nat) (b : Bytes) : M8 :=
  match srConn m src b with
  | none => m
  | some c =>
    let x := getPath m c 0
    let cum := leField b 8 4
    if leField b 0 1 ≠ 2 || leField b 1 1 > 1 || leField b 2 2 ≠ 0 || leField b 24 8 ≠ 0 then m
    else if leField b 1 1 = 1 then failPath m c 0 4 4
    else if serialDiff 32 cum x.una > serialDiff 32 x.high x.una then odInc m Od.STALE_ACKS
    else
      let m := acked m c 0 cum
      let seen := ((List.range 64).filter fun i => bit (leField b 16 8) i).map fun i => (cum + 1 + i) % 2 ^ 32
      let m := modPath m c 0 fun x => { x with
        sacked := (seen ++ x.sacked.filter fun p => serialNewer 32 p cum).eraseDups,
        tries := x.tries.filter fun e => !serialNewer 32 cum e.1, triedAt := x.triedAt.filter fun e => !serialNewer 32 cum e.1 }
      let x := getPath m c 0
      let top := x.sacked.foldl (fun n p => max n (serialDiff 32 p cum)) 0
      let lost := ((List.range top).map fun i => (cum + i) % 2 ^ 32).filter fun p => !x.sacked.contains p
      let due (p : Nat) : Bool := match x.triedAt.find p with
        | some t => m.clk.now ≥ t + (connInfo m c).timeout
        | none => true
      pump ((lost.filter due).foldl (fun m p => srResend m c p) m) c 0

/-- SR_SACK_RECEIVE. -/
def execSrSackReceive (src : Nat) (payload : Bytes) (s : State) : Out := live s fun m => srSack m src payload

/-- SR_ACK_TIMEOUT: CUM has not changed for ACK_TIMEOUT_NS; every unacknowledged PSN is sent again (R509). -/
def execSrAckTimeout (conn : Nat) (s : State) : Out :=
  live s fun m =>
    let x := getPath m conn 0
    let i := connInfo m conn
    if i.sr && x.state = 1 && x.next ≠ x.una && m.clk.now ≥ x.active + i.timeout then
      (((List.range (serialDiff 32 x.next x.una)).map fun k => (x.una + k) % 2 ^ 32).filter fun p => !x.sacked.contains p).foldl
        (fun m p => srResend m conn p) m
    else m

/-- Send a SACK of connection c (R508). -/
def sendSack (s : M8) (c status bad : Nat) : M8 :=
  let x := getPath s c 0
  let map := (List.range 64).foldl (fun n i => n + b2n (x.got.contains ((x.rx + 1 + i) % 2 ^ 32)) * 2 ^ i) 0
  let s := setPath s c 0 { x with toSack := 0 }
  sendFrame s (pathInfo s c 0).peer 0x6 0 (natLe 1 2 ++ natLe 1 status ++ zeros 2 ++ natLe 4 (pathInfo s c 0).qpn ++ natLe 4 x.rx ++
    natLe 4 bad ++ natLe 8 map ++ zeros 8)

/-- CUM moves past what has been received; fuel bounds it. -/
def cumFuel : Nat → Path → Path
  | 0, x => x
  | f + 1, x => if x.got.contains x.rx then cumFuel f { x with got := x.got.filter (· != x.rx), rx := (x.rx + 1) % 2 ^ 32 } else x

/-- SR_WRITE_RECEIVE (R502, R510): each PSN is executed once; a SACK goes after 16 frames, at once on a gap or ACKREQ. -/
def srWrite (m : M8) (src : Nat) (b : Bytes) : M8 :=
  match srConn m src b with
  | none => m
  | some c =>
    let x := getPath m c 0
    let psn := leField b 8 4
    let n := leField b 24 4
    let d := serialDiff 32 psn x.rx
    let ackReq := bit (leField b 1 1) 0
    if leField b 0 1 ≠ 1 || leField b 1 1 > 1 || leField b 2 2 ≠ 0 || leField b 28 4 ≠ 0 || n = 0 || n > 4096 ||
        b.length ≠ 32 + n then m
    else if d ≥ 2 ^ 31 || x.got.contains psn then sendSack (odInc m Od.DUP_INBOUND) c 0 0
    else if d ≥ 65 then m
    else
      let nak := if !(connInfo m c).inbound then some 0x62 else inboundNak m (leField b 12 4) (leField b 16 8) n true
      match nak with
      | some _ => sendSack (odInc m Od.INBOUND_REJECTS) c 1 psn
      | none =>
        let m := inboundDo m (leField b 12 4) (leField b 16 8) (b.drop 32) true
        let gap := d != 0 && x.got.all fun p => serialDiff 32 p x.rx < d
        let m := modPath m c 0 fun x => cumFuel 66 { x with
          got := psn :: x.got, toSack := x.toSack + 1, sackFrom := if x.toSack = 0 then m.clk.now else x.sackFrom }
        if ackReq || gap || (getPath m c 0).toSack ≥ 16 then sendSack m c 0 0 else m

/-- SR_WRITE_RECEIVE. -/
def execSrWriteReceive (src : Nat) (payload : Bytes) (s : State) : Out := live s fun m => srWrite m src payload

/-- SR_SACK_TIMER: a SACK goes within 2 us of a frame (R510). -/
def execSrSackTimer (conn : Nat) (s : State) : Out :=
  live s fun m => if (connInfo m conn).sr && (getPath m conn 0).toSack ≠ 0 then sendSack m conn 0 0 else m

end Machine
end Sys2Proof
end

