-- ==== Sys2Proof/Machine/Groups.lean ====
section
/-!
DEFINITION. Sys2Proof/Machine/Groups.lean: groups, roles, heartbeats, faults, takeover, rollback and swaps (R513 to R537).
-/
namespace Sys2Proof
namespace Machine

def modGrp (s : M8) (f : Group → Group) : M8 := { s with grp := f s.grp }

/-! ### Messages (R518) -/

/-- Does a recovery message of a type pass: its JOB_TAG is the loaded job's, its RB_ID not older than the receiver's? -/
def recOk (s : M8) (b : Bytes) (type : Nat) : Bool :=
  b.length ≥ 12 && leField b 0 1 == type && leField b 4 4 == jobTag s && !serialNewer 32 s.grp.rbId (leField b 8 4)

def sendRec (s : M8) (dst : Nat) (payload : Bytes) : M8 := sendFrame s dst 0x4 0 payload

/-- An answer has come: its message is not sent again. -/
def dropAwait (s : M8) (kind key dst : Nat) : M8 :=
  modGrp s fun g => { g with awaits := g.awaits.filter fun a => !(a.kind == kind && a.key == key && a.dst == dst) }

/-- RECOVERY_RESEND: messages unanswered for 100 us are sent again (R518). -/
def execRecoveryResend (s : State) : Out :=
  live s fun m =>
    let due := m.grp.awaits.filter fun a => m.clk.now ≥ a.time + 100000
    let m := modGrp m fun g => { g with awaits := g.awaits.map fun a =>
      if m.clk.now ≥ a.time + 100000 then { a with time := m.clk.now } else a }
    due.foldl (fun m a => sendRec m a.dst a.payload) m

/-- Body of ROLE_REQ and ROLE_ACK. -/
def roleBody (role reason result boundary : Nat) : Bytes :=
  natLe 2 role ++ natLe 1 reason ++ natLe 1 result ++ natLe 6 boundary ++ zeros 2

/-- Roles neighbouring role i. -/
def nextRole (s : M8) (i : Nat) : Nat := (i + 1) % max 1 (groupW s)

def prevRole (s : M8) (i : Nat) : Nat := (i + max 1 (groupW s) - 1) % max 1 (groupW s)

/-! ### Heartbeats (R519, R522) -/

/-- To whom the holder of the device's roles sends HEARTBEATs. -/
def hbTargets (s : M8) : List Nat :=
  ((s.grp.own.flatMap fun i => [roleHolder s (prevRole s i), roleHolder s (nextRole s i)]) ++ [s.grp.master]).eraseDups.filter
    fun a => a != ownAddr s && a != 0xFFFF

/-- HEARTBEAT_SEND: every HB_US, to the neighbours' holders and the acting master (R519). -/
def execHeartbeatSend (s : State) : Out :=
  live s fun m =>
    if m.grp.own.isEmpty || m.clk.now < m.grp.hbSent + odNat m Od.HB_US * 1000 then m
    else
      let m := modGrp m fun g => { g with hbSent := m.clk.now }
      let b := recoveryHeader m 1 (ownRole m) ++ natLe 4 (unsigned 32 m.grp.slack) ++ natLe 1 (jobState m) ++ zeros 3
      (hbTargets m).foldl (fun m a => sendRec m a b) m

/-- HB_MISS * HB_US in ns. -/
def hbLimit (s : M8) : Nat := odNat s Od.HB_MISS * odNat s Od.HB_US * 1000

/-- Has a device not been heard for the limit? -/
def silent (s : M8) (a : Nat) : Bool := s.clk.now ≥ s.grp.hb.get 0 a + hbLimit s

/-- Does a job run, so that heartbeats are watched? -/
def jobRuns (s : M8) : Bool := jobState s = 3 || jobState s = 4

/-- HEARTBEAT_MISS: the partner's holder declares a KIND 1 fault of the role's silent holder (R519). -/
def execHeartbeatMiss (role : Nat) (s : State) : Out :=
  live s fun m =>
    let h := roleHolder m role
    if role < groupW m && jobRuns m && !m.grp.fenced && holdsRole m (nextRole m role) && h ≠ ownAddr m && h ≠ 0xFFFF && silent m h &&
        !m.grp.pastFaults.contains (role, 1) then
      sendFault (modGrp m fun g => { g with pastFaults := (role, 1) :: g.pastFaults }) role 1
    else m

/-- SELF_FENCE: a holder hears none of its neighbours and the acting master while a job runs (R522). -/
def execSelfFence (s : State) : Out :=
  live s fun m =>
    let ts := hbTargets m
    if jobRuns m && !m.grp.own.isEmpty && !m.grp.fenced && !ts.isEmpty && ts.all (silent m) then fenceSelf m else m

/-- CANCEL_ACK_TIMEOUT: a home member that has not answered CANCEL for 1 ms is a KIND 5 fault the owner declares (R173,
R519). -/
def execCancelAckTimeout (s : State) : Out :=
  live s fun m =>
    let due := m.job.cancels.filter fun c => m.clk.now ≥ c.time + 1000000
    let roles := (due.filterMap fun c => roleOfAddr m c.home).eraseDups
    roles.foldl (fun m i =>
      if m.grp.pastFaults.contains (i, 5) then m
      else sendFault (modGrp m fun g => { g with pastFaults := (i, 5) :: g.pastFaults }) i 5) m

/-! ### The coordinator (R521, R535) -/

/-- Is the spare free: its position has a holder that stands by and no request is out (R521, R533)? -/
def spareIdle (s : M8) : Bool :=
  s.grp.spareAddr != 0xFFFF && (s.grp.roles.get { holder := s.grp.spareAddr, state := 4 } 63).state == 4 && s.grp.wanted.isEmpty

/-- The spare is busy (R537). -/
def spareBusy (s : M8) : M8 := setRole s 63 { holder := s.grp.spareAddr, state := 5 }

/-- Ask a device to take a role (R521, R530, R533). -/
def sendRoleReq (s : M8) (dst role reason boundary : Nat) : M8 :=
  let s := modGrp s fun g => { g with wanted := (role, reason) :: g.wanted.filter fun w => w.1 != role }
  sendAwait s 3 role dst (recoveryHeader s 3 (ownRole s) ++ roleBody role reason 0 boundary)

/-- The step the timebase is in. -/
def nowStep (s : M8) : Nat := s.pav.tb / 65536

/-- The holder of job index 0; while that role is the faulted one, its partner's holder (R521). pos is the faulted
position. -/
def jobCoordinator (s : M8) (pos : Nat) : Nat :=
  if memberAt s 0 = pos then
    match roleOfAddr s pos with
    | some i => roleHolder s (nextRole s i)
    | none => holderOf s (memberAt s 1)
  else holderOf s (memberAt s 0)

/-- Members and spares of the job: every holder of a member position, and the spare positions of the cable map. -/
def jobDevices (s : M8) : List Nat :=
  ((s.job.members.map (holderOf s)) ++ ((positions s).filter Position.spare).map Position.addr).eraseDups.filter (· != 0xFFFF)

/-- The job coordinator sends ROLLBACK with RB_ID one above the last (R521); it is sent to itself as well. -/
def sendRollback (s : M8) (role group standin : Nat) : M8 :=
  let rb := (s.grp.rbId + 1) % 2 ^ 32
  let b := natLe 1 5 ++ natLe 1 0 ++ natLe 2 (ownRole s) ++ natLe 4 (jobTag s) ++ natLe 4 rb ++
    natLe 2 role ++ natLe 1 group ++ zeros 1 ++ natLe 2 standin ++ zeros 6
  (jobDevices s).foldl (fun s a => sendRec s a b) s

/-- How many roles a device holds. -/
def rolesHeld (s : M8) (a : Nat) : Nat := ((List.range (groupW s)).filter fun i => roleHolder s i == a).length

/-- ROLE_ABSORB: with no spare free the holder of the partner absorbs the role; a third role fails the job with 0x0014
(R535). -/
def absorbRole (s : M8) (role : Nat) : M8 :=
  let h := roleHolder s (nextRole s role)
  if rolesHeld s h ≥ 2 then failJob s 0x0014 (lowestUnsealed s)
  else sendRoleReq s h role 1 (nowStep s)

/-- FAULT_RECEIVE (R521, R535): the group coordinator asks the spare, or the partner's holder, to take the role, and forwards
the FAULT to the job coordinator. -/
def faultReceive (m : M8) (_src : Nat) (b : Bytes) : M8 :=
  let role := leField b 12 2
  if !recOk m b 2 || b.length < 24 || leField b 14 1 ≠ bits (ownAddr m) 9 6 || role ≥ groupW m || coordFor m role ≠ ownAddr m ||
      (getRole m role).holder = 0xFFFF && m.grp.roles.has role then m
  else
    let jc := jobCoordinator m (roleAddr m role)
    let m := setRole m role { holder := 0xFFFF, state := 0xFF }
    let m := if jc = ownAddr m then m else sendRec m jc b
    if spareIdle m then spareBusy (sendRoleReq m m.grp.spareAddr role 1 (nowStep m))
    else absorbRole m role

/-- FAULT_RECEIVE. -/
def execFaultReceive (src : Nat) (payload : Bytes) (s : State) : Out := live s fun m => faultReceive m src payload

/-! ### Taking a role (R523, R530 to R532) -/

/-- Answer a ROLE_REQ. -/
def answerRole (s : M8) (src role reason result boundary : Nat) : M8 :=
  sendRec s src (recoveryHeader s 4 (ownRole s) ++ roleBody role reason result boundary)

/-- Does this device take or give another role already (R532)? -/
def busyWithOther (s : M8) (role : Nat) : Bool :=
  (s.grp.swap.any fun w => w.role != role) || (s.grp.takenRole.any fun r => r != role)

/-- Accept a request: a fault's takeover stops an audit and waits for the ROLLBACK (R296, R523); a swap's takes effect at
its boundary, for the device that gives the role as for the one that takes it (R530, R531). -/
def acceptRole (m : M8) (src role reason boundary : Nat) : M8 :=
  if reason = 1 then
    let m := auditAbort { m with dbg := { m.dbg with recovery := true } }
    let m := modGrp m fun g => { g with takenRole := some role, ackAt := m.clk.now }
    answerRole m src role reason 0 boundary
  else
    let giving := holdsRole m role
    let peer := if giving then (if reason = 4 then roleAddr m role else m.grp.spareAddr) else roleHolder m role
    let m := modGrp m fun g => { g with swap := some {
      role := role, reason := reason, boundary := boundary, giving := giving, peer := peer, time := m.clk.now } }
    let m := if giving then setRole m role { getRole m role with holder := ownAddr m, state := 3 } else m
    answerRole m src role reason 0 boundary

/-- ROLE_REQ_RECEIVE (R523, R531, R532): of two requests for one role that cross, the one from the lower address stands. -/
def roleReq (m : M8) (src : Nat) (b : Bytes) : M8 :=
  let role := leField b 12 2
  let reason := leField b 14 1
  let boundary := leField b 16 6
  if !recOk m b 3 || b.length < 24 || role ≥ groupW m || reason = 0 || reason > 4 then m
  else if busyWithOther m role then answerRole m src role reason 2 boundary
  else if m.grp.awaits.any fun a => a.kind == 3 && a.key == role && a.dst == src then
    if src < ownAddr m then answerRole (dropAwait m 3 role src) src role reason 0 boundary
    else answerRole m src role reason 1 boundary
  else acceptRole m src role reason boundary

/-- ROLE_REQ_RECEIVE. -/
def execRoleReqReceive (src : Nat) (payload : Bytes) (s : State) : Out := live s fun m => roleReq m src payload

/-- ROLE_ACK_RECEIVE (R521): the coordinator records the new holder, and the job coordinator sends ROLLBACK; an
acknowledgement of another group reaches it from that group's coordinator (assumption log 45). -/
def roleAck (m : M8) (src : Nat) (b : Bytes) : M8 :=
  let role := leField b 12 2
  let reason := leField b 14 1
  if !recOk m b 4 || b.length < 24 then m
  else if !sameGroup src (ownAddr m) then
    if reason = 1 && leField b 15 1 = 0 then
      let spare := (((positions m).find? fun p => sameGroup p.addr src && p.spare).map Position.addr).getD 0xFFFF
      sendRollback m role (bits src 9 6) spare
    else m
  else
    let asked := m.grp.wanted.any fun w => w.1 == role
    let m := dropAwait m 3 role src
    if !asked then m
    else
      let m := modGrp m fun g => { g with wanted := g.wanted.filter fun w => w.1 != role }
      if leField b 15 1 ≠ 0 then (if src = m.grp.spareAddr then setRole m 63 { holder := src, state := 4 } else m)
      else if reason = 1 then
        let st := if src = m.grp.spareAddr then 1 else 2
        let m := setRole m role { holder := src, state := st }
        let m := if st = 2 then odInc m Od.ABSORBED else m
        let jc := jobCoordinator m (roleAddr m role)
        if jc = ownAddr m then sendRollback m role (bits (ownAddr m) 9 6) src else sendRec m jc b
      else
        let m := if reason = 2 then odInc m Od.STRAGGLER_SWAPS else m
        setRole m role { getRole m role with holder := roleHolder m role, state := 3 }

/-- ROLE_ACK_RECEIVE. -/
def execRoleAckReceive (src : Nat) (payload : Bytes) (s : State) : Out := live s fun m => roleAck m src payload

/-! ### Intents and mirrors (R515, R516) -/

/-- SEAL_INTENT_RECEIVE: a part is stored and answered (R516); intents of steps whose buffer has been reused are let go. -/
def sealIntent (m : M8) (src : Nat) (b : Bytes) : M8 :=
  let part := leField b 12 2
  let parts := leField b 14 2
  let n := leField b 24 6
  let r := leField b 30 2
  if !recOk m b 6 || b.length < 80 || part ≥ parts then m
  else
    let i := (m.grp.intents.find? fun i => i.step == n && i.rank == r).getD { step := n, rank := r, parts := parts }
    let i := { i with got := i.got.put part (b.drop 80), commit := slice b 16 64, parts := parts }
    let m := modGrp m fun g => { g with intents := i :: g.intents.filter fun x =>
      !(x.step == n && x.rank == r) && !(x.rank == r && x.step + (rankOf m r).nbuf < n) }
    sendRec m src (recoveryHeader m 7 (ownRole m) ++ natLe 6 n ++ natLe 2 r ++ natLe 2 part ++ zeros 2)

/-- SEAL_INTENT_RECEIVE. -/
def execSealIntentReceive (src : Nat) (payload : Bytes) (s : State) : Out := live s fun m => sealIntent m src payload

/-- INTENT_ACK_RECEIVE (R516). -/
def execIntentAckReceive (src : Nat) (payload : Bytes) (s : State) : Out :=
  live s fun m =>
    let n := leField payload 12 6
    let r := leField payload 18 2
    let part := leField payload 20 2
    if !recOk m payload 7 || payload.length < 24 then m
    else modGrp (dropAwait m 6 (intentKey n r part) src) fun g => { g with acks := g.acks.map fun x =>
      if x.step == n && x.rank == r && (x.acks.contains (src, part)) == false then { x with acks := (src, part) :: x.acks } else x }

/-- Is an intent complete: every part is held? -/
def IntentRec.complete (i : IntentRec) : Bool := (List.range i.parts).all fun k => i.got.has k

/-- The exception bytes of a complete intent. -/
def IntentRec.exc (i : IntentRec) : Bytes := (List.range i.parts).flatMap fun k => (i.got.find k).getD []

/-- Put bytes into a mirror from an offset on. -/
def putMirror (m : Sparse Byte) : Nat → Bytes → Sparse Byte
  | _, [] => m
  | k, b :: bs => putMirror (m.put k b) (k + 1) bs

/-- MIRROR_RECEIVE: a part of a role's mirror (R515). -/
def execMirrorReceive (_src : Nat) (payload : Bytes) (s : State) : Out :=
  live s fun m =>
    let part := leField payload 12 1
    let off := leField payload 16 8
    let data := payload.drop 24
    if !recOk m payload 9 || payload.length < 24 then m
    else if part = 0 then modGrp m fun g => { g with mirrorJob := putMirror g.mirrorJob off data, jobPartHeld := true }
    else if part = 1 then modGrp m fun g => { g with mirrorMap := putMirror g.mirrorMap off data }
    else if part = 2 then modGrp m fun g => { g with mirrorHot := putMirror g.mirrorHot off data }
    else m

/-! ### Rollback (R526 to R529) -/

/-- The ranks whose owner is the position of a role of this group. -/
def roleRanks (s : M8) (role : Nat) : List Nat :=
  (List.range s.job.jr.ranks.length).filter fun r => roleOfAddr s (memberAt s r) == some role

/-- INTENT_REWRITE: the new holder of a role sets S_r of each of its ranks to the highest step with a complete intent, and
writes exceptions and body of the intended steps whose buffers are not yet released for their next use again, in step
order; the seals follow (R527). -/
def intentRewrite (s : M8) (role : Nat) : M8 :=
  (roleRanks s role).foldl (fun s r =>
    let is := (s.grp.intents.filter fun i => i.rank == r && i.complete)
    let top := is.foldl (fun (n : Option Nat) i => some (max (n.getD 0) i.step)) none
    match top with
    | none => s
    | some n =>
      let s := setRank s r { getRank s r with sealedTo := some (max n ((getRank s r).sealedTo.getD 0)) }
      let again := (List.range ((rankOf s r).nbuf + 1)).reverse.filterMap fun d =>
        if d ≤ n then is.find? fun i => i.step == n - d && !bufFree s r (i.step + (rankOf s r).nbuf) else none
      again.foldl (fun s i =>
        let s := setAsm s { step := i.step, rank := r, bodyDone := true, rewrite := true, record := i.commit, excData := i.exc }
        let (a, s) := commitWrite s r (excAddr s i.step r) i.exc (.body i.step r)
        let (b, s) := commitWrite s r (recordAddr s i.step r) (i.commit.take 56) (.body i.step r)
        let x := getAsm s i.step r
        setAsm s { x with fencePending := x.fencePending + a + b }) s) s

/-- A member's roles after a ROLLBACK has named the new holder of a role of its group (R514, R525, R526). -/
def moveRole (s : M8) (role standin : Nat) : M8 :=
  let absorbs := rolesHeld s standin > 0 && standin != s.grp.spareAddr
  let s := setRole s role { holder := standin, state := if absorbs then 2 else 1 }
  let s := if standin = s.grp.spareAddr then spareBusy s else s
  if standin = ownAddr s then
    let s := modGrp s fun g => { g with own := if g.own.contains role then g.own else g.own ++ [role], isSpare := false,
                                        fenced := false, takenRole := some role, rebuilding := true }
    let s := if s.safe.faultN || s.safe.reacting then s else odSet s Od.SAFETY_STATE 0
    let (left, s) := drawFree s
    intentRewrite (odInc (odSet s Od.REBUILD_LEFT left) Od.STANDINS) role
  else modGrp s fun g => { g with own := g.own.filter (· != role) }

/-- The position a (group, role) of a ROLLBACK names, in the cable map. -/
def positionIn (s : M8) (group role : Nat) : Nat :=
  let base := ownAddr s / 1024 * 16 + group
  let ps := ((positions s).filter fun p => p.addr / 64 == base && !p.spare).foldl (fun l p => insertPos p l) []
  (ps.getD role {}).addr

/-- Step 1 of R526: queued dispatches, fetches and packed slots not yet written go, their cells return; writes already
issued continue. Conflicting batches start over (assumption log 46). -/
def discardWork (s : M8) : M8 :=
  let kept := s.job.packed.filter PackedSlot.issued
  let holds := kept.filterMap PackedSlot.hold
  let s := (List.range 8).foldl (fun s k =>
    let x := getPool s (k / 2) (k % 2)
    let keep (h : Holding) : Bool := h.names.any (fun o => o != 1 && o < 0x80) || holds.any fun q => k == 2 * q.1 && q.2.1 == h.id
    let gone := (x.held.filter fun h => !keep h).foldl (fun n h => n + h.cells) 0
    setPool s (k / 2) (k % 2) { x with
      used := x.used - gone, held := x.held.filter keep, waiting := x.waiting.filter fun q => q.owner != 1 && q.owner < 0x80 }) s
  let s := (List.range 4).foldl (fun s h => modCodec s h fun x => { x with
    hits := [], fills := [],
    lanes := x.lanes.filter fun l => match l.2 with
      | .fw _ _ _ _ _ _ _ _ _ => true
      | _ => false }) s
  let s := modJob s fun j => { j with
    packed := kept, never := [], cancels := [],
    asm := j.asm.map fun a => if a.conflict then { step := a.step, rank := a.rank } else { a with refused := false, cancelSent := false } }
  { s with safe := { s.safe with held := [] } }

/-- Reload the tiles of the job from the image copy, and start them in one hub clock (R526). -/
def reloadTiles (s : M8) : M8 :=
  let ts := (maskTiles s.job.img.tileMask).filter fun t => (getTile s t).st != .quarantined
  let s := ts.foldl (fun s t => loadTile s s.job.imgBytes t) s
  ts.foldl (fun s t => startTile s t) s

/-- SEAL_MARK entries: rank and last sealed step, the step before FIRST_STEP where none is sealed. -/
def markOf (s : M8) (r : Nat) : Nat := ((getRank s r).sealedTo).getD (s.job.jr.firstStep - 1)

/-- Send the marks of the owned ranks to every device of the job, and note them (R526). -/
def sendMarks (s : M8) : M8 :=
  let own := ownedRanks s
  let s := modGrp s fun g => { g with marks := own.foldl (fun m r => m.put r (some (markOf s r))) g.marks }
  (List.range (ceilDiv own.length 574)).foldl (fun s i =>
    let rs := (own.drop (574 * i)).take 574
    let b := recoveryHeader s 8 (ownRole s) ++ natLe 2 rs.length ++ zeros 2 ++ rs.flatMap fun r => natLe 2 r ++ natLe 6 (markOf s r)
    ((jobDevices s).filter (· != ownAddr s)).foldl (fun s a => sendRec s a b) s) s

/-- ROLLBACK_RECEIVE: a newer RB_ID starts the steps of R526 (R529); event rings record from then on (R609). -/
def rollbackReceive (m : M8) (b : Bytes) : M8 :=
  let role := leField b 12 2
  let group := leField b 14 1
  let standin := leField b 16 2
  if !recOk m b 5 || b.length < 24 || !serialNewer 32 (leField b 8 4) m.grp.rbId || !jobRuns m then m
  else
    let m := modGrp m fun g => { g with rbId := leField b 8 4, rollback := true, rollbackAt := m.clk.now, marks := [] }
    let m := odInc { m with dbg := { m.dbg with recovery := true } } Od.ROLLBACKS
    let m := discardWork m
    let m := if group = bits (ownAddr m) 9 6 then moveRole m role standin
      else modJob m fun j => { j with standins := j.standins.put (positionIn m group role) standin }
    if m.grp.fenced then m else reloadTiles (sendMarks m)

/-- ROLLBACK_RECEIVE. -/
def execRollbackReceive (_src : Nat) (payload : Bytes) (s : State) : Out := live s fun m => rollbackReceive m payload

/-- SEAL_MARK_RECEIVE: marks of a rollback, or of a swap in which this device takes the role (R526, R531). -/
def execSealMarkReceive (_src : Nat) (payload : Bytes) (s : State) : Out :=
  live s fun m =>
    let n := leField payload 12 2
    if !recOk m payload 8 || payload.length < 16 + 8 * n then m
    else (List.range n).foldl (fun m i =>
      let r := leField payload (16 + 8 * i) 2
      let st := leField payload (18 + 8 * i) 6
      let x := getRank m r
      let m := if m.grp.rollback then modGrp m fun g => { g with marks := g.marks.put r (some st) } else m
      if st < m.job.jr.firstStep || x.sealedTo.any (st ≤ ·) then m else setRank m r { x with sealedTo := some st }) m

/-- ROLLBACK_RESTART: with a mark for every rank the member restarts at R_m, one above the lowest: windows of targets from
R_m on open anew (R526). -/
def execRollbackRestart (s : State) : Out :=
  live s fun m =>
    let ranks := List.range m.job.jr.ranks.length
    let marks := ranks.map fun r => (m.grp.marks.find r).join
    if !m.grp.rollback || !jobRuns m || marks.any Option.isNone then m
    else
      let low := (marks.filterMap id).foldl (fun (n : Option Nat) x => some (match n with
        | some k => min k x
        | none => x)) none
      let rm := 1 + low.getD 0
      let m := modGrp (odSet m Od.LAST_RB_STEP rm) fun g => { g with rollback := false, restart := rm }
      { m with pav := { m.pav with wins := m.pav.wins.filter fun w => w.target < rm } }

/-- REBUILD_DONE: the role's namespace stands on the stand-in's own flash (R524). -/
def execRebuildDone (s : State) : Out :=
  live s fun m => if m.grp.rebuilding then odSet (modGrp m fun g => { g with rebuilding := false }) Od.REBUILD_LEFT 0 else m

/-! ### Stragglers and swaps (R530, R531, R533) -/

/-- The median of SLACK_PU over the group. -/
def slackMedian (s : M8) : Int :=
  let xs := (s.grp.slacks.map fun p => signed 32 p.2)
  let ins (x : Int) (l : List Int) : List Int := l.takeWhile (· ≤ x) ++ x :: l.dropWhile (· ≤ x)
  let sorted := xs.foldl (fun l x => ins x l) []
  sorted.getD (sorted.length / 2) 0

/-- The first step boundary from now on. -/
def nextBoundary (s : M8) : Nat := nowStep s + 1

/-- STRAGGLER_DETECT: the coordinator asks the spare, and tells the holder, to swap (R530, R531). -/
def execStragglerDetect (role : Nat) (s : State) : Out :=
  live s fun m =>
    let h := roleHolder m role
    if role < groupW m && m.grp.master = ownAddr m && jobRuns m && m.grp.lowSteps.get 0 h ≥ odNat m Od.STRAG_STEPS &&
        slackMedian m ≥ 2 * (odNat m Od.STRAG_SLACK_PU : Int) && spareIdle m then
      let b := nextBoundary m
      let m := spareBusy (sendRoleReq m m.grp.spareAddr role 2 b)
      sendAwait m 3 (role + 64) h (recoveryHeader m 3 (ownRole m) ++ roleBody role 2 0 b)
    else m

/-- Are all targets of a role below n sealed on its ranks? -/
def roleSealedTo (s : M8) (role n : Nat) : Bool :=
  (roleRanks s role).all fun r => n ≤ s.job.jr.firstStep || sealedTo s (n - 1) r

/-- SWAP_BOUNDARY: at the boundary the new holder takes the role; once the old one has sealed its last target it is the
standby spare (R531). -/
def execSwapBoundary (s : State) : Out :=
  live s fun m =>
    match m.grp.swap with
    | none => m
    | some w =>
      let last := w.boundary + m.job.img.lead
      if nowStep m < w.boundary then m
      else if w.giving then
        if roleSealedTo m w.role last then
          setRole (modGrp m fun g => { g with swap := none, own := g.own.filter (· != w.role), isSpare := true,
                                              takenRole := none }) w.role { holder := w.peer, state := if w.reason = 4 then 0 else 1 }
        else m
      else
        let m := modGrp m fun g => { g with own := if g.own.contains w.role then g.own else g.own ++ [w.role], isSpare := false }
        let m := setRole m w.role { holder := ownAddr m, state := if w.reason = 4 then 0 else 1 }
        if roleSealedTo m w.role last then modGrp m fun g => { g with swap := none } else m

/-- A planned swap, or with RETURN a return of the role to its own position (R525, R533, R537); other bits are 0. -/
def roleCmd (m : M8) (v : Nat) : M8 :=
  let role := v % 64
  let back := v.testBit 8
  let b := nextBoundary m
  let dst := if back then roleAddr m role else m.grp.spareAddr
  let m := sendRoleReq m dst role (if back then 4 else 3) b
  let h := roleHolder m role
  let m := if h = dst then m
    else sendAwait m 3 (role + 64) h (recoveryHeader m 3 (ownRole m) ++ roleBody role (if back then 4 else 3) 0 b)
  if back then m else spareBusy m

/-- The abort a write of ROLE_CMD meets (R537). -/
def roleCmdAbort (m : M8) (v : Nat) : Option Nat :=
  if v / 512 ≠ 0 || bits v 7 6 ≠ 0 || v % 64 ≥ groupW m then some 0x06090030
  else if !v.testBit 8 && !spareIdle m then some 0x08000021 else none

/-- ROLE_CMD (R533). -/
def execRoleCmd (value : Nat) (s : State) : Out :=
  live s fun m => match roleCmdAbort m value with
    | some a => emit m (.fwStatus a)
    | none => roleCmd m value

/-! ### Slack (R530, R536) -/

/-- This member's margins over the targets whose commit window opened in the last step (R530). -/
def ownSlack (s : M8) : Int :=
  let ws := (List.range s.job.img.windows.length).filterMap fun i => (windowOf s i).bind fun w => if w.kind = 3 then some w else none
  let ms := ws.flatMap fun w => s.job.fenceAt.filterMap fun e =>
    let o := openPoint w e.1
    if o > (s.pav.tb : Int) - 65536 && o ≤ (s.pav.tb : Int) then some (o - (e.2 : Int)) else none
  ms.foldl (fun (n : Option Int) x => some (match n with
    | some k => min k x
    | none => x)) none |>.getD s.grp.slack

/-- Bytes of the job part of a role's mirror: its sample-table entries (R149, R515). -/
def jobPartBytes (s : M8) (role : Nat) : Nat :=
  16 * ((List.range s.job.sampleCount).filter fun k => sampleHome s k == roleAddr s role).length

/-- RECOVERY_SLACK_NS for a single loss of a role's holder (R536): bytes over GB/s are ns. -/
def recoverySlack (s : M8) : Int :=
  let mt : Nat := odNat s Od.LEAD_MARGIN_PU * s.pav.periodFx / 2 ^ 32
  let tp := ceilDiv (jobPartBytes s (ownRole s)) (max 1 (odNat s Od.MIRROR_GBPS))
  (mt : Int) - (2000000 + 3000000 + tp + odNat s Od.SHARE_NS_EC : Nat)

/-- RECOVERY_SLACK_EVAL: each step, the margins are evaluated and low slacks counted (R530, R536). -/
def execRecoverySlackEval (s : State) : Out :=
  live s fun m =>
    if !jobRuns m || !m.pav.running || m.grp.slackSeen = nowStep m then m
    else
      let own := ownSlack m
      let m := modGrp m fun g => { g with slackSeen := nowStep m, slack := own, slacks := g.slacks.put (ownAddr m) (unsigned 32 own) }
      let m := modGrp m fun g => { g with lowSteps := g.slacks.foldl (fun l p =>
        l.set 0 p.1 (if signed 32 p.2 < (odNat m Od.STRAG_SLACK_PU : Int) then l.get 0 p.1 + 1 else 0)) g.lowSteps }
      odSet m Od.RECOVERY_SLACK_NS (unsigned 64 (recoverySlack m))

/-- GROUP_ROLES (R537): 64 records, the spare position's last. -/
def groupRoles (s : M8) : Bytes :=
  (List.range 64).flatMap fun i =>
    let r : RoleRec := match s.grp.roles.find i with
      | some r => r
      | none => if i = 63 then { holder := sparePosition s, state := if sparePosition s = 0xFFFF then 0xFF else 4 }
                else if i < groupW s then { holder := roleAddr s i, state := 0 } else { holder := 0xFFFF, state := 0xFF }
    natLe 2 r.holder ++ natLe 1 r.state ++ zeros 1

end Machine
end Sys2Proof
end

