-- ==== Sys2Proof/Machine/Safety.lean ====
section
/-!
DEFINITION. Sys2Proof/Machine/Safety.lean: the safety controller (R538 to R560): held notices, canaries, the reaction, the
commit watchdog, FAULT_N, the heartbeat, the self-test.
-/
namespace Sys2Proof
namespace Machine

def modSafe (s : M8) (f : Safety → Safety) : M8 := { s with safe := f s.safe }

/-- The cells of a tile in service. -/
def liveCells (x : Tile) : List Nat := (List.range 16).filter fun c => !x.retired.testBit c

/-- May a held notice go: every cell of its tile and its hub's canary have passed a run that started after it was issued
(R542)? -/
def heldReady (s : M8) (h : HeldNotice) : Bool :=
  (liveCells (getTile s h.tile)).all (fun c => (getTile s h.tile).cellCanary.get 0 c > h.heldAt) &&
    s.safe.hubCanary.get 0 h.hub > h.heldAt

/-- SLOT_DONE_HOLD_RELEASE (R542): the held notice at a place of the list is sent to the owner; a fenced member sends none
(R522). -/
def execSlotDoneHoldRelease (index : Nat) (s : State) : Out :=
  live s fun m =>
    match m.safe.held[index]? with
    | some h =>
      if heldReady m h && !m.grp.fenced then
        let m := modSafe m fun x => { x with held := x.held.eraseIdx index }
        sendFrame m h.dst 0x5 (leField h.payload 16 4 % 65536) h.payload
      else m
    | none => m

/-- The tile clock of a tile in MHz (R569). -/
def tileMhz (s : M8) (t : Nat) : Nat := 2400 - 400 * s.pwr.point.get 0 (t / 16)

/-- A tile canary failure: trap 0x23 and mode 0x03 (R210, R544, R548). -/
def tileCanaryFail (s : M8) (t : Nat) : M8 :=
  react (writeTrap s t 0 0x23 (getThread s t 0).pc 0) 0x03 1 t 0xFFFF 0x23

/-- Canary failures of cells: each is retired, mode 0x02 (R31, R32, R544, R548). The crc64_xz values of DETAIL are free:
the spec gives neither the ROM's nor the found one. -/
def cellCanaryFail (s : M8) (t : Nat) (cells : List Nat) : M8 :=
  cells.foldl (fun s c =>
    let (d, s) := drawFree s
    react s 0x02 0 (t + c * 256) 0xFFFF d) s

/-- CANARY_TICK of a tile: bad names the cells whose result differs, answered that a result arrived (R544). The tick falls
once in every millisecond of the tile's cycle counter since START. -/
def execCanaryTick (tile bad : Nat) (answered : Bool) (s : State) : Out :=
  live s fun m =>
    let x := getTile m tile
    let due := x.cycle / (tileMhz m tile * 1000)
    if tile ≥ 64 || x.st ≠ .running || due ≤ x.canaryAt then m
    else
      let cells := liveCells x
      let fails := cells.filter fun c => bad.testBit c
      let m := odAdd m Od.CANARY_RUNS cells.length
      let good := if answered then cells.filter fun c => !bad.testBit c else []
      let m := setTile m tile { x with
        canaryAt := due, cellCanary := good.foldl (fun k c => k.put c m.clk.now) x.cellCanary }
      if !answered || fails.length = cells.length then
        tileCanaryFail (odAdd m Od.CANARY_FAILS cells.length) tile
      else if fails.isEmpty then modSafe m fun y => { y with tileCanary := y.tileCanary.put tile m.clk.now }
      else cellCanaryFail (odAdd m Od.CANARY_FAILS fails.length) tile fails

/-- The notices held for the tiles of a hub are discarded when its canary fails (R542). -/
def dropHeld (s : M8) (hub : Nat) : M8 := modSafe s fun x => { x with held := x.held.filter fun h => h.hub != hub }

/-- HUB_CANARY: a run falls every 1,600,000 hub clocks since START; a failure is mode 0x04 against the hub unit that failed
(R545, R548). -/
def execHubCanary (hub unit : Nat) (pass : Bool) (s : State) : Out :=
  live s fun m =>
    let due := (m.clk.hclk - m.safe.hubStart) / 1600000
    if hub ≥ 4 || due ≤ m.safe.hubRuns.get 0 hub then m
    else
      let m := odInc (modSafe m fun x => { x with hubRuns := x.hubRuns.put hub due }) Od.CANARY_RUNS
      if pass then modSafe m fun x => { x with hubCanary := x.hubCanary.put hub m.clk.now }
      else
        let (d, m) := drawFree (dropHeld (odInc m Od.CANARY_FAILS) hub)
        react m 0x04 2 (0x50 + 4 * hub + unit % 4) 0xFFFF d

/-- SAFETY_REACTION: a mechanism of R547 or R548 detects a failure of a mode against a unit (R549, R551, R557). For mode
0x08, senders holds the two senders in conflict and rank their rank. During a global stop only the safety controller and its
confirmations run (R613). -/
def execSafetyReaction (mode unitKind unit rank detail : Nat) (senders : List Nat) (s : State) : Out :=
  aon s fun m =>
    if mode = 0 || mode > 0x0F || (m.dbg.stop && mode < 0x0E) then m
    else if mode = 0x08 then termConflict m (some (senders, detail % 2 ^ 32, detail / 2 ^ 32 % 2 ^ 32)) rank
    else react m mode unitKind unit (if mode = 0x09 || mode = 0x0D then rank else 0xFFFF) detail

/-- COMMIT_WATCHDOG of a rank and step: 1,000 microseconds after the deadline with no seal and no MISS sent, the safety
controller sends the MISS, reports it in the next heartbeat and reacts, mode 0x0D (R550). -/
def execCommitWatchdog (step rank : Nat) (s : State) : Out :=
  live s fun m =>
    if m.safe.watches.any fun w => w.step == step && w.rank == rank && w.time + 1600000 ≤ m.clk.hclk then
      let m := modSafe m fun x => { x with
        watches := x.watches.filter fun w => !(w.step == step && w.rank == rank), missReported := true }
      let miss := missingSlots m step rank
      let m := odInc m Od.SAFE_MISSES
      let m := if m.job.jr.ctrlAddr = 0xFFFF then m
        else sendFrame m m.job.jr.ctrlAddr 0x5 (miss.headD 0 % 65536)
          (notice 4 0 0 (jobTag m) step rank (miss.headD 0) 0 miss.length)
      let (d, m) := drawFree m
      react m 0x0D 4 0 rank d
    else m

/-- Have every running tile and every hub in power passed a canary that started after the newest detection (R552)? -/
def canariesSince (s : M8) : Bool :=
  (runningTiles s).all (fun t => s.safe.tileCanary.get 0 t > s.safe.detectTime) &&
    (List.range 4).all fun h => s.pwr.domOff.get false h || s.safe.hubCanary.get 0 h > s.safe.detectTime

/-- Was a role taken, a job loaded or a newer rollback received since the newest detection (R552)? -/
def roleSince (s : M8) : Bool :=
  (s.grp.takenRole.isSome && s.grp.ackAt > s.safe.detectTime) ||
    (s.grp.loadAt.any fun t => t > s.safe.detectTime && jobLoaded s) || serialNewer 32 s.grp.rbId s.safe.detectRb

/-- May the safety controller return SEAL_HOLD to 0 (R552)? -/
def sealMayRelease (m : M8) : Bool := odNat m Od.SEAL_HOLD == 1 && !m.grp.fenced && roleSince m && canariesSince m

/-- SEAL_HOLD is 0 again and the gates open (R552). -/
def sealRelease (m : M8) : M8 :=
  let m := modSafe (odSet m Od.SEAL_HOLD 0) fun x => { x with gates := [], reacting := false }
  odSet m Od.SAFETY_STATE (if m.safe.faultN then 3 else 0)

/-- SEAL_HOLD_RELEASE: the safety controller returns SEAL_HOLD to 0 (R552). -/
def execSealHoldRelease (s : State) : Out := live s fun m => if sealMayRelease m then sealRelease m else m

/-- HUB0_WATCHDOG_EXPIRE: the safety controller has not served the watchdog for 100 microseconds: mode 0x0E, FAULT_N
(R548, R554). -/
def execHub0WatchdogExpire (s : State) : Out :=
  aon s fun m =>
    let (d, m) := drawFree m
    react m 0x0E 5 0 0xFFFF d

/-- SEAL_GATE_TIMEOUT: a hub asked to close its gate has not confirmed it within 10 microseconds: mode 0x0F, FAULT_N
(R548, R554). -/
def execSealGateTimeout (hub : Nat) (s : State) : Out :=
  aon s fun m =>
    if hub < 4 && m.safe.gates.get false hub && m.clk.now ≥ m.safe.detectTime + 10000 then
      let (d, m) := drawFree m
      react m 0x0F 2 (0x48 + hub) 0xFFFF d
    else m

/-- The safety heartbeat's payload (R556). -/
def safetyHeartbeat (s : M8) : Bytes :=
  let state := if s.safe.faultN then 3 else odNat s Od.SAFETY_STATE
  let flags := odNat s Od.SEAL_HOLD % 2 + b2n (jobState s == 3 && odNat s Od.POWER_STATE != 2) * 2 + b2n s.safe.missReported * 4
  let b := natLe 2 0x5348 ++ natLe 1 1 ++ natLe 1 state ++ natLe 4 s.safe.hbSeq ++ natLe 8 (odNat s Od.SERIAL) ++
    natLe 2 (ownAddr s) ++ natLe 2 (odNat s Od.DETECTIONS) ++ natLe 1 s.safe.lastMode ++ natLe 1 flags ++
    natLe 2 (odNat s Od.SAFE_MISSES) ++ zeros 4
  b ++ natLe 4 (crc32c b)

/-- SAFETY_HEARTBEAT: one datagram every SAFE_HB_MS while SAFE_HB_ENABLE is 1, in sleep and with FAULT_N too (R556,
R564). -/
def execSafetyHeartbeat (s : State) : Out :=
  aon s fun m =>
    if odNat m Od.SAFE_HB_ENABLE = 1 && m.clk.now ≥ m.safe.hbTime + odNat m Od.SAFE_HB_MS * 1000000 then
      let m := modSafe m fun x => { x with hbSeq := (x.hbSeq + 1) % 2 ^ 32 }
      let b := safetyHeartbeat m
      let m := modSafe m fun x => { x with hbTime := m.clk.now, missReported := false }
      emit m (.datagram (odInForce m Od.SAFE_UDP_PORT) b)
    else m

/-- The abort a write of SAFE_TEST meets (R559, R560). -/
def safeTestAbort (m : M8) (v : Nat) : Option Nat :=
  if v ≠ 1 then some 0x06090030 else if jobLoaded m then some 0x08000021 else none

/-- The error of SAFE_TEST waits for the next item that starts on T00 (R559). -/
def safeTest (m : M8) : M8 := modTile m 0 fun x => { x with safeTest := true }

/-- SAFE_TEST (R559). -/
def execSafeTest (value : Nat) (s : State) : Out :=
  live s fun m => match safeTestAbort m value with
    | some a => emit m (.fwStatus a)
    | none => safeTest m

end Machine
end Sys2Proof
end

