-- ==== Sys2Proof/Machine/Power.lean ====
section
/-!
DEFINITION. Sys2Proof/Machine/Power.lean: resets, the power sequencer, sleep and wake, operating points, AVSBus,
temperatures, ageing and re-plans (R561 to R580, R627 to R640, R643, R644).
-/
namespace Sys2Proof
namespace Machine

def modPwr (s : M8) (f : Power → Power) : M8 := { s with pwr := f s.pwr }

/-! ### Package reset (R66, R67, R72, R568, R590, R643, R644) -/

/-- RESET_CAUSE (R568). -/
def resetCause (s : M8) : Nat :=
  s.pwr.cause % 16 + (if s.pwr.cause = 1 then s.pwr.wakeSrc else 0) * 2 ^ 8 + b2n s.safe.faultN * 2 ^ 16

/-- Entries RESTORE_DEFAULTS leaves: the key slots and the device's own history (R72). -/
def keptOnRestore (key : Nat) : Bool :=
  key / 256 == 0x1110 || key == Od.SLEEP_SEQ || key / 256 == 0x5002 || key / 256 == 0x5006 || key == Od.DETECT_LOG ||
    key == Od.HEALTH

/-- The stores in progress at a reset, the first of each entry, leave the old or the new value; those that wait are lost
(R67). -/
def settleStores (s : M8) : M8 :=
  let firsts := s.dict.stores.foldl (fun l q => if l.any fun (p : StoreReq) => p.key == q.key then l else l ++ [q]) []
  let s := firsts.foldl (fun s q =>
    let (b, s) := drawFree s
    if b % 2 = 1 then odSetStored s q.key q.val else s) s
  { s with dict := { s.dict with stores := [] } }

/-- A stored number, else the entry's default. -/
def storedNat (s : M8) (key : Nat) : Nat :=
  match Sparse.find s.dict.stored key with
  | some v => v.toNat
  | none => match odKeyRow key with
    | some e => e.dflt.toNat
    | none => 0

/-- Would the stored partition set pass (R644)? -/
def partSetOk (s : M8) : Bool :=
  storedNat s Od.PART_MAP_CACHE + storedNat s Od.PART_STAGING + storedNat s Od.PART_EPOCH_CACHE + storedNat s Od.PART_FIRMWARE
      == 384000000000 && storedNat s Od.READBACK_BYTES * 2 ≤ storedNat s Od.PART_STAGING

/-- The dictionary after a reset: stored values are live and in force, everything else is at its default; sessions,
failure counts and lockouts are gone (R66, R87, R88, R644). -/
def resetDict (s : M8) : M8 :=
  let s := settleStores s
  let s := if s.dict.restoreArmed then { s with dict := { s.dict with stored := s.dict.stored.filter fun p => keptOnRestore p.1 } } else s
  let bad := !partSetOk s
  let keys := [Od.PART_MAP_CACHE, Od.PART_STAGING, Od.PART_EPOCH_CACHE, Od.PART_FIRMWARE, Od.READBACK_BYTES]
  let stored := if bad then keys.foldl (fun d k => Sparse.put d k (.num (odInForce s k))) s.dict.stored else s.dict.stored
  let yr (k : Nat) : Bool := match odKeyRow k with
    | some e => decide (e.persist = .yr)
    | none => false
  let s := { s with dict := { live := stored, stored := stored, latched := stored.filter fun p => yr p.1 } }
  let s := odSet s Od.PART_REJECTED (b2n bad)
  odSet s Od.EVRING_ENABLE (odNat s Od.EVRING_BOOT)

/-- Every unit outside AON loses its state; flash keeps what is on the media, HBM what keep names (R561, R643). -/
def resetUnits (s : M8) (keep : List Host.Cell) : M8 :=
  let s := { s with
    clk := { s.clk with hclk := 0 }, mem := keep, sync := [], fences := [], mbx := {}, intc := {},
    dbg := { stopNLow := s.dbg.stopNLow }, pav := {}, job := {}, tiles := [], hubs := {}, grp := {}, opt := {}, fab := {},
    rem := {}, rings := {}, fl := { s.fl with
      mounted := false, pending := [], secure := [], victim := none, gcOn := false, trained := [] } }
  { s with safe := { s.safe with
    held := [], watches := [], gates := [], reacting := false, hubCanary := [], tileCanary := [], hubStart := 0, hubRuns := [],
    missReported := false } }

/-- FW_STATE, kept in the boot area's state record as well (R583). -/
def setFw (s : M8) (st : Nat) : M8 := odSet (modPwr s fun p => { p with fwState := st }) Od.FW_STATE st

/-- BLOCKS_WRITTEN follows the bitmap (R583, R591). -/
def setBlocks (s : M8) : M8 := odSet s Od.BLOCKS_WRITTEN s.pwr.fwBlocks.length

/-- FW_STATE at the next start after a loss of power in each state; 3 is verified and activated again (R590). -/
def bootFwState (st blocks : Nat) : Nat :=
  if st = 1 then (if blocks = 0 then 0 else 8) else if st = 2 || st = 4 then 8 else if st = 3 then 2 else st

/-- What the running image gives the dictionary: FW_VERSION and FW_IFACE_VERSION (R72, R581). -/
def fwEntries (s : M8) : M8 :=
  if s.pwr.fwRun.isEmpty then s
  else
    let v := leField s.pwr.fwRun 8 4
    let name := ascii (toString (v / 2 ^ 16 % 256) ++ "." ++ toString (v / 2 ^ 8 % 256) ++ "." ++ toString (v % 256))
    odSet (odPut s Od.FW_VERSION (.bytes name)) Od.FW_IFACE_VERSION (leField s.pwr.fwRun 12 4)

/-- A reset of the package with a cause and a wake source. Cause 5 keeps the firmware-and-tables partition (R643); FAULT_N
and unusable domains last until a power-on (R554, R572). A wake leaves AON as it is (R568). -/
def packageReset (s : M8) (cause wakeSrc : Nat) : M8 :=
  let keep := if cause = 5 then s.mem.filter fun c => cellIn (partBase s 3) (odInForce s Od.PART_FIRMWARE) c.1 else []
  let s := resetDict (resetUnits s keep)
  let s := if cause = 0 then { s with clk := {} } else s
  let s := if cause = 1 then s else { s with jtag := { boundary := s.jtag.boundary }, safe := {
    faultN := s.safe.faultN && cause != 0, log := s.safe.log, lastMode := 0 } }
  let s := modPwr s fun p => { p with
    cause := cause, wakeSrc := wakeSrc, domOff := if cause = 0 then [] else p.domOff, oeOn := [], point := [], relock := [],
    goal := [], rails := [], sleepStage := 0, wakeTag := [], replanDue := [],
    autoAct := p.autoAct || p.fwState = 3 || bootFwState p.fwState p.fwBlocks.length = 8 }
  let s := modPwr s fun p => { p with point := (List.range 4).foldl (fun d q => d.set 0 q (odNat s (Od.QUAD_OP + q))) p.point }
  let s := if cause = 5 then s else if s.pwr.fwState = 1 || s.pwr.fwState = 2 || s.pwr.fwState = 4 then
    modPwr s fun p => { p with fwBlocks := [], fwManifest := [] } else s
  let st := if cause = 5 then s.pwr.fwState else bootFwState s.pwr.fwState s.pwr.fwBlocks.length
  let s := fwEntries (setBlocks (setFw s st))
  let s := match s.pwr.secFuse with
    | some v => odSet s Od.SEC_FUSE v
    | none => s
  let s := odSet s Od.RESET_CAUSE (resetCause s)
  let s := if s.safe.faultN then odSet s Od.SAFETY_STATE 3 else s
  let s := (List.range 32).foldl (fun s p => setPort s p { mode := odNat s (Od.PORT_MODE + p) }) s
  initRoles s

/-! ### The power sequencer (R631 to R635) -/

/-- The names of the groups, in the order of the steps (R631). -/
def groupName (k : Nat) : String := ["", "HUB", "HBM", "FD", "TILE", "OE", "LAS"].getD k ""

def setEnable (s : M8) (k : Nat) (level : Bool) : M8 := emit s (.pin ("EN_" ++ groupName k) level)

/-- Raise group k and wait for its PG. -/
def raiseGroup (s : M8) (k : Nat) : M8 :=
  setEnable (modPwr s fun p => { p with seq := .rising, seqStep := k, seqAt := s.clk.now }) k true

/-- Lower group k and wait for its PG to fall. -/
def lowerGroup (s : M8) (k : Nat) : M8 :=
  setEnable (modPwr s fun p => { p with seq := .falling, seqStep := k, seqAt := s.clk.now }) k false

/-- The voltage of a rail at a point at commissioning: 0-3 VDD_TILE, 4-7 VDD_HUB, 8 VDD_FD, 9 VDD_OE (R569, R571). -/
def commissionMv (rail point : Nat) : Nat := if rail < 4 then [790, 730, 680, 630].getD point 630 else 750

/-- The present voltage of a rail at a point (R569, R578). -/
def railMv (s : M8) (rail point : Nat) : Nat := (s.pwr.volts.find (rail * 4 + point)).getD (commissionMv rail point)

/-- The operating point a rail stands at: rails without points have point 0 alone. -/
def railPoint (s : M8) (rail : Nat) : Nat := if rail < 4 then s.pwr.point.get 0 rail else 0

def getRail (s : M8) (rail : Nat) : Rail := (s.pwr.rails.find rail).getD { target := railMv s rail (railPoint s rail) }

def setRail (s : M8) (rail : Nat) (x : Rail) : M8 := modPwr s fun p => { p with rails := p.rails.put rail x }

/-- The sequence is complete: the rails stand at their voltages, the package is Active, and a STOP_N that is low stops it
before any tile issues (R564, R631, R634, R635). With FAULT_N latched the OE domains stay off. -/
def sequenceDone (s : M8) : M8 :=
  let s := (List.range 10).foldl (fun s r => emit s (.avs r (railMv s r (railPoint s r)))) s
  let dark := s.safe.faultN
  let s := modPwr s fun p => { p with
    seq := .up, seqStep := 0, seqFails := 0, off := false,
    domOff := if dark then (List.range 8).foldl (fun d k => d.set false (76 + k) true) p.domOff else p.domOff }
  let s := odSet s Od.POWER_STATE 0
  if s.dbg.stopNLow then startStop s 1 else s

/-- POWER_UP_STEP: the PG of the group being raised rises (R631); step 6 is skipped while FAULT_N is latched (R634). -/
def execPowerUpStep (s : State) : Out :=
  aon s fun m =>
    if m.pwr.seq ≠ .rising then m
    else if m.pwr.seqStep ≥ 6 || (m.pwr.seqStep = 5 && m.safe.faultN) then sequenceDone m
    else raiseGroup m (m.pwr.seqStep + 1)

/-- PG_TIMEOUT: a PG has not risen within 10 ms: every raised output falls in reverse order, the group is recorded
(R633). -/
def execPgTimeout (s : State) : Out :=
  aon s fun m =>
    if m.pwr.seq = .rising && m.clk.now ≥ m.pwr.seqAt + 10000000 then
      let m := odSetStored m Od.SEQ_FAIL_GROUP (.num m.pwr.seqStep)
      let m := odSetStored m Od.SEQ_FAILS (.num (odNat m Od.SEQ_FAILS + 1))
      lowerGroup (modPwr m fun p => { p with seqFails := p.seqFails + 1 }) m.pwr.seqStep
    else m

/-- Every output is down: what follows depends on why (R566, R633, R635). -/
def allDown (s : M8) : M8 :=
  let s := modPwr s fun p => { p with seq := .down, seqStep := 0, seqAt := s.clk.now }
  if s.pwr.resetLow || s.pwr.sleepStage = 5 || s.pwr.seqFails = 0 then s
  else if s.pwr.seqFails ≤ 3 then modPwr s fun p => { p with seq := .waiting }
  else odSet (modPwr s fun p => { p with seqFails := 0 }) Od.POWER_STATE 2

/-- POWER_DOWN_STEP: the PG of the group being lowered has fallen, or 2 ms have passed (R632). -/
def execPowerDownStep (s : State) : Out :=
  aon s fun m =>
    if m.pwr.seq ≠ .falling then m
    else if m.pwr.seqStep ≤ 1 then allDown m
    else lowerGroup m (m.pwr.seqStep - 1)

/-- SEQ_RETRY: 1 s after a failed sequence it is tried again (R633). -/
def execSeqRetry (s : State) : Out :=
  aon s fun m => if m.pwr.seq = .waiting && m.clk.now ≥ m.pwr.seqAt + 1000000000 then raiseGroup m 1 else m

/-- The highest raised group. -/
def topGroup (s : M8) : Nat :=
  match s.pwr.seq with
  | .up => 6
  | .rising => s.pwr.seqStep
  | .falling => s.pwr.seqStep - 1
  | _ => 0

/-- RESET_N goes low or rises (R631, R635): low overrides everything and every output falls in reverse order; its rise is a
reset of CAUSE 2, or of CAUSE 0 after a power-on, and starts the sequence. -/
def execResetN (low : Bool) (s : State) : Out :=
  aon s fun m =>
    if low then
      if m.pwr.resetLow then m
      else
        let k := topGroup m
        let m := modPwr m fun p => { p with resetLow := true, off := true, sleepStage := 0, seqFails := 0 }
        if m.pwr.seq = .falling then m else if k = 0 then allDown m else lowerGroup m k
    else if m.pwr.resetLow then
      let cause := if m.pwr.porPending then 0 else 2
      let m := packageReset m cause 0
      raiseGroup (modPwr m fun p => { p with resetLow := false, porPending := false, off := true }) 1
    else m

/-- POWER_ON_RESET: power comes, or VAON or VIO returns after a loss: the package is reset and zero-filled; the sequence
begins when RESET_N rises (R631, R635, R643). -/
def execPowerOnReset (s : State) : Out :=
  aon s fun m => modPwr (packageReset m 0 0) fun p => { p with
    resetLow := true, porPending := true, off := true, seq := .down, seqStep := 0, seqFails := 0, ageSums := [], ageCount := 0 }

/-- The domains that hang on a rail of R571. -/
def railDomains (rail : Nat) : List Nat :=
  if rail < 4 then (List.range 16).map fun i => 4 + 16 * rail + i
  else if rail < 8 then [rail - 4]
  else if rail = 8 then (List.range 8).map (68 + ·)
  else (List.range 8).map (76 + ·)

/-- A failed rail (R572): with a job loaded, a unit fault of KIND 3; else its domains are unusable until the next
power-on. -/
def failDomains (s : M8) (ds : List Nat) : M8 :=
  if jobLoaded s then declareSelf s 3
  else modPwr s fun p => { p with domOff := ds.foldl (fun d k => d.set false k true) p.domOff }

/-- The domains of a group of R630. -/
def groupDomains (group : Nat) : List Nat :=
  if group ≤ 2 then [0, 1, 2, 3] else if group = 3 then railDomains 8
  else if group = 4 then (List.range 64).map (4 + ·) else railDomains 9

/-- PG_FALL_ACTIVE: a PG falls in Active while its output is high (R633). -/
def execPgFallActive (group : Nat) (s : State) : Out :=
  live s fun m =>
    if m.pwr.seq = .up && 1 ≤ group && group ≤ 6 && odNat m Od.POWER_STATE = 0 then failDomains m (groupDomains group) else m

/-! ### Sleep and wake (R564 to R568) -/

/-- The conditions of R565 that loader service shares: no job, no audit running, no role. -/
def idleMember (m : M8) : Bool :=
  jobState m == 0 && odNat m Od.AUDIT_STATE != 1 && odNat m Od.AUDIT_STATE != 2 && m.grp.own.isEmpty

/-- The abort a write of SLEEP_CMD meets (R565). -/
def sleepAbort (m : M8) (v : Nat) : Option Nat :=
  if v ≠ 0x51EE then some 0x06090030
  else if idleMember m && (odNat m Od.FW_STATE = 0 || odNat m Od.FW_STATE = 4) && odNat m Od.POWER_STATE = 0 then none
  else some 0x08000021

/-- Sleep entry starts with stage 1 (R564, R566). -/
def sleepStart (m : M8) : M8 := odSet (modPwr m fun p => { p with sleepStage := 1 }) Od.POWER_STATE 1

/-- SLEEP_CMD (R565). -/
def execSleepCmd (value : Nat) (s : State) : Out :=
  live s fun m => match sleepAbort m value with
    | some a => emit m (.fwStatus a)
    | none => sleepStart m

/-- Stage 4: sessions close, the fabric ports go down, the endpoint leaves D0 (R566). -/
def closeForSleep (m : M8) : M8 :=
  let m := m.dict.sessions.foldl (fun m x => closeSession m x.sid) m
  let m := { m with dict := { m.dict with hellos := [] } }
  let m := (List.range 32).foldl (fun m p => modPort m p fun x => { x with st := .disabled, enable := false, queue := [] }) m
  modRings m fun r => { r with d0 := false }

/-- SERIAL as 8 bytes. -/
def serialBytes (m : M8) : Bytes := natLe 8 (odNat m Od.SERIAL)

/-- Stage 5 begins: SLEEP_SEQ rises and is stored, the wake tag is loaded (none for an empty operator slot), and the rails
fall (R566, R567). -/
def powerDown (m : M8) : M8 :=
  let m := odSetStored m Od.SLEEP_SEQ (.num (odNat m Od.SLEEP_SEQ + 1))
  let k := odBytes m Od.KEY_OPERATOR
  let tag := if k.all (· == 0#8) then [] else
    (hmacSha256 k (ascii "M8-WAKE" ++ serialBytes m ++ natLe 4 (odNat m Od.SLEEP_SEQ))).take 16
  lowerGroup (modPwr m fun p => { p with sleepStage := 5, wakeTag := tag, off := true }) 6

/-- SLEEP_STAGE_DONE: the stage's work is done and no ring holds a command; the next stage begins. durable names the
records whose parity contributions have been reported durable (R434, R566). -/
def execSleepStageDone (durable : List Nat) (s : State) : Out :=
  aon s fun m =>
    if m.dbg.stop || (m.pwr.sleepStage < 5 && ringsBusy m) then m
    else
      let stage (m : M8) (n : Nat) : M8 := modPwr m fun p => { p with sleepStage := n }
      match m.pwr.sleepStage with
      | 1 => stage m 2
      | 2 =>
        let m := parityReported m durable
        if m.fl.pending.isEmpty && m.fl.recs.all (·.durable) then stage (checkpoint m) 3 else m
      | 3 => if m.fl.recs.all (·.durable) then stage m 4 else m
      | 4 => powerDown (closeForSleep m)
      | 5 => if m.pwr.seq = .down then odSet (stage (resetUnits m []) 0) Od.POWER_STATE 2 else m
      | _ => m

/-- A wake: every domain but AON is reset, and the sequence starts (R567, R568, R631). -/
def wake (m : M8) (src : Nat) : M8 :=
  let m := packageReset m 1 src
  raiseGroup (modPwr m fun p => { p with wakeAt := some (m.clk.now, m.clk.eighths), off := true, seqFails := 0 }) 1

/-- Is the package asleep: only AON on, and no sequence running? -/
def asleep (m : M8) : Bool := odNat m Od.POWER_STATE == 2 && m.pwr.seq == .down && !m.pwr.resetLow

/-- WAKE_N held low for some microseconds: 1,000 wake (R567). In the hub clock of a wake datagram it gives WAKE_SRC 1
(R635). -/
def execWakeN (lowUs : Nat) (s : State) : Out :=
  aon s fun m =>
    if lowUs < 1000 then m
    else if asleep m then wake m 1
    else if m.pwr.wakeAt = some (m.clk.now, m.clk.eighths) && m.pwr.cause = 1 && m.pwr.seq = .rising then
      let m := modPwr m fun p => { p with wakeSrc := 1 }
      odSet m Od.RESET_CAUSE (resetCause m)
    else m

/-- WAKE_DATAGRAM on a UDP port (R567). -/
def execWakeDatagram (udpPort : Nat) (payload : Bytes) (s : State) : Out :=
  aon s fun m =>
    let ok := payload.length = 32 && leField payload 0 2 = 0x574B && leField payload 2 1 = 1 && leField payload 3 1 = 0 &&
      leField payload 4 8 = odNat m Od.SERIAL && leField payload 12 4 = odNat m Od.SLEEP_SEQ &&
      !m.pwr.wakeTag.isEmpty && payload.drop 16 = m.pwr.wakeTag
    if asleep m && udpPort = odInForce m Od.MGMT_UDP_PORT && ok then wake m 2 else m

/-! ### Operating points and AVSBus (R569 to R574) -/

/-- Write a voltage target and commit it; in loader service the master sends none (R572 to R574, R587). -/
def sendVolt (s : M8) (rail mv : Nat) : M8 :=
  if s.pwr.fwState = 5 then s
  else emit (setRail s rail { target := mv, outcome := 1, sentAt := s.clk.now, tries := 1 }) (.avs rail mv)

/-- Gate the quadrant's tiles and relock its PLL at a point (R570). -/
def startRelock (s : M8) (q point : Nat) : M8 :=
  modPwr s fun p => { p with point := p.point.set 0 q point, relock := p.relock.set false q true }

/-- The next step of a quadrant's change, from the clock and the voltage in force: a lowering changes the clock first; a
raise has its voltage acknowledged first (R570, R573). -/
def planQuad (s : M8) (q : Nat) : M8 :=
  match s.pwr.goal.find q with
  | none => s
  | some g =>
    let p := s.pwr.point.get 0 q
    let r := getRail s q
    let v := railMv s q g
    if s.pwr.relock.get false q then s
    else if g > p then startRelock s q g
    else if r.target ≠ v || r.outcome = 2 then sendVolt s q v
    else if r.outcome = 1 then s
    else if g < p then startRelock s q g
    else modPwr s fun x => { x with goal := x.goal.drop q }

/-- Is a job or audit loaded on a tile of the quadrant (R36, R570)? -/
def quadBusy (m : M8) (q : Nat) : Bool :=
  m.job.loaded && (List.range 16).any fun i => m.job.img.tileMask.testBit (16 * q + i)

/-- The abort a write of QUAD_OP meets (R570, R579): a point faster than OP_MAX is withdrawn. -/
def quadOpAbort (m : M8) (q v : Nat) : Option Nat :=
  if v > 3 then some 0x06090031
  else if v < odNat m (Od.OP_MAX + q) then some 0x06090031
  else if quadBusy m q then some 0x08000021 else none

/-- QUAD_OP of a quadrant takes effect (R570). -/
def quadOp (m : M8) (q v : Nat) : M8 := planQuad (modPwr m fun p => { p with goal := p.goal.put q v }) q

/-- QUAD_OP (R570). -/
def execQuadOp (quad value : Nat) (s : State) : Out :=
  live s fun m =>
    if quad ≥ 4 then m
    else match quadOpAbort m quad value with
    | some a => emit m (.fwStatus a)
    | none => quadOp (odSetStored m (Od.QUAD_OP + quad) (.num value)) quad value

/-- PLL_RELOCK_DONE of a quadrant: its tiles run again (R570). -/
def execPllRelockDone (quad : Nat) (s : State) : Out :=
  live s fun m =>
    if m.pwr.relock.get false quad then planQuad (modPwr m fun p => { p with relock := p.relock.set false quad false }) quad else m

/-- AVS_ACK: VDone is reported and a Voltage read returns mv, within 10 mV of the target (R572). -/
def execAvsAck (rail mv : Nat) (s : State) : Out :=
  aon s fun m =>
    let r := getRail m rail
    if r.outcome = 1 && mv ≤ r.target + 10 && r.target ≤ mv + 10 then
      let m := pulse (setRail m rail { r with outcome := 0 }) 0x18A
      if m.dbg.stop || m.pwr.off then m else planQuad m rail
    else m

/-- AVS_ACK_TIMEOUT: a target not acknowledged within AVS_ACK_US is written again, up to three times; then the rail has
failed (R572). -/
def execAvsAckTimeout (rail : Nat) (s : State) : Out :=
  aon s fun m =>
    let r := getRail m rail
    if r.outcome = 1 && m.clk.now ≥ r.sentAt + odNat m Od.AVS_ACK_US * 1000 then
      let m := odInc m Od.AVS_TIMEOUTS
      if r.tries ≤ 3 then emit (setRail m rail { r with sentAt := m.clk.now, tries := r.tries + 1 }) (.avs rail r.target)
      else failDomains (pulse (setRail m rail { r with outcome := 2 }) 0x18A) (railDomains rail)
    else m

/-- VOLT_TABLE (R591). -/
def voltTable (s : M8) : Bytes :=
  ((List.range 10).flatMap fun r => (List.range 4).flatMap fun p =>
    natLe 2 (if r ≥ 4 && p ≠ 0 then Config.voltAbsent (r * 4 + p) else railMv s r p)) ++
  (List.range 10).flatMap fun r => natLe 2 (getRail s r).target ++ natLe 1 (getRail s r).outcome

/-! ### Temperatures (R575) -/

/-- TEMP_WARN: a die reaches TEMP_WARN, temp in 1/8 C (R575). -/
def execTempWarn (temp : Int) (s : State) : Out :=
  live s fun m =>
    if temp ≥ odNat m Od.TEMP_WARN then modPwr m fun p => { p with tempWarns := p.tempWarns + 1, thermalWarn := true } else m

/-- TEMP_TRIP: the member declares a unit fault of KIND 3 against itself and fences (R575). -/
def execTempTrip (temp : Int) (s : State) : Out :=
  live s fun m => if temp ≥ odNat m Od.TEMP_TRIP then declareSelf m 3 else m

/-! ### Ageing and re-plans (R576 to R580) -/

/-- AGEING_SAMPLE: every 60 s the monitors are sampled, in a fixed order; the means of 60 samples go into the log, which
keeps 8,760 per monitor (R576). -/
def execAgeingSample (values : List Nat) (s : State) : Out :=
  live s fun m =>
    if m.clk.now < m.pwr.ageLast + 60000000000 then m
    else
      let sums := (List.range values.length).foldl (fun d i => d.modify 0 i (· + values.getD i 0)) m.pwr.ageSums
      if m.pwr.ageCount + 1 < 60 then
        modPwr m fun p => { p with ageSums := sums, ageCount := p.ageCount + 1, ageLast := m.clk.now }
      else
        modPwr m fun p => { p with
          ageSums := [], ageCount := 0, ageLast := m.clk.now,
          ageLog := (List.range values.length).foldl (fun d i =>
            d.set [] i ((sums.get 0 i / 60 :: d.get [] i).take 8760)) p.ageLog }

/-- ceil(a / b) of integers, b positive. -/
def ceilInt (a b : Int) : Int := -((-a) / b)

/-- V' of R578 for a rail at a point, from the slack at V and at V + 10 mV in 0.01 %; a slack that does not rise with the
voltage leaves it open (free). -/
def replanMv (s : M8) (rail point slack slack10 free : Nat) : Nat :=
  let v : Int := railMv s rail point
  let c : Int := commissionMv rail point
  let raw : Int := if slack10 ≤ slack then free else
    v + 5 * ceilInt (2 * ((odNat s Od.SLACK_MIN : Int) - slack)) ((slack10 : Int) - slack)
  let lo := max c (v - odNat s Od.VSTEP_MAX_MV)
  let hi := min (min (v + odNat s Od.VSTEP_MAX_MV) (c + odNat s Od.VAGE_MAX_MV)) (odNat s Od.VMAX_MV)
  (min (max raw lo) hi).toNat

/-- Is the part of a rail idle: no job or audit loaded on it (R577)? -/
def railIdle (m : M8) (rail : Nat) : Bool := if rail < 4 then !quadBusy m rail else !m.job.loaded

/-- Re-plan a rail at a point from its measured slacks: a point whose voltage leaves the slack short is withdrawn (R578,
R579). A rail that stands at the point takes the voltage. -/
def replanPoint (m : M8) (e : Nat × Nat × Nat × Nat) : M8 :=
  let (rail, point, s0, s10) := e
  let (f, m) := drawFree m
  let v := railMv m rail point
  let v' := replanMv m rail point s0 s10 f
  let m := modPwr m fun p => { p with volts := p.volts.put (rail * 4 + point) v' }
  let left : Int := 10 * (s0 : Int) + ((s10 : Int) - s0) * ((v' : Int) - v)
  let m := if rail < 4 && left < 10 * odNat m Od.SLACK_MIN && odNat m (Od.OP_MAX + rail) ≤ point then
    odSetStored m (Od.OP_MAX + rail) (.num (point + 1)) else m
  if railPoint m rail = point && v' ≠ v then sendVolt m rail v' else m

/-- The laser step: BIAS_MAX of each lit channel (R580). -/
def laserStep (m : M8) : M8 :=
  (List.range 144).foldl (fun m j =>
    let x := getLaser m j
    if x.ctl.testBit 0 then
      let b := min (min (5 * Config.commissionBias j * (getLane m j).bias / (4 * 4096)) (odNat m Od.LASER_BIAS_LIMIT)) 4095
      setLaser m j { x with ctl := x.ctl - x.biasMax * 2 ^ 16 + b * 2 ^ 16 }
    else m) m

/-- A re-plan falls due: every rail is due, the laser step runs at once (R577). -/
def replanAll (m : M8) : M8 :=
  laserStep (modPwr m fun p => { p with replanAt := m.clk.now, replanDue := List.range 9 })

/-- REPLAN: after REPLAN_DAYS of powered time a re-plan falls due; the due rails that are idle are re-planned from what is
measured, as (rail, point, slack at V, slack at V + 10 mV) (R577, R578). -/
def execReplan (measured : List (Nat × Nat × Nat × Nat)) (s : State) : Out :=
  live s fun m =>
    let m := if m.clk.now ≥ m.pwr.replanAt + odNat m Od.REPLAN_DAYS * 86400000000000 then replanAll m else m
    let now := measured.filter fun e => m.pwr.replanDue.contains e.1 && railIdle m e.1 && (e.2.1 = 0 || (e.1 < 4 && e.2.1 < 4))
    let m := now.foldl replanPoint m
    modPwr m fun p => { p with replanDue := p.replanDue.filter fun r => !(now.any fun e => e.1 == r) }

/-- The abort a write of REPLAN_NOW meets (R577). -/
def replanAbort (v : Nat) : Option Nat := if v = 0xA6E1 then none else some 0x06090030

/-- REPLAN_NOW (R577). -/
def execReplanNow (value : Nat) (s : State) : Out :=
  live s fun m => match replanAbort value with
    | some a => emit m (.fwStatus a)
    | none => replanAll m

end Machine
end Sys2Proof
end

