-- ==== Sys2Proof/Machine/Debug.lean ====
section
/-!
DEFINITION. Sys2Proof/Machine/Debug.lean: operation counters (R602 to R605), wait-for graphs (R606 to R608), event rings
(R611), the global stop and its release (R612 to R616), scan-out (R617 to R619), the test mux (R620, R621), JTAG (R623 to
R625). The commit deadline and the hard jump stand here because a missed deadline starts a graph.
-/
namespace Sys2Proof
namespace Machine

def modDbg (s : M8) (f : Debug → Debug) : M8 := { s with dbg := f s.dbg }

/-! ### Operation counters (R604, R605) -/

/-- COUNT_ENABLE takes a value (R604): 1 zeroes every counter and starts counting 16 hclk on, 0 stops it in the same way. -/
def countEnable (s : M8) (v : Nat) : M8 :=
  if v = 1 then
    let s := modDbg s fun d => { d with counters := [], countFrom := some (s.clk.hclk + 16), countUntil := none }
    (List.range 38).foldl (fun s i => odSet s (counterKey i) 0) s
  else if (s.dbg.countFrom).isSome && (s.dbg.countUntil).isNone then
    modDbg s fun d => { d with countUntil := some (s.clk.hclk + 16) }
  else s

/-- COUNT_ENABLE written (R604); a BOOL takes 0 and 1 alone. -/
def execCountEnable (value : Nat) (s : State) : Out :=
  live s fun m => if value > 1 then m else countEnable (odSet m Od.COUNT_ENABLE value) value

/-- The snapshot of R605: the 38 counters of every tile, then of every hub. -/
def countSnapshot (s : M8) : Bytes := (List.range (68 * 38)).flatMap fun i => natLe 8 (s.dbg.counters.get 0 i)

/-- COUNT_SNAPSHOT read (R605). -/
def execCountSnapshot (s : State) : Out := live s fun m => odPut m Od.COUNT_SNAPSHOT (.bytes (countSnapshot m))

/-! ### Wait-for graphs (R606 to R608) -/

/-- A node of the graph (R608). -/
def wfgNode (kind value : Nat) : Nat := kind * 2 ^ 28 + value % 2 ^ 28

def threadNode (t th : Nat) : Nat := wfgNode 1 (t * 8 + th)

def ownerNode (hub pool owner : Nat) : Nat := wfgNode 4 (hub * 512 + pool * 256 + owner)

def dmaNode (hub c : Nat) : Nat := wfgNode 5 (hub * 64 + c)

def fenceNode (t seq : Nat) : Nat := wfgNode 6 (t * 2 ^ 22 + seq % 2 ^ 16)

/-- The requests of a pool that thread th of tile t waits in. -/
def PoolReq.ofThread (t th : Nat) (q : PoolReq) : Bool :=
  match q.who with
  | .thread a b _ _ => a == t && b == th
  | _ => false

/-- The edges of a waiting thread: to its object and on to the threads the proof record lists as able to release it, to the
window wait of its channel, or to the pool owner whose TAKE it reads (R607). -/
def threadEdges (s : M8) (t th : Nat) (y : Thread) : List (Nat × Nat) :=
  let object (ref : Nat) : List (Nat × Nat) :=
    (threadNode t th, wfgNode 2 ref) ::
      (Config.proofReleasers s.job.img.proof ref).map fun r => (wfgNode 2 ref, wfgNode 1 (r % 512))
  match y.wait with
  | .obj ref _ => object ref
  | .take ref => object ref
  | .window _ _ _ _ => [(threadNode t th, wfgNode 3 y.channel)]
  | .queue => (List.range 8).flatMap fun k =>
      (((getPool s (k / 2) (k % 2)).waiting.filter fun q => q.ofThread t th).map fun q =>
        (threadNode t th, ownerNode (k / 2) (k % 2) q.owner))
  | .none => []

/-- A pool owner with a waiting request waits on every other owner that holds cells of the pool (R339, R607; assumption log
49). -/
def ownerEdges (s : M8) (hub pool : Nat) : List (Nat × Nat) :=
  let x := getPool s hub pool
  let holders := (x.held.map fun h => h.names.headD 0).eraseDups
  (x.waiting.map PoolReq.owner).eraseDups.flatMap fun o =>
    (holders.filter (· != o)).map fun p => (ownerNode hub pool o, ownerNode hub pool p)

/-- A DMA channel in state 3 waits on the owner or the object it reads its level from; one in state 4 on the channels that
hold a mover at its priority or above (R352, R353, R607). -/
def dmaEdges (s : M8) (hub c : Nat) (x : DmaCh) : List (Nat × Nat) :=
  if x.st = .paced then
    if x.cfg.testBit 9 then [(dmaNode hub c, ownerNode hub (bits x.lvl 8 8) (x.lvl % 256))]
    else if 0x020200000000 ≤ x.lvl && x.lvl < 0x020200400000 then
      [(dmaNode hub c, wfgNode 2 ((x.lvl - 0x020200000000) / 16))]
    else []
  else if x.st = .preempted then
    ((hubDma s hub).filter fun p => p.2.mover && p.2.prio ≥ x.prio).map fun p => (dmaNode hub c, dmaNode hub p.1)
  else []

/-- A remote fence waits on the ports that carry the writes it covers; the counters it is to notify wait on it (R205, R607). -/
def fenceEdges (s : M8) (t : Nat) (x : Tile) (e : RFence) : List (Nat × Nat) :=
  let conns := ((s.job.packed.filter fun p => p.tile == t && e.covers.contains p.req).map fun p => (rankOf s p.rank).conn).eraseDups
  let ports := conns.flatMap fun c => (livePaths s c).map fun j => (pathInfo s c j).port
  ports.eraseDups.map (fun p => (fenceNode t e.seq, wfgNode 7 p)) ++
    (e.notify.filter fun r => x.threads.any fun y => y.2.wait matches .obj _ _ && (match y.2.wait with
      | .obj q _ => q == r
      | _ => false)).map fun r => (wfgNode 2 r, fenceNode t e.seq)

/-- The edges of the graph in the present state (R607). -/
def wfgEdges (s : M8) : List (Nat × Nat) :=
  let tiles := s.tiles.flatMap fun p =>
    (p.2.threads.flatMap fun y => threadEdges s p.1 y.1 y.2) ++ p.2.rfences.flatMap fun e => fenceEdges s p.1 p.2 e
  let pools := (List.range 8).flatMap fun k => ownerEdges s (k / 2) (k % 2)
  let dma := s.hubs.dma.flatMap fun p => dmaEdges s (p.1 / 64) (p.1 % 64) p.2
  (tiles ++ pools ++ dma).eraseDups

/-- The first pass of a graph whose trigger is recorded and whose first pass has not been made (R606, R607). -/
def wfgFirstPass (s : M8) : M8 :=
  match s.dbg.wfgTrigger, s.dbg.wfgFirstTime with
  | some _, none => modDbg s fun d => { d with wfgFirst := wfgEdges s, wfgFirstTime := some s.clk.now }
  | _, _ => s

/-- A graph is triggered (R606): one at a time. -/
def wfgStart (s : M8) (trigger : Nat) : M8 :=
  if odNat s Od.WFG_ENABLE = 1 && s.dbg.wfgTrigger.isNone then
    wfgFirstPass (modDbg s fun d => { d with wfgTrigger := some (s.clk.now, trigger) })
  else s

/-- WFG_NOW aborts every value but 1 (R626). -/
def wfgNowAbort (v : Nat) : Option Nat := if v = 1 then none else some 0x06090030

/-- WFG_NOW written (R606). -/
def execWfgNow (value : Nat) (s : State) : Out :=
  live s fun m => if (wfgNowAbort value).isSome then m else wfgStart m 3

/-- HANG_DETECT (R606): a tile with live threads has completed no dispatch and released no sync object for HANG_MS. -/
def execHangDetect (tile : Nat) (s : State) : Out :=
  live s fun m =>
    let x := getTile m tile
    if x.st = .running && !allHalted x && m.clk.now ≥ m.dbg.lastProgress.get 0 tile + odNat m Od.HANG_MS * 1000000 then
      wfgStart m 1
    else m

/-- The nodes that the edges es reach from a list of nodes, in at most the given number of rounds. -/
def reach (es : List (Nat × Nat)) : Nat → List Nat → List Nat
  | 0, ns => ns
  | f + 1, ns =>
    let more := (es.filter fun e => ns.contains e.1 && !ns.contains e.2).map Prod.snd
    if more.isEmpty then ns else reach es f (ns ++ more.eraseDups)

/-- Does an edge lie on a cycle of es? -/
def inCycle (es : List (Nat × Nat)) (e : Nat × Nat) : Bool := (reach es es.length [e.2]).contains e.1

/-- The graph as WFG holds it (R608). -/
def wfgBytes (time trigger : Nat) (a b : List (Nat × Nat)) : Bytes :=
  let stable := a.filter b.contains
  let all := a ++ b.filter fun e => !a.contains e
  natLe 8 time ++ natLe 1 trigger ++ zeros 3 ++ natLe 4 all.length ++ zeros 16 ++
    all.flatMap fun e => natLe 4 e.1 ++ natLe 4 e.2 ++
      natLe 1 (b2n (stable.contains e) + 2 * b2n (stable.contains e && inCycle stable e)) ++ zeros 3

/-- WFG_SECOND_PASS (R607): 100 us after the first pass the inputs are read again, edges of both passes are STABLE, and the
graph is the newest one. -/
def execWfgSecondPass (s : State) : Out :=
  live s fun m =>
    match m.dbg.wfgTrigger, m.dbg.wfgFirstTime with
    | some (t, k), some t1 =>
      if m.clk.now ≥ t1 + 100000 then
        modDbg (odPut m Od.WFG (.bytes (wfgBytes t k m.dbg.wfgFirst (wfgEdges m)))) fun d =>
          { d with wfgTrigger := none, wfgFirst := [], wfgFirstTime := none }
      else m
    | _, _ => m

/-- COMMIT_DEADLINE (R129, R606). -/
def execCommitDeadline (idx n : Nat) (s : State) : Out := live s fun m => wfgFirstPass (commitDeadline m idx n)

/-- HARD_JUMP (R120 to R122, R606). -/
def execHardJump (s : State) : Out := live s fun m => wfgFirstPass (hardJump m)

/-! ### Event rings (R611) -/

/-- An event record (R610). -/
def EvRec.bytes (e : EvRec) : Bytes :=
  natLe 8 e.time ++ natLe 1 e.kind ++ natLe 1 e.agent ++ natLe 1 e.sub ++ zeros 1 ++ natLe 4 e.arg

/-- The rings in the order EVENT_RINGS returns them: the agents of R43, each Pavane, each Promenade (R609, R611). -/
def ringNumbers : List Nat :=
  (List.range 0x40) ++ (List.range 12).map (· + 0x40) ++ (List.range 0x22).map (· + 0x50) ++
    (List.range 4).map (· + 0x80) ++ (List.range 4).map (· + 0x90)

/-- EVENT_RINGS (R611). -/
def eventRings (s : M8) : Bytes :=
  ringNumbers.flatMap fun n =>
    let r := (s.dbg.rings.get [] n).reverse
    natLe 1 n ++ zeros 1 ++ natLe 2 r.length ++ zeros 4 ++ r.flatMap EvRec.bytes

/-! ### The global stop (R612 to R616) -/

/-- STOP_N falls: a stop starts (R612). -/
def execStopNFall (s : State) : Out :=
  aon s fun m => startStop (modDbg m fun d => { d with stopNLow := true }) 1

/-- The stop in force is released (R615): every clock starts again, shared source 0x18B pulses, and the
device lets go of STOP_N where it drove it. Session idle time did not count during the stop (R617). -/
def releaseStop (s : M8) : M8 :=
  let own := s.dbg.stopOwn && (odNat s Od.STOP_CFG).testBit 0
  let idle := s.clk.now - odNat s Od.STOP_TIME
  let s := { s with dict := { s.dict with
    sessions := s.dict.sessions.map (fun x => { x with active := min (x.active + idle) s.clk.now }),
    hellos := s.dict.hellos.map (fun x => { x with time := x.time + idle }),
    holds := s.dict.holds.map fun x => { x with time := x.time + idle } } }
  let s := modDbg s fun d => { d with stop := false, stopCause := 0, stopOwn := false, releasePending := false }
  let s := pulse (odSet s Od.STOP_STATUS (stopStatus s)) 0x18B
  if own then emit s (.pin "STOP_N" true) else s

/-- A release: held pending while STOP_N is low (R615). Without a stop there is nothing to release. -/
def globalRelease (s : M8) : M8 :=
  if !s.dbg.stop then s
  else if s.dbg.stopNLow then
    let s := modDbg s fun d => { d with releasePending := true }
    odSet s Od.STOP_STATUS (stopStatus s)
  else releaseStop s

/-- GLOBAL_STOP: the entry is written with 0x0000_5709 (R612). -/
def execGlobalStop (s : State) : Out := aon s fun m => startStop m 2

/-- GLOBAL_RELEASE: the entry is written with 0x0000_6E1A (R615). -/
def execGlobalRelease (s : State) : Out := aon s globalRelease

/-- STOP_N rises: a pending release takes effect (R615). -/
def execStopNRise (s : State) : Out :=
  aon s fun m =>
    let m := modDbg m fun d => { d with stopNLow := false }
    if m.dbg.releasePending then releaseStop m else m

/-- What a write of GLOBAL_STOP aborts with (R626). -/
def globalStopAbort (v : Nat) : Option Nat := if v = 0x5709 || v = 0x6E1A then none else some 0x06090030

/-! ### Scan-out (R617 to R619) -/

/-- The chains SCAN_MAP lists, as (chain, bits) (R619). -/
def scanChains : List (Nat × Nat) := (chunks 8 Config.scanMap).map fun b => (leField b 0 2, leField b 4 4)

/-- The bits of a chain as bytes: its bits, padded with 0 to a byte (R619). -/
def chainBytes (s : M8) (chain bitsOf : Nat) : Bytes :=
  natLe (ceilDiv bitsOf 8) (leNat (Config.scanChain s.dbg.scanNo chain) % 2 ^ bitsOf)

/-- SCAN_OUT (R619). -/
def scanOut (s : M8) : Bytes :=
  natLe 2 0x5343 ++ natLe 1 1 ++ natLe 1 s.dbg.stopCause ++ natLe 8 (odNat s Od.STOP_TIME) ++ natLe 8 (odNat s Od.STOP_PAV) ++
    natLe 4 scanChains.length ++ zeros 8 ++ scanChains.flatMap fun c => chainBytes s c.1 c.2

/-- A byte a test port reads: tile SRAM, hub SRAM, sync objects or HBM, all ones elsewhere (R617, R619). -/
def portByte (s : M8) (a : Nat) : Byte :=
  if 0x020200000000 ≤ a && a < 0x020200400000 then
    BitVec.ofNat 8 ((getSync s ((a - 0x020200000000) / 16)).word >>> (8 * (a % 16)))
  else if a ≥ 0x030000000000 then 0xFF#8
  else (memByte s a).getD 0xFF#8

/-- n bytes through the test ports. -/
def portBytes (s : M8) (a n : Nat) : Bytes := (List.range n).map fun i => portByte s (a + i)

/-- MEM_OUT (R619). -/
def memOut (s : M8) : Bytes := portBytes s (odNat s Od.MEM_ADDR) (odNat s Od.MEM_LEN)

/-- SCAN_OUT and MEM_OUT are read in a stop alone (R626). -/
def scanAbort (s : M8) : Option Nat := if s.dbg.stop then none else some 0x08000021

/-- SCAN_OUT_READ (R619): every chain is rotated out and back in. -/
def execScanOutRead (s : State) : Out :=
  aon s fun m => if (scanAbort m).isSome then m else emit m (.readBytes (scanOut m))

/-- MEM_OUT_READ (R619). -/
def execMemOutRead (s : State) : Out :=
  aon s fun m => if (scanAbort m).isSome then m else emit m (.readBytes (memOut m))

/-! ### The test mux (R620, R621) -/

/-- Is a signal number one of the table of R621? -/
def tmuxSignal (v : Nat) : Bool :=
  v ≤ 0x18C ||
  (0x200 ≤ v && v < 0x400 && (v - 0x200) % 64 < 35) ||
  (0x400 ≤ v && v ≤ 0x415) || (0x420 ≤ v && v ≤ 0x426) || (0x428 ≤ v && v ≤ 0x42B) ||
  (0x800 ≤ v && v < 0xC00) ||
  (0xC00 ≤ v && v < 0xE00 && v % 16 < 12) ||
  (0xE00 ≤ v && v ≤ 0xF8F) || (0xF90 ≤ v && v ≤ 0xF97)

/-- What a write of a TMUX_SEL aborts with: a reserved number (R620); numbers of 0x1000 on stand in no table but 0xFFFF. -/
def tmuxAbort (v : Nat) : Option Nat := if tmuxSignal v || v = 0xFFFF then none else some 0x06090040

/-- A selection is written by a session (R620); output is 0 to 3. -/
def tmuxSelect (s : M8) (output sid : Nat) : M8 :=
  modDbg s fun d => { d with tmuxOwner := d.tmuxOwner.set 0 (output + 1) sid }

/-- TMUX_SEL written (R620). -/
def execTmuxSel (output value sid : Nat) (s : State) : Out :=
  live s fun m =>
    if output ≥ 4 || (tmuxAbort value).isSome then m
    else tmuxSelect (odSet m (Od.TMUX_SEL + output) value) output sid

/-! ### JTAG (R623 to R625) -/

def modTap (s : M8) (f : Jtag → Jtag) : M8 := { s with jtag := f s.jtag }

/-- An instruction is selected; the balls return to the device unless it keeps them (R625). -/
def tapSelect (s : M8) (ir : Nat) : M8 := modTap s fun j => { j with ir := ir, held := ir == 0x00 || ir == 0x03 || ir == 0x04 }

/-- EXTEST, CLAMP and HIGHZ with a job loaded: a unit fault of KIND 3 that the member declares against itself (R625). -/
def ballsTaken (s : M8) : M8 := if jobLoaded s then declareSelf s 3 else s

/-- A locked instruction selected without an unlock acts as BYPASS (R624). -/
def tapLocked (s : M8) (ir : Nat) (f : M8 → M8) : M8 :=
  if s.jtag.unlocked then f (tapSelect s ir) else tapSelect s 0xFF

/-- EXTEST: the boundary register drives the balls (R623, R625). -/
def execJtagExtest (pattern : Bytes) (s : State) : Out :=
  aon s fun m => ballsTaken (modTap (tapSelect m 0x00) fun j => { j with boundary := pattern })

/-- SAMPLE/PRELOAD: the levels at the balls come out, the pattern goes in (R623). The levels are the board's. -/
def execJtagSamplePreload (pattern : Bytes) (s : State) : Out :=
  aon s fun m =>
    let (b, m) := drawBytes m pattern.length
    emit (modTap (tapSelect m 0x01) fun j => { j with boundary := pattern }) (.tdo b)

/-- IDCODE (R623). -/
def execJtagIdcode (s : State) : Out := aon s fun m => emit (tapSelect m 0x02) (.tdo (natLe 4 0x108127CB))

/-- CLAMP: the balls hold what the boundary register has; BYPASS stands between TDI and TDO (R623, R625). -/
def execJtagClamp (s : State) : Out := aon s fun m => ballsTaken (tapSelect m 0x03)

/-- HIGHZ (R625). -/
def execJtagHighz (s : State) : Out := aon s fun m => ballsTaken (tapSelect m 0x04)

/-- The JTAG instruction STOP (R612, R624). -/
def execJtagStop (s : State) : Out := aon s fun m => tapLocked m 0x10 fun m => startStop m 3

/-- The JTAG instruction RELEASE (R615, R624). -/
def execJtagRelease (s : State) : Out := aon s fun m => tapLocked m 0x11 globalRelease

/-- SCAN: one chain rotated out, in a stop (R617, R623). -/
def execJtagScan (chain : Nat) (s : State) : Out :=
  aon s fun m => tapLocked m 0x12 fun m =>
    if m.dbg.stop then
      match scanChains.find? fun c => c.1 == chain with
      | some c => emit m (.tdo (chainBytes m c.1 c.2))
      | none => m
    else tapSelect m 0xFF

/-- MEMRD: memory through the test ports, in a stop (R617, R623). -/
def execJtagMemrd (addr len : Nat) (s : State) : Out :=
  aon s fun m => tapLocked m 0x13 fun m =>
    if m.dbg.stop then emit m (.tdo (portBytes m (addr % 2 ^ 48) (len % 2 ^ 24))) else tapSelect m 0xFF

/-- The proof that unlocks (R624). -/
def tapProof (s : M8) : Bytes := hmacSha256 (levelKey s 2) (ascii "M8-JTAG" ++ s.jtag.nonce ++ serialBytes s)

/-- UNLOCK: one attempt for a nonce; a failure counts towards the maintainer level's lockout, and a locked level or an empty
key slot unlocks nothing (R87, R624). -/
def execJtagUnlock (proof : Bytes) (s : State) : Out :=
  aon s fun m =>
    let m := tapSelect m 0x14
    let good := m.jtag.nonceGood && !levelLocked m 2 && !(levelKey m 2).all (· == 0#8) && proof == tapProof m
    let m := modTap m fun j => { j with nonceGood := false }
    if good then modTap m fun j => { j with unlocked := true } else authFail m 2

/-- STATUS: the stop status and unlock state, then a fresh nonce (R623, R624). -/
def execJtagStatus (s : State) : Out :=
  aon s fun m =>
    let (n, m) := drawBytes m 16
    let m := modTap (tapSelect m 0x15) fun j => { j with nonce := n, nonceGood := true }
    emit m (.tdo (natLe 8 (Config.jtagStatus (stopStatus m) m.jtag.unlocked) ++ n))

/-- BYPASS, or an opcode the table does not list: data passes through one bit late (R623). -/
def execJtagBypass (opcode : Nat) (data : Bytes) (s : State) : Out :=
  aon s fun m =>
    if opcode ≤ 0x04 || (0x10 ≤ opcode && opcode ≤ 0x15) then m
    else emit (tapSelect m 0xFF) (.tdo (natLe data.length (2 * leNat data)))

/-- Test-Logic-Reset (R623, R624). -/
def execTestLogicReset (s : State) : Out := aon s fun m => modTap (tapSelect m 0x02) fun j => { j with unlocked := false }

/-! ### The PCIe link (R593) -/

/-- PCIE_LINK_CHANGE: the link trains up, goes down or changes; the endpoint's source pulses (R415, R593). rate is 1 to 6 for
2.5 to 64 GT/s, width the lanes. -/
def execPcieLinkChange (up : Bool) (rate width : Nat) (s : State) : Out :=
  live s fun m =>
    if up && !((1 ≤ rate && rate ≤ 6) && [1, 2, 4, 8, 16].contains width) then m
    else
      let r := m.rings
      pulse (modRings m fun _ => { r with linkUp := up, linkRate := if up then rate else 0, linkWidth := if up then width else 0 }) 0x187

end Machine
end Sys2Proof
end

