-- ==== Sys2Proof/Machine/Ports.lean ====
section
/-!
DEFINITION. Sys2Proof/Machine/Ports.lean: port states and bring-up (R444 to R448), lane retirement, sparing and return
(R449 to R453), lasers (R454 to R457), the reset of control cores (R458): the commands of the optics.
-/
namespace Sys2Proof
namespace Machine

/-! ### Port states (R444 to R446) -/

/-- A device with a FIXED_ADDRESS takes it when its first port enters state 4; it must be a master candidate of its map
(R471). -/
def takeFixed (s : M8) : M8 :=
  let a := odInForce s Od.FIXED_ADDRESS
  if a = 0xFFFF || ownAddr s != 0xFFFF then s
  else if (positions s).any fun p => p.addr == a && p.rank != 0 then
    withNet s fun s => odSet (odSet s Od.FABRIC_ADDRESS a) Od.ADDR_STATUS 2
  else odSet s Od.ADDR_STATUS 3

/-- A port enters a state, with what follows for Promenade, the paths and the bring-up queue (R444 to R448, R464, R506).
The port's event pulses (R593). -/
def enterPortSt (s : M8) (p : Nat) (st : PortSt) : M8 :=
  let old := getPort s p
  if old.st = st then s else
  let s := modPort s p fun x => { x with st := st, away := if old.st = .up || old.st = .disabled then s.clk.now else x.away }
  let s := portPulse s p
  let s := if old.st = .up then (if old.acsal then linkLeaves s p else suspendPaths s p) else s
  let s := if st = .stopping || st = .fault then returnQueued s p else s
  let s := if st = .fault then failPathsOn s p 2 else s
  let s := if st = .up then
      let s := sendQueued s p
      if old.acsal then linkEnters (takeFixed s) p else resumePaths (ethEnters s p) p
    else s
  if st = .disabled && [0, 1, 2, 3].all fun i => (getPort s (4 * (p / 4) + i)).st == .disabled then
    modEngine s (p / 4) fun e => { e with idleSince := s.clk.now }
  else s

/-- ENABLE 1 of a disabled port: its engine is powered and its lasers ramp (R444, R561). Lanes that are neither retired
nor faulted work. An engine whose domain is unusable stays off (R572, R634). -/
def startPort (s : M8) (p : Nat) : M8 :=
  if s.pwr.domOff.get false (76 + p / 4) then s else
  let s := { s with pwr := { s.pwr with oeOn := s.pwr.oeOn.set false (p / 4) true } }
  let s := modPort s p fun x => { x with enable := true, pending := false }
  let s := (portLanes s p).foldl (fun s l =>
    laserOn (modLane s l fun x => if x.lstate ≥ 4 then x else { x with lstate := 1 }) l) s
  enterPortSt s p .ramping

/-- ENABLE 1 written (R444, R446): a disabled port starts, a stopping one holds the enable pending. -/
def enablePort (s : M8) (p : Nat) : M8 :=
  match (getPort s p).st with
  | .disabled => startPort s p
  | .stopping => modPort s p fun x => { x with pending := true }
  | _ => s

/-- ENABLE 0 written (R446): the port stops and its lasers ramp down; in state 5 a pending enable is cancelled. -/
def disablePort (s : M8) (p : Nat) : M8 :=
  match (getPort s p).st with
  | .disabled => s
  | .stopping => modPort s p fun x => { x with pending := false }
  | _ =>
    let s := enterPortSt (modPort s p fun x => { x with enable := false }) p .stopping
    (portLanes s p).foldl laserOff s

/-- RETRAIN written: a port in state 4 acquires again; otherwise the write is dropped with REFUSED. -/
def retrainPort (s : M8) (p : Nat) : M8 :=
  if portUp s p then enterPortSt s p .acquiring else modPort s p fun x => { x with refused := true }

/-- The guard of the write that enables a port, which reaches an engine that is off (R441, R561). -/
def oeEnableWrite (s : M8) (agent k off : Nat) (f : M8 → M8) : M8 :=
  if oeMayWrite agent k then f s else addressError s agent (oeReg k off)

/-- The guard of every other write to a port's, engine's or laser's register (R441): an engine that is off is a hole (R562). -/
def oeWrite (s : M8) (agent k off : Nat) (f : M8 → M8) : M8 :=
  if oeMayWrite agent k && s.pwr.oeOn.get false k then f s else addressError s agent (oeReg k off)

/-- Offset of PORT_CTL of port 4k + p in its engine's block. -/
def portOff (p : Nat) : Nat := 0x10000 + (p % 4) * 0x100

/-- PORT_ENABLE (R444, R446). -/
def execPortEnable (agent port : Nat) (s : State) : Out :=
  live s fun m => if port < 32 then oeEnableWrite m agent (port / 4) (portOff port) fun m => enablePort m port else m

/-- PORT_DISABLE (R446). -/
def execPortDisable (agent port : Nat) (s : State) : Out :=
  live s fun m => if port < 32 then oeWrite m agent (port / 4) (portOff port) fun m => disablePort m port else m

/-- PORT_RETRAIN (R444). -/
def execPortRetrain (agent port : Nat) (s : State) : Out :=
  live s fun m => if port < 32 then oeWrite m agent (port / 4) (portOff port) fun m => retrainPort m port else m

/-! ### Retirement (R449, R450) -/

/-- A lane command starts on an engine (R451 to R453). -/
def startLaneCmd (s : M8) (k : Nat) (c : LaneJobCmd) : M8 :=
  modEngine s k fun e => { e with cmd := some c, result := if c.own then 1 else e.result }

/-- A lane command of an engine ends with a RESULT. -/
def endLaneCmd (s : M8) (k result : Nat) : M8 :=
  modEngine s k fun e => { e with cmd := none, result := if (e.cmd.elim true LaneJobCmd.own) then result else e.result }

/-- A lane leaves its port: retired or faulted stays written, its laser ramps down. -/
def laneDark (s : M8) (k lane st : Nat) : M8 := laserOff (modLane s (18 * k + lane) fun x => { x with lstate := st, trend := false }) (18 * k + lane)

/-- The port goes on narrower, or to state 6 below DEGRADE_MIN_LANES (R450 step 2). -/
def narrow (s : M8) (p lane st : Nat) : M8 :=
  let s := setMap4 s p ((portMap s p).map fun l => if l = lane then 0x1F else l)
  let s := laneDark s (p / 4) lane st
  if lanesUsed s p ≥ odNat s Od.DEGRADE_MIN_LANES then
    let s := if lanesUsed s p = 3 then portPulse s p else s
    emit s (.marker p 3 lane)
  else if (getPort s p).st = .disabled || (getPort s p).st = .stopping then s
  else enterPortSt s p .fault

/-- A lane is retired (lstate 4) or faulted (5): the order of R450. A swap by markers needs the port up and its engine
free; a port not yet up takes the spare at once. -/
def retireLane (s : M8) (k lane st : Nat) : M8 :=
  match lanePort s k lane with
  | none => laneDark s k lane st
  | some p =>
    let x := getPort s p
    if !x.acsal then
      let s := laneDark s k lane st
      if x.st = .disabled || x.st = .stopping then s else enterPortSt s p .fault
    else match freeSpare s p, (getEngine s k).cmd with
      | some sp, none =>
        if x.st = .up then
          let s := modLane s (18 * k + lane) fun y => { y with lstate := if st = 5 then 5 else y.lstate, trend := false }
          let s := laserOn s (18 * k + sp)
          startLaneCmd s k { op := 1, port := p, lane := lane, target := sp, phase := 1, since := s.clk.now }
        else
          let s := setMap4 s p ((portMap s p).map fun l => if l = lane then sp else l)
          laserOn (modLane (laneDark s k lane st) (18 * k + sp) fun y => { y with lstate := 1 }) (18 * k + sp)
      | _, _ => narrow s p lane st

/-- A swap or return fails (R451, R452): RESULT 4; a swap's lane is retired by narrowing, the spare goes dark. -/
def failLaneCmd (s : M8) (k : Nat) : M8 :=
  match (getEngine s k).cmd with
  | none => s
  | some c =>
    let s := endLaneCmd s k 4
    if c.op = 1 then
      let s := if (getLane s (18 * k + c.target)).lstate ≥ 4 then s else laneDark s k c.target 0
      let st := if (getLane s (18 * k + c.lane)).lstate = 5 then 5 else 4
      if lanePort s k c.lane = some c.port then narrow s c.port c.lane st else s
    else laneDark s k c.lane 4

/-- A laser's fault reaches its lane (R449): a lane of a command in progress ends it; a working lane is faulted, by R450 at
once, or at the end of the ramp while its port is in state 1. -/
def laserFault (s : M8) (c : Nat) : M8 :=
  let k := c / 18
  let lane := c % 18
  let l := getLane s c
  let hit : Bool := match (getEngine s k).cmd with
    | some q => (q.op == 1 && q.target == lane) || (q.op == 2 && q.lane == lane)
    | none => false
  if hit then failLaneCmd (modLane s c fun x => { x with lstate := 5 }) k
  else if l.lstate = 0 || l.lstate = 4 || l.lstate = 5 then s
  else
    let s := modLane s c fun x => { x with lstate := 5 }
    match lanePort s k lane with
    | some p => if (getPort s p).st = .up || (getPort s p).st = .settling || (getPort s p).st = .acquiring then retireLane s k lane 5 else s
    | none => s

/-- Every laser of the port's lanes is at set or has faulted (R444). A laser with APC 0 is ramped when it holds BIAS_MAX. -/
def rampDone (s : M8) (p : Nat) : Bool :=
  (portLanes s p).all fun c =>
    let x := getLaser s c
    x.atSet || x.faulted || (getLane s c).lstate ≥ 4 || (!x.apc && x.on && x.ramp == 0)

/-- PORT_RAMP_DONE (R444): faulted lanes are handled under R450, and the port settles. -/
def execPortRampDone (port : Nat) (s : State) : Out :=
  live s fun m =>
    if port < 32 && (getPort m port).st = .ramping && rampDone m port then
      let bad := (portLanes m port).filter fun c => (getLaser m c).faulted || (getLane m c).lstate ≥ 4
      let m := bad.foldl (fun m c => retireLane m (c / 18) (c % 18) (max 4 (if (getLaser m c).faulted then 5 else 4))) m
      if (getPort m port).st = .ramping && rampDone m port then enterPortSt m port .settling else m
    else m

/-- SYNTH_LOCK (R444). -/
def execSynthLock (port : Nat) (s : State) : Out :=
  live s fun m => if port < 32 && (getPort m port).st = .settling then enterPortSt m port .acquiring else m

/-- SYNTH_LOCK_LOST of a port that acquires (R444). -/
def execSynthLockLost (port : Nat) (s : State) : Out :=
  live s fun m => if port < 32 && (getPort m port).st = .acquiring then enterPortSt m port .settling else m

/-- PORT_ACQUIRED (R444, R448): every lane in use gives light and works. -/
def execPortAcquired (port : Nat) (s : State) : Out :=
  live s fun m =>
    if port < 32 && (getPort m port).st = .acquiring && rampDone m port &&
        (portLanes m port).all fun c => (getLane m c).lstate == 1 && !(getLaser m c).faulted
    then enterPortSt m port .up else m

/-- PORT_LOCK_LOST (R444, R445, R464): lanes is the mask of logical lanes that lost lock; synth tells a synthesiser that
lost lock. -/
def execPortLockLost (port lanes : Nat) (synth : Bool) (s : State) : Out :=
  live s fun m =>
    if port < 32 && portUp m port then
      let m := (List.range 4).foldl (fun m i =>
        let l := (portMap m port).getD i 0x1F
        if bit lanes i && l != 0x1F then
          modLane m (18 * (port / 4) + l) fun x => { x with flaps := m.clk.now :: x.flaps.filter fun t => m.clk.now < t + 3600000000000 }
        else m) m
      enterPortSt m port (if synth then .settling else .acquiring)
    else m

/-- PORT_FAULT_TIMEOUT (R444): 10 ms without state 4. -/
def execPortFaultTimeout (port : Nat) (s : State) : Out :=
  live s fun m =>
    let x := getPort m port
    if port < 32 && (x.st = .ramping || x.st = .settling || x.st = .acquiring) && m.clk.now ≥ x.away + 10000000 then
      enterPortSt m port .fault
    else m

/-- PORT_STOP_DONE (R446): the lasers are dark; a pending enable takes effect. -/
def execPortStopDone (port : Nat) (s : State) : Out :=
  live s fun m =>
    if port < 32 && (getPort m port).st = .stopping && (portLanes m port).all fun c => (getLaser m c).dark then
      let m := (portLanes m port).foldl (fun m l => modLane m l fun x => if x.lstate ≥ 4 then x else { x with lstate := 0 }) m
      let m := enterPortSt m port .disabled
      if (getPort m port).pending then startPort m port else m
    else m

/-- TX_COMMAND (R447): a hub unit asks a port to send a frame; the status goes back to it. -/
def execTxCommand (port : Nat) (frame : Bytes) (s : State) : Out :=
  live s fun m =>
    if port < 32 then
      let (st, m) := txCommand m port (.bytes frame)
      emit m (.fwStatus st)
    else m

/-! ### Monitors and trends (R449) -/

/-- An hour of means ends (R449): the means of the hour are kept, as many as the longest window takes. -/
def Lane.hour (x : Lane) (now : Nat) : Lane :=
  if now ≥ x.hourStart + 3600000000000 && x.samples > 0 then
    { x with eyeHours := (x.eyeSum / x.samples :: x.eyeHours).take 2160,
             biasHours := (x.biasSum / x.samples :: x.biasHours).take 2160,
             hourStart := now, samples := 0, eyeSum := 0, biasSum := 0 }
  else x

/-- LANE_MONITOR_UPDATE (R449): what the monitors of lane 18k + j read over the last second: errs of symbols corrected, eye
and bias. A value beyond its retire value retires the lane at once; a lane under test fails its soak. -/
def execLaneMonitorUpdate (lane errs symbols eye bias : Nat) (s : State) : Out :=
  live s fun m =>
    let x := getLane m lane
    if lane < 144 && (x.lstate = 1 || x.lstate = 2 || x.lstate = 3) && (getLaser m lane).on then
      let x := { x with eye := eye % 256, bias := bias % 65536, symErr := (x.symErr + errs) % 2 ^ 32, samples := x.samples + 1,
                        eyeSum := x.eyeSum + eye % 256, biasSum := x.biasSum + bias % 65536 }
      let x := x.hour m.clk.now
      let m := setLane m lane x
      let flaps := (x.flaps.filter fun t => m.clk.now < t + 3600000000000).length
      let bad := errs * 1000000000 > odNat m Od.BER_RETIRE * symbols || eye % 256 < odNat m Od.EYE_MIN_RETIRE ||
        bias % 65536 > odNat m Od.DRIFT_RETIRE || flaps ≥ odNat m Od.FLAP_LIMIT
      let k := lane / 18
      let busy : Bool := match (getEngine m k).cmd with
        | some c => c.lane == lane % 18
        | none => false
      if x.lstate = 3 then (if bad then failLaneCmd m k else m)
      else if bad && !busy then retireLane m k (lane % 18) 4
      else if x.trend && !busy && jobState m != 3 then retireLane m k (lane % 18) 4
      else m
    else m

/-- Does the least-squares line over the values ys, one an hour, newest first, pass limit now or within ahead hours? below
asks for a fall below it (R449). -/
def lineCrosses (ys : List Nat) (limit ahead : Nat) (below : Bool) : Bool :=
  let n : Int := ys.length
  let ts : List Int := (List.range ys.length).map fun (i : Nat) => (n - 1 - (i : Int))
  let st : Int := ts.foldl (· + ·) 0
  let stt : Int := ts.foldl (fun a t => a + t * t) 0
  let sy : Int := ys.foldl (fun (a : Int) (y : Nat) => a + (y : Int)) 0
  let sty : Int := (ts.zip ys).foldl (fun (a : Int) (p : Int × Nat) => a + p.1 * (p.2 : Int)) 0
  let den := n * stt - st * st
  let num := n * sty - st * sy
  let beyond (t : Int) : Bool :=
    let v := sy * den + num * (n * t - st)
    let l := (limit : Int) * n * den
    if below then v < l else v > l
  den > 0 && (beyond (n - 1) || beyond (n - 1 + (ahead : Int)))

/-- LANE_TREND_FIT (R449, R450): a lane whose line crosses a retire value within the horizon is retired on trend; one that
would narrow or fault its port waits until no job is Running. -/
def execLaneTrendFit (lane : Nat) (s : State) : Out :=
  live s fun m =>
    let x := (getLane m lane).hour m.clk.now
    if lane < 144 && x.lstate = 1 then
      let m := setLane m lane x
      let w := odNat m Od.TREND_WINDOW_H
      let ahead := 24 * odNat m Od.TREND_HORIZON_D
      if lineCrosses (x.eyeHours.take w) (odNat m Od.EYE_MIN_RETIRE) ahead true ||
          lineCrosses (x.biasHours.take w) (odNat m Od.DRIFT_RETIRE) ahead false then
        let k := lane / 18
        let free : Bool := match lanePort m k (lane % 18) with
          | some p => (getPort m p).acsal && (freeSpare m p).isSome && (getEngine m k).cmd.isNone
          | none => true
        if free || jobState m != 3 then retireLane m k (lane % 18) 4
        else setLane m lane { x with trend := true }
      else m
    else m

/-! ### LANE_CMD (R451 to R453) -/

/-- LANE_CMD written by an agent: op 1 SWAP, 2 RETURN, 3 RETIRE; busy sets REFUSED (R453). -/
def laneCmd (s : M8) (agent k op lane target : Nat) : M8 :=
  oeWrite s agent k 0x10 fun s =>
    if op = 0 || op > 3 then s
    else if (getEngine s k).result = 1 || (getEngine s k).cmd.isSome then modEngine s k fun e => { e with refused := true }
    else
      let refuse := modEngine s k fun e => { e with result := 3 }
      let l := getLane s (18 * k + lane)
      let x := getLaser s (18 * k + lane)
      if op = 1 then
        match lanePort s k lane with
        | some p =>
          if l.lstate = 1 && acsalUp s p && (target = 16 || target = 17) && spareHome s k target = some p && spareFree s k target then
            startLaneCmd (laserOn s (18 * k + target)) k
              { op := 1, port := p, lane := lane, target := target, phase := 1, since := s.clk.now }
          else refuse
        | none => refuse
      else if op = 2 then
        let home := if lane < 16 then some (4 * k + lane / 4) else spareHome s k lane
        match home with
        | some p =>
          if (l.lstate = 4 || l.lstate = 5) && acsalUp s p && !x.short && !x.railFail && lane < 18 && (portMap s p).contains target &&
              (target = 0x1F || target = 16 || target = 17) then
            startLaneCmd (laserOn (modLane s (18 * k + lane) fun y => { y with lstate := 3 }) (18 * k + lane)) k
              { op := 2, port := p, lane := lane, target := target, phase := 1, since := s.clk.now }
          else refuse
        | none => refuse
      else
        match lanePort s k lane with
        | some p =>
          if l.lstate = 1 && (getPort s p).acsal then
            let s := retireLane s k lane 4
            if (getEngine s k).cmd.isSome then s else modEngine s k fun e => { e with result := 2 }
          else refuse
        | none => refuse

/-- LANE_SWAP (R451). -/
def execLaneSwap (agent engine lane target : Nat) (s : State) : Out :=
  live s fun m => if engine < 8 && lane < 18 then laneCmd m agent engine 1 lane target else m

/-- LANE_RETURN (R452). -/
def execLaneReturn (agent engine lane target : Nat) (s : State) : Out :=
  live s fun m => if engine < 8 && lane < 18 then laneCmd m agent engine 2 lane target else m

/-- LANE_RETIRE_CMD (R450, R453). -/
def execLaneRetireCmd (agent engine lane : Nat) (s : State) : Out :=
  live s fun m => if engine < 8 && lane < 18 then laneCmd m agent engine 3 lane 0 else m

/-- SWAP_MARKER_AGREE (R451, R452): both ends move the logical lane at the agreed marker: to the spare, whose laser is at
set; or back from it after the soak, or onto the returned lane of a degraded port. -/
def execSwapMarkerAgree (engine : Nat) (s : State) : Out :=
  live s fun m =>
    match (getEngine m engine).cmd with
    | none => m
    | some c =>
      let comes := if c.op = 1 then c.target else c.lane
      let leaves := if c.op = 1 then c.lane else c.target
      if engine < 8 && portUp m c.port && (getLaser m (18 * engine + comes)).atSet && (c.op = 1 || c.phase = 3) then
        let was := lanesUsed m c.port
        let i := (List.range 4).find? fun i => (portMap m c.port).getD i 0x1F == leaves
        let m := match i with
          | some i => setMap4 m c.port ((portMap m c.port).set i comes)
          | none => m
        let m := modLane m (18 * engine + comes) fun x => { x with lstate := 1 }
        let m := if leaves = 0x1F then m
          else if c.op = 2 then laneDark m engine leaves 0
          else laneDark m engine leaves (if (getLane m (18 * engine + leaves)).lstate = 5 then 5 else 4)
        let m := if lanesUsed m c.port = 4 && was < 4 then portPulse m c.port else m
        odInc (endLaneCmd m engine 2) Od.LANE_SWAPS
      else m

/-- SWAP_PARTNER_TIMEOUT (R451): 10 ms without the partner's agreement. -/
def execSwapPartnerTimeout (engine : Nat) (s : State) : Out :=
  live s fun m =>
    match (getEngine m engine).cmd with
    | some c => if engine < 8 && (c.op = 1 || c.phase = 3) && m.clk.now ≥ c.since + 10000000 then failLaneCmd m engine else m
    | none => m

/-- RETURN_SOAK_END (R452): after RETURN_SOAK_S seconds of a lane under test with every monitor clear, the move back waits
for its marker. -/
def execReturnSoakEnd (engine : Nat) (s : State) : Out :=
  live s fun m =>
    match (getEngine m engine).cmd with
    | some c =>
      if engine < 8 && c.op = 2 && c.phase = 2 && m.clk.now ≥ c.since + odNat m Od.RETURN_SOAK_S * 1000000000 then
        emit (modEngine m engine fun e => { e with cmd := some { c with phase := 3, since := m.clk.now } }) (.marker c.port 2 c.lane)
      else m
    | none => m

/-- PARTNER_LANE_CONTROL (R451): the partner asks for a swap (1), a return (2) or a narrower width (3) of a logical lane;
this end takes part where it can. -/
def execPartnerLaneControl (port op lane : Nat) (s : State) : Out :=
  live s fun m =>
    let k := port / 4
    let phys := (portMap m port).getD lane 0x1F
    if port < 32 && acsalUp m port && lane < 4 then
      if op = 1 then
        match freeSpare m port, (getEngine m k).cmd with
        | some sp, none =>
          if phys = 0x1F then m else
          startLaneCmd (laserOn m (18 * k + sp)) k { op := 1, port := port, lane := phys, target := sp, phase := 1, since := m.clk.now, own := false }
        | _, _ => m
      else if op = 2 then
        let back := 4 * (port % 4) + lane
        let l := getLane m (18 * k + back)
        if (getEngine m k).cmd.isNone && (l.lstate = 4 || l.lstate = 5) && phys != back &&
            !(getLaser m (18 * k + back)).short && !(getLaser m (18 * k + back)).railFail then
          startLaneCmd (laserOn (modLane m (18 * k + back) fun y => { y with lstate := 3 }) (18 * k + back)) k
            { op := 2, port := port, lane := back, target := phys, phase := 1, since := m.clk.now, own := false }
        else m
      else if op = 3 && phys != 0x1F then narrow m port phys 4
      else m
    else m

/-! ### Lasers (R454 to R457) -/

/-- Offset of LAS_CH_CTL of channel 18k + j. -/
def laserOff8 (c : Nat) : Nat := 0x40000 + (c % 18) * 0x40

/-- LASER_ON (R455). -/
def execLaserOn (agent channel : Nat) (s : State) : Out :=
  live s fun m => if channel < 144 then oeWrite m agent (channel / 18) (laserOff8 channel) fun m => laserOn m channel else m

/-- LASER_OFF (R455). -/
def execLaserOff (agent channel : Nat) (s : State) : Out :=
  live s fun m => if channel < 144 then oeWrite m agent (channel / 18) (laserOff8 channel) fun m => laserOff m channel else m

/-- A channel has reached its setting: a lane command waiting for it goes on to its next phase. -/
def laserAtSet (s : M8) (c : Nat) : M8 :=
  let k := c / 18
  match (getEngine s k).cmd with
  | some q =>
    if q.phase = 1 && ((q.op == 1 && q.target == c % 18) || (q.op == 2 && q.lane == c % 18)) then
      let s := if q.op = 1 then modLane s c fun x => { x with lstate := 2 } else s
      let since := if q.op = 1 then q.since else s.clk.now
      emit (modEngine s k fun e => { e with cmd := some { q with phase := 2, since := since } }) (.marker q.port q.op (c % 18))
    else s
  | none => s

/-- LASER_RAMP_STEP (R455): a step of 8 µs of a ramp that is not paused; reached tells that the monitor photodiode is at
APC_TARGET. How far a step raises the bias is not stated: a free value up to BIAS_MAX. -/
def execLaserRampStep (channel : Nat) (reached : Bool) (s : State) : Out :=
  live s fun m =>
    let x := getLaser m channel
    if channel ≥ 144 || x.paused || x.ramp = 0 then m
    else if x.ramp = 1 then
      let step := min 64 (x.step + 1)
      let (v, m) := drawFree m
      let x := { x with step := step, bias := v % (x.biasMax + 1) }
      if reached && x.apc then laserAtSet (setLaser m channel { x with ramp := 0, atSet := true }) channel
      else if step = 64 then
        let x := { x with ramp := 0, bias := x.biasMax }
        if x.apc then laserFault (laserPulse (setLaser m channel { x with lowpwr := true }) channel) channel
        else setLaser m channel x
      else setLaser m channel x
    else
      let step := x.step - 8
      if step = 0 then setLaser m channel { x with step := 0, bias := 0, ramp := 0 }
      else
        let (v, m) := drawFree m
        setLaser m channel { x with step := step, bias := v % (x.biasMax + 1) }

/-- Each channel of a rail does f. -/
def eachOnRail (s : M8) (rail : Nat) (f : M8 → Nat → M8) : M8 :=
  (List.range 6).foldl (fun s i => f s (18 * (rail / 3) + 6 * (rail % 3) + i)) s

/-- LASER_SHORT (R456): the switch of a channel that demands current opens and SHORT is latched; its rail falls, and the
ramps on it hold their step. -/
def execLaserShort (channel : Nat) (s : State) : Out :=
  live s fun m =>
    let x := getLaser m channel
    if channel < 144 && (x.on || x.ramp != 0) then
      let m := odInc (setLaser m channel { laserCut x with short := true }) Od.LASER_SHORTS
      let rail := railOf channel
      let m := if Sparse.has m.opt.rails rail then m else { m with opt := { m.opt with rails := m.opt.rails.put rail m.clk.now } }
      let m := eachOnRail m rail fun m c => modLaser m c fun y => if y.ramp = 0 then y else { y with paused := true }
      laserFault (laserPulse m channel) channel
    else m

/-- RAIL_RECOVER (R456): paused ramps resume from the held step. -/
def execRailRecover (rail : Nat) (s : State) : Out :=
  live s fun m =>
    if Sparse.has m.opt.rails rail then
      eachOnRail { m with opt := { m.opt with rails := m.opt.rails.drop rail } } rail fun m c => modLaser m c fun y => { y with paused := false }
    else m

/-- RAIL_FAIL_TIMEOUT (R457): 1 ms after it fell the rail is switched off, RAIL_FAIL is latched on its six channels, and
their lanes are faulted. -/
def execRailFailTimeout (rail : Nat) (s : State) : Out :=
  live s fun m =>
    match m.opt.rails.find rail with
    | some t =>
      if m.clk.now ≥ t + 1000000 then
        let m := odInc { m with opt := { m.opt with rails := m.opt.rails.drop rail } } Od.RAIL_FAULTS
        let m := eachOnRail m rail fun m c => setLaser m c { laserCut (getLaser m c) with railFail := true }
        let m := laserPulse m (18 * (rail / 3) + 6 * (rail % 3))
        eachOnRail m rail laserFault
      else m
    | none => m

/-- A lane command is abandoned (R458): RESULT 4; the spare it lit goes dark, the lane under test stays retired. -/
def abandonLaneCmd (s : M8) (k : Nat) (c : LaneJobCmd) : M8 :=
  let s := endLaneCmd s k 4
  if c.op = 1 then laneDark s k c.target 0 else laneDark s k c.lane 4

/-- CORE_RESET of the control cores of a hub (R458): a LANE_CMD not yet agreed at a marker is abandoned with RESULT 4;
nothing else of the optics changes. -/
def coreReset (s : M8) (hub : Nat) : M8 :=
  [2 * hub, 2 * hub + 1].foldl (fun s k =>
    match (getEngine s k).cmd with
    | some c => if c.own && c.phase < 3 then abandonLaneCmd s k c else s
    | none => s) s

/-- CORE_RESET (R458). -/
def execCoreReset (hub : Nat) (s : State) : Out := live s fun m => if hub < 4 then coreReset m hub else m

/-- OE_IDLE_POWER_OFF (R561): an engine whose ports have all been in state 0 for 1 s powers off, and its state is lost. -/
def execOeIdlePowerOff (engine : Nat) (s : State) : Out :=
  live s fun m =>
    if engine < 8 && m.pwr.oeOn.get false engine &&
        [0, 1, 2, 3].all (fun i => (getPort m (4 * engine + i)).st == .disabled) &&
        m.clk.now ≥ (getEngine m engine).idleSince + 1000000000 then
      let m := { m with pwr := { m.pwr with oeOn := m.pwr.oeOn.set false engine false } }
      let m := setEngine m engine {}
      let m := [0, 1, 2, 3].foldl (fun m i => setPort m (4 * engine + i) { mode := odNat m (Od.PORT_MODE + 4 * engine + i) }) m
      (List.range 18).foldl (fun m j => setLaser (setLane m (18 * engine + j) {}) (18 * engine + j) {}) m
    else m

end Machine
end Sys2Proof
end

