-- ==== Sys2Proof/Machine/Fabric.lean ====
section
/-!
DEFINITION. Sys2Proof/Machine/Fabric.lean: the commands of Promenade and the Acsal links (R460 to R488).
-/
namespace Sys2Proof
namespace Machine

/-! ### Frames arrive and leave (R463 to R466, R476 to R485) -/

/-- A LINK message of the partner: its credit grants; TYPE 1 frees, TYPE 2 frees what comes before and resends (R463). -/
def linkMessage (s : M8) (p type lseq : Nat) (grants : List Nat) : M8 :=
  let s := takeCredit s p grants
  if type = 1 then modLink (takeAck s p lseq) p fun x => { x with sentAt := s.clk.now }
  else if type = 2 then replayFrom (takeAck s p ((lseq + 65535) % 65536)) p lseq
  else s

/-- Classes whose frames resident firmware handles: discovery, recovery and storage (R460, R462). -/
def fwClass (cls : Nat) : Bool := cls == 1 || cls == 4 || cls == 8

/-- A ring frame of one source and ring is accepted in ESEQ order; a newer one is held, an older one discarded (R466).
fuel bounds what a filled gap releases. -/
def releaseRing (key : Nat) : Nat → M8 → M8
  | 0, s => s
  | n + 1, s =>
    let q := s.fab.rings.get {} key
    match q.held.find? fun h => h.1 == q.next with
    | none => s
    | some h =>
      let s := modFab s fun f => { f with rings := f.rings.set {} key { next := (q.next + 1) % 65536, held := q.held.erase h } }
      releaseRing key n (emit s (.deliver 7 (key / 65536) (key % 65536) h.2))

def ringFrame (s : M8) (f : Frame) : M8 :=
  let key := f.src * 65536 + f.flow
  let q := s.fab.rings.get {} key
  if f.eseq = q.next then
    let s := modFab s fun x => { x with rings := x.rings.set {} key { q with next := (q.next + 1) % 65536 } }
    releaseRing key 64 (deliver s f)
  else if serialNewer 16 f.eseq q.next && q.held.length < 64 && !(q.held.any fun h => h.1 == f.eseq) then
    modFab s fun x => { x with rings := x.rings.set {} key { q with held := q.held ++ [(f.eseq, f.payload)] } }
  else odInc s Od.RING_DUP

/-- Cells of owner 0x04 in the SRAM pool of a port's hub for a frame that lands for firmware (R460). -/
def landingPieces (s : M8) (p : Nat) (f : Frame) : Option (List (Nat × Nat)) :=
  grantable s (p / 8) 1 { owner := 4, cells := ceilDiv f.size 128 }

/-- A HEARTBEAT of the group (R518, R519): its sender is heard and its SLACK_PU kept. -/
def noteHeartbeat (s : M8) (f : Frame) : M8 :=
  let b := f.payload
  if f.cls = 4 && leField b 0 1 = 1 && leField b 4 4 = jobTag s && !serialNewer 32 s.grp.rbId (leField b 8 4) then
    { s with grp := { s.grp with hb := s.grp.hb.put f.src s.clk.now, slacks := s.grp.slacks.put f.src (leField b 12 4) } }
  else s

/-- A frame addressed to this device: firmware's classes land in cells with the Promenade event (R460, R593), ring frames
are put in order, the others go to their unit. -/
def deliverLocal (s : M8) (p : Nat) (f : Frame) : M8 :=
  if f.cls = 7 then ringFrame s f
  else if fwClass f.cls then
    match landingPieces s p f with
    | some pieces =>
      let (id, s) := newHold s
      let s := grantReq s (p / 8) 1 { id := id, owner := 4, cells := ceilDiv f.size 128 } pieces
      let s := writeSpans s (pieces.map fun q => (cellAddr s (p / 8) 1 q.1, q.2 * 128)) (f.bytes 0)
      noteHeartbeat (deliver (pulse s (0x182 + p / 8)) f) f
    | none => s
  else deliver s f

/-- Is the frame for this device, wholly or as one of its destinations? -/
def forUs (s : M8) (f : Frame) : Bool :=
  if f.mc then bit (mcEntry s f.dst) 63 && bit (mcEntry s f.dst) 62
  else f.dst == 0xFFFE || (f.dst == ownAddr s && f.dst != 0xFFFF)

/-- A frame whose link check passed is policed, then delivered or routed (R473, R476, R477, R479, R482). -/
def switchFrame (s : M8) (p : Nat) (f : Frame) : M8 :=
  let (c, s) := police s p ((tcOf f.cls).getD 7) f.colour f.size
  match c with
  | none => s
  | some c =>
    let f := { f with colour := c }
    if (match s.fab.nbrs.find p with
        | some n => n.mismatch
        | none => false) && f.cls != 1 then s
    else if f.mc then
      if !bit (mcEntry s f.dst) 63 then odInc s Od.NO_ROUTE
      else
        let s := if f.hops = 0 then odInc s Od.HOPS_EXPIRED else replicate s p f
        if bit (mcEntry s f.dst) 62 then deliverLocal s p f else s
    else if forUs s f then (if ownAddr s = 0xFFFF && f.cls != 1 then s else deliverLocal s p f)
    else if f.hops = 0 then odInc s Od.HOPS_EXPIRED
    else routeFrame s { f with hops := f.hops - 1 }

/-- A frame in sequence is accepted: it counts for the cumulative ACK, its form is checked (R462), it is switched, and its
credit is owed once it has left the buffer (R463). -/
def acceptFrame (s : M8) (p : Nat) (b : Bytes) (f : Frame) : M8 :=
  let s := modLink s p fun x => { x with
    rxSeq := (x.rxSeq + 1) % 65536, nak := false, toAck := x.toAck + 1,
    ackFrom := if x.toAck = 0 then s.clk.now else x.ackFrom }
  let s := if frameFormOk b && f.cls != 0 then switchFrame s p f else odInc s Od.BAD_FRAMES
  let s := oweCredit s p f
  if (getLink s p).toAck ≥ 32 then sendAck s p else s

/-- FRAME_RECEIVE (R462 to R466, R476 to R482): bytes arrive on an up Acsal port. A bad LCRC or a break of the sequence
sends a NAK, once, and discards. A frame for firmware that finds no cells is not taken; its sender sends it again. -/
def frameReceive (s : M8) (p : Nat) (b : Bytes) : M8 :=
  if !acsalUp s p then s
  else if !lcrcOk b then
    let s := odInc s Od.BAD_FRAMES
    if (getLink s p).nak then s
    else sendLink (modLink s p fun x => { x with nak := true }) p 2 (getLink s p).rxSeq
  else
    let (f, lseq) := parseFrame b
    if f.cls = 0 then
      linkMessage s p (leField f.payload 0 1) (leField f.payload 2 2) ((List.range 8).map fun i => leField f.payload (4 + 2 * i) 2)
    else if lseq != (getLink s p).rxSeq then
      if (getLink s p).nak then s
      else sendLink (modLink s p fun x => { x with nak := true }) p 2 (getLink s p).rxSeq
    else if forUs s f && fwClass f.cls && frameFormOk b && (landingPieces s p f).isNone then s
    else acceptFrame s p b f

/-- FRAME_RECEIVE. -/
def execFrameReceive (port : Nat) (frame : Bytes) (s : State) : Out :=
  live s fun m => if port < 32 then frameReceive m port frame else m

/-- May a frame leave on its port: credit for its TC, room in the 64 KiB replay buffer, and its shaper (R463, R483)? -/
def eligible (s : M8) (p tc : Nat) (f : Frame) : Bool :=
  (getLink s p).credits.get 0 tc ≥ f.units && (getLink s p).replayBytes + f.size ≤ 65536 && shaperAllows s p tc f.size

/-- The eligible head frame of the highest TC (R485). -/
def nextFrame (s : M8) (p : Nat) : Option (Nat × Frame) :=
  [7, 6, 5, 4, 3, 2, 1, 0].findSome? fun tc => match s.fab.egress.get [] (p * 8 + tc) with
    | f :: _ => if eligible s p tc f then some (tc, f) else none
    | [] => none

/-- Send one frame of an Acsal port (R463, R485). -/
def egressSend (s : M8) (p : Nat) : M8 :=
  match nextFrame s p with
  | none => s
  | some (tc, f) =>
    let s := shaperTake s p tc f.size
    let s := modFab s fun x => { x with egress := x.egress.modify [] (p * 8 + tc) (·.drop 1) }
    let x := getLink s p
    let s := setLink s p { x with
      txSeq := (x.txSeq + 1) % 65536, replay := x.replay ++ [(x.txSeq, f)], sentAt := s.clk.now,
      credits := x.credits.modify 0 tc (· - f.units) }
    transmit s p (.bytes (f.bytes x.txSeq))

/-- EGRESS_SEND (R485): the units' frames enter the switch; an up Acsal port sends its next frame, an up Ethernet port
what its paths may send. -/
def execEgressSend (port : Nat) (s : State) : Out :=
  live s fun m =>
    let m := routeUnits m
    if port ≥ 32 || !portUp m port then m
    else if (getPort m port).acsal then egressSend m port
    else eachPathOn m port pump

/-! ### The link layer (R463) -/

/-- LINK_ACK (R463). -/
def execLinkAck (port lseq : Nat) (grants : List Nat) (s : State) : Out :=
  live s fun m => if port < 32 && acsalUp m port then linkMessage m port 1 lseq grants else m

/-- LINK_NAK (R463). -/
def execLinkNak (port lseq : Nat) (grants : List Nat) (s : State) : Out :=
  live s fun m => if port < 32 && acsalUp m port then linkMessage m port 2 lseq grants else m

/-- LINK_CREDIT (R463). -/
def execLinkCredit (port : Nat) (grants : List Nat) (s : State) : Out :=
  live s fun m => if port < 32 && acsalUp m port then linkMessage m port 3 0 grants else m

/-- LINK_REPLAY_TIMEOUT (R463): no ACK within 500 ns. -/
def execLinkReplayTimeout (port : Nat) (s : State) : Out :=
  live s fun m =>
    match (getLink m port).replay with
    | [] => m
    | e :: _ => if port < 32 && acsalUp m port && m.clk.now ≥ (getLink m port).sentAt + 500 then replayFrom m port e.1 else m

/-- LINK_ACK_TIMER (R463): 200 ns after the first frame not yet acknowledged, or at 32 of them. -/
def execLinkAckTimer (port : Nat) (s : State) : Out :=
  live s fun m =>
    let x := getLink m port
    if port < 32 && acsalUp m port && x.toAck > 0 && (x.toAck ≥ 32 || m.clk.now ≥ x.ackFrom + 200) then sendAck m port else m

/-! ### Hellos (R468, R469) -/

/-- HELLO_MS in ns. -/
def helloNs (s : M8) : Nat := odNat s Od.HELLO_MS * 1000000

/-- HELLO_SEND (R469): every HELLO_MS, or at once when ADDR, FLAGS or MASTER_DIST has changed. -/
def execHelloSend (port : Nat) (s : State) : Out :=
  live s fun m =>
    let due : Bool := match m.fab.helloAt.find port with
      | some t => m.clk.now ≥ t + helloNs m
      | none => true
    if port < 32 && acsalUp m port && due then sendHello m port else m

/-- The neighbour a HELLO tells of. -/
def neighbourOf (s : M8) (b : Bytes) : Neighbour :=
  { addr := leField b 12 2, port := leField b 14 1, serial := leField b 4 8, domain := leField b 2 2, flags := leField b 15 1,
    dist := leField b 16 2, mapVersion := leField b 18 4, seen := s.clk.now,
    mismatch := domainId s != 0 && leField b 2 2 != domainId s }

/-- HELLO_RECEIVE (R469 to R471): the neighbour is recorded; another DOMAIN_ID counts and takes the link for down; a new
neighbour starts an LSA; the acting master sends its map to a member of its group with an older one. -/
def helloReceive (s : M8) (p : Nat) (b : Bytes) : M8 :=
  if !acsalUp s p || b.length != 32 || leField b 0 1 != 1 then s else
  let n := neighbourOf s b
  let s := if n.mismatch then odInc s Od.DOMAIN_MISMATCH else s
  let gained : Bool := match s.fab.nbrs.find p with
    | some o => o.addr != n.addr || o.serial != n.serial || o.mismatch != n.mismatch
    | none => true
  let s := withNet s fun s => modFab s fun f => { f with nbrs := f.nbrs.put p n }
  let s := if gained then floodLsa s else s
  if s.fab.acting && !n.mismatch && n.addr != 0xFFFF && sameGroup n.addr (ownAddr s) && n.mapVersion < mapVersion s then
    emit s (.mapTo n.addr)
  else s

/-- HELLO_RECEIVE. -/
def execHelloReceive (port : Nat) (payload : Bytes) (s : State) : Out :=
  live s fun m => if port < 32 then helloReceive m port payload else m

/-- NEIGHBOUR_LOST (R469): three intervals without a HELLO. -/
def execNeighbourLost (port : Nat) (s : State) : Out :=
  live s fun m => match m.fab.nbrs.find port with
    | some n =>
      if m.clk.now ≥ n.seen + 3 * helloNs m then
        floodLsa (withNet m fun m => modFab m fun f => { f with nbrs := f.nbrs.drop port })
      else m
    | none => m

/-! ### Addresses (R467, R471 to R473) -/

/-- Ports in state 4 with an addressed neighbour, that neighbour's lowest MASTER_DIST first, then the lowest port
(R472). -/
def bestNeighbour (s : M8) : Option (Nat × Neighbour) :=
  (ownLinks s).foldl (fun (b : Option (Nat × Neighbour)) p => match b with
    | none => some p
    | some q => if p.2.dist < q.2.dist then some p else b) none

/-- The ADDR_REQ of R472. -/
def addrReqBytes (s : M8) : Bytes :=
  let obs := ownLinks s
  natLe 1 2 ++ natLe 1 obs.length ++ zeros 2 ++ natLe 8 (odNat s Od.SERIAL) ++
    obs.flatMap fun p => natLe 1 p.1 ++ natLe 2 p.2.addr ++ natLe 1 p.2.port

/-- Send an ADDR_REQ to the best neighbour (R472). -/
def sendAddrReq (s : M8) : M8 :=
  match bestNeighbour s with
  | some (p, _) => modFab (sendNeighbour s p (addrReqBytes s)) fun f => { f with reqAt := s.clk.now }
  | none => s

/-- Is the device one that asks for an address? -/
def wantsAddr (s : M8) : Bool := ownAddr s == 0xFFFF && odInForce s Od.FIXED_ADDRESS == 0xFFFF

/-- ADDR_REQ_SEND (R472). -/
def execAddrReqSend (s : State) : Out :=
  live s fun m => if wantsAddr m && odNat m Od.ADDR_STATUS = 0 then sendAddrReq m else m

/-- Observations of an ADDR_REQ: local port, neighbour address, neighbour port. -/
def observations (b : Bytes) : List (Nat × Nat × Nat) :=
  (List.range (leField b 1 1)).map fun i => (leField b (12 + 4 * i) 1, leField b (13 + 4 * i) 2, leField b (15 + 4 * i) 1)

/-- Does a position match the observations (R472)? -/
def positionMatches (s : M8) (p : Position) (obs : List (Nat × Nat × Nat)) : Bool :=
  (p.links.filter fun l => obs.contains l).length ≥ odNat s Od.MATCH_MIN &&
    obs.all fun o => p.links.all fun l => l.1 != o.1 || (l.2.1 == o.2.1 && l.2.2 == o.2.2)

/-- Is a position held by a device other than the one with a serial: assigned to it, or reachable with live hellos? -/
def positionHeld (s : M8) (a serial : Nat) : Bool :=
  a == ownAddr s || (match s.fab.granted.find a with
    | some q => q != serial
    | none => memberReachable s a)

/-- Every position of a map of 16,384 is held (R473, code 6). -/
def domainFull (s : M8) (serial : Nat) : Bool :=
  (positions s).length == 16384 && (positions s).all fun p => positionHeld s p.addr serial

/-- A frame of DISCOVERY to another device. -/
def sendDiscovery (s : M8) (dst : Nat) (payload : Bytes) : M8 := sendFrame s dst 0x1 0 payload

/-- Answer a request: on the link it came by, or to the proxy that forwarded it. -/
def answerAddr (s : M8) (p src : Nat) (payload : Bytes) : M8 :=
  if src = 0xFFFF then sendNeighbour s p payload else sendDiscovery s src payload

def assignBytes (serial a : Nat) : Bytes := natLe 1 3 ++ zeros 3 ++ natLe 8 serial ++ natLe 2 a ++ zeros 2

def refuseBytes (serial code : Nat) : Bytes := natLe 1 4 ++ natLe 1 code ++ zeros 2 ++ natLe 8 serial

/-- The candidate of another group its requests are forwarded to: the lowest MASTER_RANK, then address (R471). -/
def masterOfGroup (s : M8) (a : Nat) : Option Nat :=
  (((positions s).filter fun p => sameGroup p.addr a && p.rank != 0).foldl (fun (b : Option Position) p => match b with
    | none => some p
    | some q => if masterBefore p q then some p else b) none).map Position.addr

/-- Remember whom to relay an answer for a serial to: a port, or 0x10000 + a device's address. -/
def proxyFor (s : M8) (serial dest : Nat) : M8 :=
  modFab s fun f => { f with proxies := (serial, dest) :: f.proxies.filter fun q => q.1 != serial }

/-- The acting master decides a request (R472, R473). -/
def decideAddr (s : M8) (p src : Nat) (b : Bytes) : M8 :=
  let serial := leField b 4 8
  let back := if src = 0xFFFF then p else 0x10000 + src
  match (positions s).filter fun q => positionMatches s q (observations b) with
  | [] => answerAddr s p src (refuseBytes serial (if domainFull s serial then 6 else 3))
  | [q] =>
    if !sameGroup q.addr (ownAddr s) then
      match masterOfGroup s q.addr with
      | some m => sendDiscovery (proxyFor s serial back) m b
      | none => answerAddr s p src (refuseBytes serial 7)
    else if positionHeld s q.addr serial then
      answerAddr s p src (refuseBytes serial (if domainFull s serial then 6 else 4))
    else
      answerAddr (modFab s fun f => { f with granted := f.granted.put q.addr serial }) p src (assignBytes serial q.addr)
  | _ => answerAddr s p src (refuseBytes serial 5)

/-- ADDR_REQ_RECEIVE (R472): the acting master decides, another addressed device forwards a neighbour's request to its
group's master with its own SRC. -/
def execAddrReqReceive (port src : Nat) (payload : Bytes) (s : State) : Out :=
  live s fun m =>
    if port ≥ 32 || ownAddr m = 0xFFFF || leField payload 0 1 != 2 then m
    else if m.fab.acting then decideAddr m port src payload
    else if src = 0xFFFF && m.grp.master != 0xFFFF then
      sendDiscovery (proxyFor m (leField payload 4 8) port) m.grp.master payload
    else m

/-- Relay an answer for another device's serial to where its request came from (R472). -/
def relayAnswer (s : M8) (payload : Bytes) : M8 :=
  let serial := leField payload 4 8
  match s.fab.proxies.find? fun q => q.1 == serial with
  | none => s
  | some q =>
    let s := modFab s fun f => { f with proxies := f.proxies.filter fun r => r.1 != serial }
    if q.2 < 32 then sendNeighbour s q.2 payload else sendDiscovery s (q.2 - 0x10000) payload

/-- ADDR_ASSIGN_RECEIVE (R472, R473): FABRIC_ADDRESS is set and new HELLOs go out. -/
def execAddrAssignReceive (payload : Bytes) (s : State) : Out :=
  live s fun m =>
    if leField payload 4 8 = odNat m Od.SERIAL then
      if wantsAddr m && leField payload 0 1 = 3 then
        withNet m fun m => odSet (odSet m Od.FABRIC_ADDRESS (leField payload 12 2)) Od.ADDR_STATUS 1
      else m
    else relayAnswer m payload

/-- ADDR_REFUSE_RECEIVE (R473). -/
def execAddrRefuseReceive (payload : Bytes) (s : State) : Out :=
  live s fun m =>
    if leField payload 4 8 = odNat m Od.SERIAL then
      if wantsAddr m && leField payload 0 1 = 4 then
        modFab (odInc (odSet m Od.ADDR_STATUS (leField payload 1 1)) Od.ADDR_REFUSALS) fun f => { f with reqAt := m.clk.now }
      else m
    else relayAnswer m payload

/-- ADDR_RETRY (R473): a refused device asks again every 10 s. -/
def execAddrRetry (s : State) : Out :=
  live s fun m =>
    if wantsAddr m && odNat m Od.ADDR_STATUS ≥ 3 && m.clk.now ≥ m.fab.reqAt + 10000000000 then sendAddrReq m else m

/-- ADDR_MASTER_TIMEOUT (R473): no acting master reachable after 1 s: code 7. -/
def execAddrMasterTimeout (s : State) : Out :=
  live s fun m =>
    if wantsAddr m && (ownLinks m).all (fun p => p.2.dist == 0xFFFF) && m.clk.now ≥ m.fab.reqAt + 1000000000 then
      modFab (odSet m Od.ADDR_STATUS 7) fun f => { f with reqAt := m.clk.now }
    else m

/-! ### Link state (R474) -/

/-- LSA_RECEIVE (R474): a newer LSA of the group is kept and flooded on, an older one discarded. -/
def execLsaReceive (port : Nat) (payload : Bytes) (s : State) : Out :=
  live s fun m =>
    let a := leField payload 2 2
    let seq := leField payload 4 4
    let newer : Bool := match m.fab.lsas.find a with
      | some l => serialNewer 32 seq l.seq
      | none => true
    if port < 32 && acsalUp m port && leField payload 0 1 = 5 && sameGroup a (ownAddr m) && a != ownAddr m && newer then
      let ls := (List.range (leField payload 1 1)).map fun i => (leField payload (8 + 4 * i) 1, leField payload (9 + 4 * i) 2)
      let m := withNet m fun m => modFab m fun f => { f with lsas := f.lsas.put a { seq := seq, links := ls } }
      (groupPorts m port).foldl (fun m p => sendNeighbour m p payload) m
    else m

/-- LSA_PERIODIC (R474): every second. -/
def execLsaPeriodic (s : State) : Out :=
  live s fun m => if m.clk.now ≥ m.fab.lsaAt + 1000000000 then floodLsa m else m

/-! ### Tables (R470, R475, R481 to R484) -/

/-- Groups of a list of positions. -/
def groupsOf (ps : List Position) : List Nat := (ps.map fun p => addrGroup p.addr).eraseDups

/-- The device accepts a cable map (R470). An empty entry stands for no map. -/
def cableMapOk (b : Bytes) : Bool :=
  let ps := positionsOf b
  b.isEmpty ||
  (leField b 0 2 == 0x4D43 && leField b 2 1 == 1 && leField b 12 4 ≤ 16384 && b.length == 32 + 64 * leField b 12 4 &&
    (ps.map Position.addr).eraseDups.length == ps.length && ps.all (fun p => p.addr < 0xFFFE) &&
    (groupsOf ps).all fun g =>
      let gs := ps.filter fun p => addrGroup p.addr == g
      gs.any (fun p => p.rank != 0) && (gs.filter Position.spare).length == 1 && 8 ≤ gs.length && gs.length ≤ 64)

/-- A cable map is stored: positions, master, roles and hellos follow. -/
def setCableMap (s : M8) (b : Bytes) : M8 := withNet s fun s => initRoles (odPut s Od.CABLE_MAP (.bytes b))

/-- A table refused, or its effect. -/
def tableWrite (s : M8) (ok : Bool) (f : M8 → M8) : M8 := if ok then f s else emit s (.fwStatus 0x06090030)

/-- CABLE_MAP_WRITE (R470). -/
def execCableMapWrite (data : Bytes) (s : State) : Out :=
  live s fun m => tableWrite m (cableMapOk data) fun m => setCableMap m data

/-- The device accepts a route table (R475). -/
def routeTableOk (s : M8) (b : Bytes) : Bool :=
  b.length % 8 == 0 && b.length ≤ 2048 * 8 &&
    ((chunks 8 b).map leNat).all fun e =>
      (bits e 58 53 &&& bits e 48 43) == bits e 58 53 && (bits e 52 49 &&& bits e 42 39) == bits e 52 49 && bits e 38 32 == 0 &&
        (List.range 32).all fun p => !bit e p || (getPort s p).acsal

/-- ROUTE_TABLE_WRITE (R475). -/
def execRouteTableWrite (data : Bytes) (s : State) : Out :=
  live s fun m => tableWrite m (routeTableOk m data) fun m => odPut m Od.ROUTE_TABLE (.bytes data)

/-- The device accepts the policer records (R481). -/
def policersOk (b : Bytes) : Bool :=
  b.length % 24 == 0 && b.length ≤ 256 * 24 &&
    (chunks 24 b).all fun r =>
      let mode := leField r 0 1
      mode == 0 ||
      (mode ≤ 2 && leField r 8 4 ≥ 4628 + leField r 2 1 && leField r 16 4 ≥ 4628 + leField r 2 1 && leField r 2 1 ≤ 63 &&
        (mode != 2 || leField r 12 4 ≥ leField r 4 4) && leField r 4 4 ≤ 800000 && leField r 12 4 ≤ 800000)

/-- Policer records are written: their buckets are full (R482). -/
def setPolicers (s : M8) (b : Bytes) : M8 := modFab (odPut s Od.POLICERS (.bytes b)) fun f => { f with policers := [] }

/-- POLICER_WRITE (R482). -/
def execPolicerWrite (data : Bytes) (s : State) : Out :=
  live s fun m => tableWrite m (policersOk data) fun m => setPolicers m data

/-- The device accepts the shaper records (R483). -/
def shapersOk (b : Bytes) : Bool :=
  b.length % 16 == 0 && b.length ≤ 256 * 16 &&
    (chunks 16 b).all fun r => leField r 0 1 == 0 || (leField r 0 1 == 1 && leField r 1 1 ≤ 1 && leField r 8 4 ≥ 4628 + leField r 2 1)

/-- A changed shaper record sets its bucket to BURST or to 0; an unchanged one resets nothing (R484). -/
def setShapers (s : M8) (b : Bytes) : M8 :=
  let old := odBytes s Od.SHAPERS
  let s := odPut s Od.SHAPERS (.bytes b)
  (List.range 256).foldl (fun s i =>
    let r := slice b (16 * i) 16
    if r = slice old (16 * i) 16 then s
    else modFab s fun f => { f with
      shapers := if leField r 1 1 = 1 then f.shapers.put i { since := s.clk.hclk } else f.shapers.drop i }) s

/-- SHAPER_WRITE (R484). -/
def execShaperWrite (data : Bytes) (s : State) : Out :=
  live s fun m => tableWrite m (shapersOk data) fun m => setShapers m data

/-! ### Time-stamp offsets (R486, R487) -/

/-- The payload of an offset exchange (R486). -/
def offsetBytes (t1 t2 t3 seq tag : Nat) : Bytes := natLe 8 t1 ++ natLe 8 t2 ++ natLe 8 t3 ++ natLe 4 seq ++ natLe 4 tag

/-- Put a measurement back. -/
def setOffset (s : M8) (o : OffsetMeas) : M8 :=
  modFab s fun f => { f with offsets := f.offsets.map fun x => if x.peer = o.peer then o else x }

/-- OFFSET_EXCHANGE (R487): one of 16 exchanges with a peer, 1 ms apart. -/
def execOffsetExchange (peer : Nat) (s : State) : Out :=
  live s fun m => match m.fab.offsets.find? fun o => o.peer == peer with
    | some o =>
      if jobState m ≥ 2 && o.done < 16 && (o.done = 0 && o.out.isNone || m.clk.now ≥ o.last + 1000000) then
        let seq := (m.fab.offsetSeq + 1) % 2 ^ 32
        let m := modFab m fun f => { f with offsetSeq := seq }
        let m := setOffset m { o with out := some (seq, m.clk.now), last := m.clk.now }
        sendFrame m peer 0x2 1 (offsetBytes m.clk.now 0 0 seq (jobTag m))
      else m
    | none => m

/-- OFFSET_REQ_RECEIVE (R486). -/
def execOffsetReqReceive (src : Nat) (payload : Bytes) (s : State) : Out :=
  live s fun m =>
    if payload.length != 32 then odInc m Od.BAD_FRAMES
    else sendFrame m src 0x2 2 (offsetBytes (leField payload 0 8) m.clk.now m.clk.now (leField payload 24 4) (leField payload 28 4))

/-- OFFSET_RESP_RECEIVE (R486, R487): T4 is taken at reception; the exchange is kept if its round trip is the smallest. -/
def execOffsetRespReceive (src : Nat) (payload : Bytes) (s : State) : Out :=
  live s fun m =>
    if payload.length != 32 then odInc m Od.BAD_FRAMES
    else match m.fab.offsets.find? fun o => o.peer == src with
      | some o =>
        if o.out = some (leField payload 24 4, leField payload 0 8) then
          let t1 : Int := leField payload 0 8
          let t2 : Int := leField payload 8 8
          let t3 : Int := leField payload 16 8
          let t4 : Int := m.clk.now
          let rtt := (t4 - t1) - (t3 - t2)
          let off := Int.tdiv ((t1 - t2) + (t4 - t3)) 2
          let best := match o.best with
            | some b => if rtt < b.1 then some (rtt, off) else some b
            | none => some (rtt, off)
          let o := { o with out := none, done := o.done + 1, best := best }
          let m := setOffset m o
          if o.done = 16 then offsetDone m o else m
        else m
      | none => m

/-- FANOUT_PORT_ACK (R480): port j of a delivery is acknowledged or fails. -/
def execFanoutPortAck (delivery index : Nat) (ok : Bool) (s : State) : Out :=
  live s fun m => fanoutAck m delivery index ok

end Machine
end Sys2Proof
end

