-- ==== Sys2Proof/Machine/Firmware.lean ====
section
/-!
DEFINITION. Sys2Proof/Machine/Firmware.lean: firmware images, loader service, first start (R581 to R590).
-/
namespace Sys2Proof
namespace Machine

/-- Fields of a manifest (R581). -/
def fwSettings (b : Bytes) : Nat := leField b 16 4

def fwSec (b : Bytes) : Nat := leField b 20 4

def fwCount (b : Bytes) : Nat := leField b 24 4

def fwLast (b : Bytes) : Nat := leField b 28 4

/-- FW_RESULT a manifest is refused with (R581, R591); 0 for none. -/
def manifestResult (m : M8) (b : Bytes) : Nat :=
  if b.length ≠ 256 || leField b 0 4 ≠ 0x4D384657 || leField b 4 4 ≠ 1 || leField b 11 1 ≠ 0 || fwCount b = 0 ||
      fwCount b > 4096 || fwLast b = 0 || fwLast b > 65536 || (slice b 80 48).any (· != 0#8) || (slice b 224 32).any (· != 0#8) then 3
  else if fwSec b < odNat m Od.SEC_FUSE then 4 else 0

/-- Are blocks refused in the present FW_STATE (R582, R589)? A failed first start admits a fresh download. -/
def fwClosed (m : M8) : Bool :=
  let st := odNat m Od.FW_STATE
  st = 2 || st = 5 || st = 6 || (st = 7 && odNat m Od.FW_RESULT != 9)

/-- FW_RESULT a block of a session is refused with, or 0x100 for a refusal by state (R582). -/
def blockResult (m : M8) (sid : Nat) (b : Bytes) : Nat :=
  let i := leField b 0 4
  let data := b.drop 16
  if fwClosed m then 0x100
  else if b.length < 16 || leField b 12 4 ≠ 0 || leField b 4 4 ≠ data.length then 2
  else if crc32c data ≠ leField b 8 4 then 1
  else if i = 0 then manifestResult m data
  else if odNat m Od.FW_STATE ≠ 1 || m.pwr.fwOwner ≠ sid then 0x100
  else if i > fwCount m.pwr.fwManifest || data.length ≠ (if i = fwCount m.pwr.fwManifest then fwLast m.pwr.fwManifest else 65536) then 2
  else 0

/-- The abort a write of FW_BLOCK meets. -/
def fwBlockAbort (m : M8) (sid : Nat) (b : Bytes) : Option Nat :=
  let r := blockResult m sid b
  if r = 0 then none else if r = 0x100 then some 0x08000021 else some 0x06090030

/-- A refused block sets FW_RESULT (R582). -/
def fwBlockRefused (m : M8) (sid : Nat) (b : Bytes) : M8 :=
  let r := blockResult m sid b
  if r = 0 || r = 0x100 then m else odSet m Od.FW_RESULT r

/-- An accepted block: a manifest starts a new download; a body block is written to flash and marked; with the last one
verification starts (R582 to R585). -/
def fwBlock (m : M8) (sid : Nat) (b : Bytes) : M8 :=
  let i := leField b 0 4
  let data := b.drop 16
  if i = 0 then
    let m := modPwr m fun p => { p with fwManifest := data, fwBlocks := [], fwOwner := sid }
    setBlocks (odSet (setFw m 1) Od.FW_RESULT 0)
  else
    let m := setBlocks (modPwr m fun p => { p with fwBlocks := p.fwBlocks.put i data })
    if m.pwr.fwBlocks.length = fwCount m.pwr.fwManifest then setFw m 2 else m

/-- FW_BLOCK: a whole DOMAIN write from a session (R582). -/
def execFwBlock (sid : Nat) (data : Bytes) (s : State) : Out :=
  live s fun m => match fwBlockAbort m sid data with
    | some a => emit (fwBlockRefused m sid data) (.fwStatus a)
    | none => fwBlock m sid data

/-- The body in the image region. -/
def fwBody (m : M8) : Bytes := (List.range (fwCount m.pwr.fwManifest)).flatMap fun i => m.pwr.fwBlocks.get [] (i + 1)

/-- FW_VERIFY_DONE: BODY_HASH, the signature, the settings version; the first failure gives state 4, success 3, or, where the
loader waits for a download, its activation (R585, R590). -/
def execFwVerifyDone (s : State) : Out :=
  live s fun m =>
    let b := m.pwr.fwManifest
    let bad (r : Nat) : M8 := setFw (odSet m Od.FW_RESULT r) 4
    if odNat m Od.FW_STATE ≠ 2 then m
    else if sha384 (fwBody m) ≠ slice b 32 48 then bad 6
    else if !Config.signatureOk (b.take 128) (slice b 128 96) then bad 7
    else if fwSettings b < m.pwr.settings then bad 5
    else if m.pwr.autoAct then setFw m 5
    else setFw m 3

/-- The abort a write of FW_ACTIVATE meets (R586). -/
def fwActivateAbort (m : M8) (v : Nat) : Option Nat :=
  if v ≠ 0xAC71 then some 0x06090030
  else if odNat m Od.FW_STATE = 3 && idleMember m then none else some 0x08000021

/-- Loader service begins: the control cores are reset into the loader, FW_STATE 5, the spare duty shows as busy (R458,
R586, R587). -/
def fwActivate (m : M8) : M8 :=
  let m := [0, 1, 2, 3].foldl coreReset m
  setFw m 5

/-- FW_ACTIVATE (R586). -/
def execFwActivate (value : Nat) (s : State) : Out :=
  live s fun m => match fwActivateAbort m value with
    | some a => emit m (.fwStatus a)
    | none => fwActivate m

/-- LOADER_RUN: SEC_FUSE rises, the image is copied and hashed again, FW_STATE 6, and the new firmware starts with CAUSE 5
(R587, R643). A hash that fails leaves the loader waiting for a download. -/
def execLoaderRun (s : State) : Out :=
  live s fun m =>
    let b := m.pwr.fwManifest
    if odNat m Od.FW_STATE ≠ 5 then m
    else
      let m := if fwSec b > odNat m Od.SEC_FUSE then
        odSet (modPwr m fun p => { p with secFuse := some (fwSec b) }) Od.SEC_FUSE (fwSec b) else m
      let body := fwBody m
      if sha384 body ≠ slice b 32 48 then setFw (odSet m Od.FW_RESULT 6) 8
      else packageReset (setFw (modPwr m fun p => { p with fwCopy := body, fwRun := b, autoAct := false }) 6) 5 0

/-- Stored entries through the image's migration table; key slots and the detection log are kept (R588). -/
def migrate (body : Bytes) (stored : List (Nat × OdVal)) : List (Nat × OdVal) :=
  stored.filterMap fun p =>
    if p.1 / 256 = 0x1110 || p.1 = Od.DETECT_LOG || p.1 = Od.HEALTH then some p
    else match odKeyRow p.1 with
      | some e => (Config.migrated body p.1 (p.2.toBytes e.ty)).map fun b => (p.1, OdVal.ofBytes e.ty b)
      | none => none

/-- An image is confirmed: FW_STATE 0, the pre-migration set goes, the member is the standby spare (R525, R589). -/
def fwConfirmed (m : M8) : M8 :=
  let m := modPwr m fun p => { p with preStored := none }
  setFw { m with grp := { m.grp with own := [], isSpare := true } } 0

/-- FIRST_START: settings are migrated once, as one update; the canaries run, flash is mounted, FW_STATE is 7; with the checks
passed and FW_CONFIRM_MODE 0 the image is confirmed (R588 to R590). checksOk: every canary passed and flash mounted. -/
def execFirstStart (checksOk : Bool) (s : State) : Out :=
  live s fun m =>
    let st := odNat m Od.FW_STATE
    if st ≠ 6 && st ≠ 7 then m
    else
      let v := fwSettings m.pwr.fwRun
      let m := if st = 6 && m.pwr.settings < v then
        let stored := migrate m.pwr.fwCopy m.dict.stored
        { modPwr m (fun p => { p with settings := v, preStored := some m.dict.stored }) with
          dict := { m.dict with stored := stored, live := stored } }
      else m
      let m := setFw (fwEntries m) 7
      let m := if m.fl.mounted then m else modFl m mount
      if !checksOk then odSet m Od.FW_RESULT 9
      else if odNat m Od.FW_CONFIRM_MODE = 0 then fwConfirmed m
      else m

/-- The abort a write of FW_CONFIRM meets (R589). -/
def fwConfirmAbort (m : M8) (v : Nat) : Option Nat :=
  if v ≠ 0xC0F1 then some 0x06090030
  else if odNat m Od.FW_STATE = 7 && odNat m Od.FW_RESULT ≠ 9 then none else some 0x08000021

/-- FW_CONFIRM (R589). -/
def execFwConfirm (value : Nat) (s : State) : Out :=
  live s fun m => match fwConfirmAbort m value with
    | some a => emit m (.fwStatus a)
    | none => fwConfirmed m

/-- In loader service the dictionary serves the identity range and OD 0x5200 only (R587). -/
def loaderRefuses (m : M8) (index : Nat) : Bool :=
  (odNat m Od.FW_STATE == 5 || odNat m Od.FW_STATE == 8) && !(0x1000 ≤ index && index ≤ 0x1FFF) && index != 0x5200

end Machine
end Sys2Proof
end

