-- ==== Sys2Proof/Machine/OdEffects.lean ====
section
/-!
DEFINITION. Sys2Proof/Machine/OdEffects.lean: what each dictionary entry with an effect does in its unit: the values computed when
an entry is read, the aborts of an entry's own rules, and the effect of an applied write (R72, R136, R178, R297, R361,
R381, R414, R440, R459, R488, R512, R537, R560, R591, R626).
-/
namespace Sys2Proof
namespace Machine

/-! ### Values computed at a read -/

/-- PORT_LANES of a port: byte i holds the physical lane of logical lane i, or 0xFF (R459). -/
def portLanesWord (s : M8) (p : Nat) : Nat :=
  leNat ((List.range 4).map fun i =>
    let l := (portMap s p).getD i 0x1F
    if l = 0x1F then 0xFF#8 else BitVec.ofNat 8 l)

/-- NEIGHBOURS: 32 records, one per port (R488). STATE is the port's state code (assumption log 50). -/
def neighboursBytes (s : M8) : Bytes :=
  (List.range 32).flatMap fun p =>
    let n := (s.fab.nbrs.find p).getD {}
    natLe 1 (getPort s p).st.code ++ natLe 1 p ++ natLe 2 n.addr ++ natLe 1 n.port ++ zeros 3 ++ natLe 8 n.serial

/-- MEMBER_TABLE: the port set of each member of the own group (R474, R488). -/
def memberTableBytes (s : M8) : Bytes :=
  let t := memberTable s
  (List.range 64).flatMap fun i => natLe 4 (t.get 0 (addrGroup (ownAddr s) * 64 + i))

/-- CONN_STATUS: four records for each connection (R512). -/
def connStatusBytes (s : M8) : Bytes :=
  (List.range ((odBytes s Od.CONN_TABLE).length / 320)).flatMap fun c => (List.range 4).flatMap fun j =>
    let x := getPath s c j
    natLe 1 x.state ++ natLe 1 x.reason ++ zeros 2 ++ natLe 4 x.next ++
      natLe 4 (unsigned (psnBits (connInfo s c)) ((x.next : Int) - x.una)) ++ natLe 4 x.resends

/-- The value an entry gives when it is read, the entry's own for every entry not named here. In loader service a session
reads the identity range and OD 0x5200 alone (R587). -/
def odRead (s : M8) (x : Session) (key : Nat) : Except Nat (OdVal × M8) :=
  let num (n : Nat) : Except Nat (OdVal × M8) := .ok (.num n, s)
  let raw (b : Bytes) : Except Nat (OdVal × M8) := .ok (.bytes b, s)
  if x.path ≥ 2 && loaderRefuses s (key / 256) then .error 0x08000021
  else if key = Od.OWN_LEVEL then num x.level
  else if key = Od.OWN_SESSION then num x.sid
  else if key = Od.OPEN_SESSIONS then num s.dict.sessions.length
  else if key = Od.LOCKED_LEVELS then num (lockedLevels s)
  else if Od.PORT_LANES ≤ key && key < Od.PORT_LANES + 32 then num (portLanesWord s (key - Od.PORT_LANES))
  else if Od.PORT_MAC ≤ key && key < Od.PORT_MAC + 32 then raw (Config.portMac (key - Od.PORT_MAC))
  else if key = Od.NEIGHBOURS then raw (neighboursBytes s)
  else if key = Od.MEMBER_TABLE then raw (memberTableBytes s)
  else if key = Od.DOMAIN_ID then num (domainId s)
  else if key = Od.CONN_STATUS then raw (connStatusBytes s)
  else if key = Od.INBOUND_KEYS then raw (inboundKeyBytes s)
  else if key = Od.QUAR_LOG then raw (s.job.quarLog.flatMap id)
  else if key = Od.DETECT_LOG then raw (s.safe.log.flatMap id)
  else if key = Od.GROUP_ROLES then raw (groupRoles s)
  else if key = Od.POOL_AUDIT then
    let (b, s) := takePoolAudit s
    .ok (.bytes b, s)
  else if key = Od.VOLT_TABLE then raw (voltTable s)
  else if key = Od.AGEING_LOG then raw (Config.ageingBytes s.pwr.ageLog)
  else if key = Od.RESET_CAUSE then num (resetCause s)
  else if key = Od.SECURE_PENDING then num s.fl.secure.length
  else if key = Od.PART_STORED_VALID then num (b2n (partSetOk s))
  else if key = Od.COUNT_SNAPSHOT then raw (countSnapshot s)
  else if key = Od.EVENT_RINGS then raw (eventRings s)
  else if key = Od.STOP_STATUS then num (stopStatus s)
  else if key = Od.SCAN_OUT then (if s.dbg.stop then raw (scanOut s) else .error 0x08000021)
  else if key = Od.MEM_OUT then (if s.dbg.stop then raw (memOut s) else .error 0x08000021)
  else .ok (odGet s key, s)

/-! ### The aborts of an entry's own rules -/

/-- Bytes of data in the dies in use, 2,048 dies less those taken out (R382, R384, R414). -/
def usableDieBytes (s : M8) : Nat := (2048 - s.fl.diesOut.length) * (1296 * 2944 * 4 * 4 * 4096)

/-- Does a capacity fit the dies at a code of K and M pages (R414)? -/
def capacityFits (s : M8) (cap k m : Nat) : Bool := cap * (k + m) * 100 ≤ usableDieBytes s * 86 * k

/-- The device accepts a multicast table (R479). -/
def mcTableAbort (b : Bytes) : Option Nat :=
  if b.length % 8 ≠ 0 || b.length > 1024 * 8 then some 0x06090030
  else if (chunks 8 b).any fun e => bits (leNat e) 61 32 ≠ 0 then some 0x06090040 else none

/-- The abort of a table the device does not accept. -/
def tableAbort (ok : Bool) : Option Nat := if ok then none else some 0x06090030

/-- The abort of a value that an entry admits only while the namespace is empty (R414). -/
def emptyAbort (s : M8) : Option Nat := if s.fl.map.isEmpty && s.fl.held.isEmpty then none else some 0x08000021

/-- The abort an entry gives a number. -/
def odCheckNum (s : M8) (x : Session) (key v : Nat) : Option Nat :=
  if key = Od.SAFE_UDP_PORT then tableAbort (v != odNat s Od.MGMT_UDP_PORT)
  else if key = Od.FABRIC_RING_RESTART then fabricRestartAbort s x.sid v
  else if key = Od.ROLE_CMD then roleCmdAbort s v
  else if key = Od.SEAL_HOLD then
    (if v = 0 && x.path ≠ 0 then some 0x06090030 else if v = 0 && !sealMayRelease s then some 0x08000021 else none)
  else if key = Od.SAFE_TEST then safeTestAbort s v
  else if Od.PART_MAP_CACHE ≤ key && key ≤ Od.PART_FIRMWARE then tableAbort (v % 4096 == 0)
  else if key = Od.READBACK_BYTES then
    (if v * 2 > storedNat s Od.PART_STAGING then some 0x06090031 else tableAbort (v % 4096 == 0))
  else if key = Od.NS_CAPACITY then
    (if !capacityFits s v (odNat s Od.EC_K) (odNat s Od.EC_M) then some 0x06090031
     else if v % 2 ^ 24 ≠ 0 then some 0x06090030 else emptyAbort s)
  else if key = Od.EC_K then emptyAbort s
  else if key = Od.EC_M then (if odNat s Od.EC_K + v > groupW s then some 0x06090030 else emptyAbort s)
  else if key = Od.GC_HIGH then (if v < odNat s Od.GC_LOW + 1 then some 0x06090032 else none)
  else if key = Od.SPARE_HOME_L17 then tableAbort (v == 0xFF || v != odNat s Od.SPARE_HOME_L16)
  else if Od.PORT_MODE ≤ key && key < Od.PORT_MODE + 32 then
    (if (getPort s (key - Od.PORT_MODE)).st = .disabled then none else some 0x08000021)
  else if key = Od.CONN_REARM then
    (let st := (getPath s (v % 65536) (bits v 17 16)).state
     if st = 3 || st = 4 then none else some 0x08000021)
  else if key = Od.SLEEP_CMD then sleepAbort s v
  else if Od.QUAD_OP ≤ key && key < Od.QUAD_OP + 4 then quadOpAbort s (key - Od.QUAD_OP) v
  else if key = Od.TEMP_TRIP then (if v < odNat s Od.TEMP_WARN + 8 then some 0x06090032 else none)
  else if key = Od.REPLAN_NOW then replanAbort v
  else if key = Od.FW_ACTIVATE then fwActivateAbort s v
  else if key = Od.FW_CONFIRM then fwConfirmAbort s v
  else if Od.TMUX_SEL ≤ key && key < Od.TMUX_SEL + 4 then tmuxAbort v
  else none

/-- The abort an entry gives bytes. -/
def odCheckBytes (s : M8) (x : Session) (key : Nat) (b : Bytes) : Option Nat :=
  if key = Od.VOCAB then
    (if !b.isEmpty && vocabRule s b ≠ 0 then some 0x06090030 else if textBusy s then some 0x08000021 else none)
  else if machineKey 0 ≤ key && key < machineKey 16 then tableAbort (b.isEmpty || machRule b == 0)
  else if key = Od.CABLE_MAP then tableAbort (cableMapOk b)
  else if key = Od.ROUTE_TABLE then tableAbort (routeTableOk s b)
  else if key = Od.MC_TABLE then mcTableAbort b
  else if key = Od.POLICERS then tableAbort (policersOk b)
  else if key = Od.SHAPERS then tableAbort (shapersOk b)
  else if key = Od.CONN_TABLE then connAbort s b
  else if key = Od.GRANTS then grantAbort s b
  else if key = Od.FW_BLOCK then fwBlockAbort s x.sid b
  else none

/-- The abort an entry's own rules give a value, before the state checks every entry shares. A session in loader service
writes OD 0x5200 alone (R587). -/
def odCheck (s : M8) (x : Session) (key : Nat) (v : OdVal) : Option Nat :=
  let own := match v with
    | .num n => odCheckNum s x key n
    | .bytes b => odCheckBytes s x key b
  firstAbort [own, if x.path ≥ 2 && loaderRefuses s (key / 256) then some 0x08000021 else none]

/-- What a refused value leaves behind: the rule a vocabulary or a machine failed (R364, R373), the reason a firmware block
was refused (R582). -/
def odReject (s : M8) (x : Session) (key : Nat) (v : OdVal) : M8 :=
  match v with
  | .num _ => s
  | .bytes b =>
    if key = Od.VOCAB then
      let r := if b.isEmpty then 0 else vocabRule s b
      if r = 0 then s else odSet s Od.TEXT_LOAD_FAIL r
    else if machineKey 0 ≤ key && key < machineKey 16 then
      let r := if b.isEmpty then 0 else machRule b
      if r = 0 then s else odSet s Od.TEXT_LOAD_FAIL r
    else if key = Od.FW_BLOCK then fwBlockRefused s x.sid b
    else s

/-! ### The effects of an applied write -/

/-- A key slot is written: every other session of its level closes, and with them their rings (R73, R427). -/
def keyWritten (s : M8) (level sid : Nat) : M8 :=
  closeOrphans ((s.dict.sessions.filter fun x => x.level == level && x.sid != sid).foldl (fun s x => closeSession s x.sid) s)

/-- The effect of a number written. -/
def odEffectNum (s : M8) (x : Session) (key v : Nat) : M8 :=
  if key = Od.RESTORE_DEFAULTS then { s with dict := { s.dict with restoreArmed := true } }
  else if key = Od.FABRIC_RING_RESTART then ringRestart s (1024 + v % 65536) (v.testBit 16)
  else if key = Od.CACHE_FLUSH then emptyCache s
  else if key = Od.ROLE_CMD then roleCmd s v
  else if key = Od.SEAL_HOLD then (if v = 0 && x.path = 0 then sealRelease s else s)
  else if key = Od.SAFE_TEST then safeTest s
  else if Od.PART_MAP_CACHE ≤ key && key ≤ Od.PART_FIRMWARE then odSet s Od.PART_REJECTED 0
  else if Od.PORT_MODE ≤ key && key < Od.PORT_MODE + 32 then modPort s (key - Od.PORT_MODE) fun p => { p with mode := v }
  else if key = Od.CONN_REARM then connRearm s (v % 65536) (bits v 17 16)
  else if key = Od.SLEEP_CMD then sleepStart s
  else if Od.QUAD_OP ≤ key && key < Od.QUAD_OP + 4 then quadOp s (key - Od.QUAD_OP) v
  else if key = Od.REPLAN_NOW then replanAll s
  else if key = Od.FW_ACTIVATE then fwActivate s
  else if key = Od.FW_CONFIRM then fwConfirmed s
  else if key = Od.COUNT_ENABLE then countEnable s v
  else if key = Od.WFG_NOW then wfgStart s 3
  else if Od.TMUX_SEL ≤ key && key < Od.TMUX_SEL + 4 then tmuxSelect s (key - Od.TMUX_SEL) x.sid
  else if key = Od.GLOBAL_STOP then (if v = 0x5709 then startStop s 2 else globalRelease s)
  else s

/-- The effect of bytes written. -/
def odEffectBytes (s : M8) (x : Session) (key : Nat) (b : Bytes) : M8 :=
  if Od.KEY_OBSERVER ≤ key && key ≤ Od.KEY_MAINTAINER then keyWritten s (key - Od.KEY_OBSERVER) x.sid
  else if key = Od.VOCAB then vocabEffect (odSet s Od.TEXT_LOAD_FAIL 0) b
  else if machineKey 0 ≤ key && key < machineKey 16 then machineEffect (odSet s Od.TEXT_LOAD_FAIL 0) (key - machineKey 0)
  else if key = Od.CABLE_MAP then setCableMap s b
  else if key = Od.POLICERS then setPolicers s b
  else if key = Od.SHAPERS then setShapers s b
  else if key = Od.CONN_TABLE then setConnTable s b
  else if key = Od.FW_BLOCK then fwBlock s x.sid b
  else s

/-- The effect of an applied write beside setting the entry. -/
def odEffect (s : M8) (x : Session) (key : Nat) (v : OdVal) : M8 :=
  match v with
  | .num n => odEffectNum s x key n
  | .bytes b => odEffectBytes s x key b

/-- The entries' rules. -/
def odRules : OdRules := { read := odRead, check := odCheck, reject := odReject, effect := odEffect }

end Machine
end Sys2Proof
end

