-- ==== Sys2Proof/Machine/Dictionary.lean ====
section
/-!
DEFINITION. Sys2Proof/Machine/Dictionary.lean: the commands of the dictionary: messages on every path, sessions, stores, the
PCIe mailbox (R63 to R98).
-/
namespace Sys2Proof
namespace Machine

/-- A message for the dictionary engine: without HUB power nobody takes it; in a stop the engine answers what R617 leaves. -/
def dictLive (s : State) (f : M8 → M8) : Out := .next (if s.m.pwr.off then s else { s with m := f s.m })

/-- DICT_READ (R70). -/
def execDictRead (m : DictMsg) (s : State) : Out :=
  dictLive s fun d => dictServe d 0x01 m fun d x => dictRead odRules m d x

/-- Does another write that arrives in the same hub clock reach arbitration: a master without a session, or a message whose tag
and SEQ hold (R78, R83, R90)? -/
def rivalCounts (s : M8) (m : DictMsg) : Bool :=
  m.path < 2 || match findSession s m.path m.session with
    | some x =>
      formOk m && dictTag (some x.key) (dictHeader 2 m.flags m.seq m.session m.index m.sub m.rsv m.data.length ++ m.data) == m.tag
    | none => false

/-- DICT_WRITE: a write, with the writes that reach the engine in the same hub clock (R90, R91). -/
def execDictWrite (m : DictMsg) (rivals : List DictMsg) (s : State) : Out :=
  dictLive s fun d => dictWriteAmong odRules (rivals.filter (rivalCounts d)) d m

/-- READ_NEXT (R75). -/
def execReadNext (m : DictMsg) (s : State) : Out :=
  dictLive s fun d => dictServe d 0x03 m fun d x => dictReadNext m d x

/-- WRITE_NEXT (R75). -/
def execWriteNext (m : DictMsg) (s : State) : Out :=
  dictLive s fun d => dictServe d 0x04 m fun d x => dictWriteNext odRules m d x

/-- DESCRIBE (R77); in loader service of the identity range and OD 0x5200 alone (R587). -/
def describe (d : M8) (m : DictMsg) : M8 :=
  dictServe d 0x05 m fun d x =>
    if (odExists m.index m.sub).isNone && x.path ≥ 2 && loaderRefuses d m.index then (.abort 0x08000021, d) else dictDescribe m d x

/-- DESCRIBE. -/
def execDescribe (m : DictMsg) (s : State) : Out := dictLive s fun d => describe d m

/-- HELLO (R87). -/
def execHello (m : DictMsg) (s : State) : Out := dictLive s fun d => dictHello d m

/-- PROOF (R84, R87). -/
def execProof (m : DictMsg) (s : State) : Out := dictLive s fun d => dictProof d m

/-- CLOSE: the session ends, with it its DOMAIN transfer and its rings (R88, R427). -/
def execClose (m : DictMsg) (s : State) : Out := dictLive s fun d => closeOrphans (dictClose d m)

/-- KEY_SLOT_WRITE: a WRITE to a key slot, OD 0x1110 (R73). -/
def execKeySlotWrite (m : DictMsg) (s : State) : Out :=
  dictLive s fun d => if m.index = 0x1110 then dictWriteAmong odRules [] d m else d

/-- RESTORE_DEFAULTS: a WRITE to OD 0x1011:01 (R72). -/
def execRestoreDefaults (m : DictMsg) (s : State) : Out :=
  dictLive s fun d => if m.index = 0x1011 then dictWriteAmong odRules [] d m else d

/-- DICT_STORE_COMPLETE of an entry: ok, or the store failed (R67, R91). -/
def execDictStoreComplete (key : Nat) (ok : Bool) (s : State) : Out := live s fun d => storeComplete odRules d key ok

/-- DOMAIN_HOLD_TIMEOUT: no segment has come for 1 s (R75). -/
def execDomainHoldTimeout (key : Nat) (s : State) : Out :=
  live s fun d =>
    if d.dict.holds.any fun h => h.key == key && d.clk.now ≥ h.time + 1000000000 then dropHold d key else d

/-- SESSION_IDLE_TIMEOUT (R88). -/
def execSessionIdleTimeout (sid : Nat) (s : State) : Out :=
  live s fun d =>
    if d.dict.sessions.any fun x => x.sid == sid && d.clk.now ≥ x.active + odNat d Od.IDLE_TIMEOUT * 1000000 then
      closeOrphans (closeSession d sid)
    else d

/-- HELLO_LAPSE: a HELLO without a PROOF for 5 s gives its place back, without a count (R87). -/
def execHelloLapse (sid : Nat) (s : State) : Out :=
  live s fun d =>
    { d with dict := { d.dict with hellos := d.dict.hellos.filter fun h => !(h.sid == sid && d.clk.now ≥ h.time + 5000000000) } }

/-- AUTH_LOCKOUT_END: the lockout of a level has run out, its failure count is 0 (R87). -/
def execAuthLockoutEnd (level : Nat) (s : State) : Out :=
  live s fun d => match Sparse.find d.dict.locks level with
    | some t =>
      if d.clk.now ≥ t then authClear { d with dict := { d.dict with locks := Sparse.drop d.dict.locks level } } level else d
    | none => d

/-! ### The PCIe mailbox (R81, R82) -/

/-- The message of n bytes that stands in MBX_REQ: its OP, its LENGTH field, the message. -/
def mbxMessage (b : Bytes) : Nat × Nat × DictMsg :=
  (leField b 0 1, leField b 12 4,
   { path := 3, flags := leField b 1 1, seq := leField b 2 2, session := leField b 4 4, index := leField b 8 2, sub := leField b 10 1,
     rsv := leField b 11 1, data := (b.drop 16).take (b.length - 32), tag := b.drop (b.length - 16) })

/-- Serve a message by its OP (R76, R97). -/
def dictByOp (d : M8) (op len : Nat) (m : DictMsg) : M8 :=
  if len ≠ m.data.length then dictSend d m.path m.addr (dictReply op m none (.abort 0x05040005))
  else if op = 0x01 then dictServe d 0x01 m fun d x => dictRead odRules m d x
  else if op = 0x02 then dictWriteAmong odRules [] d m
  else if op = 0x03 then dictServe d 0x03 m fun d x => dictReadNext m d x
  else if op = 0x04 then dictServe d 0x04 m fun d x => dictWriteNext odRules m d x
  else if op = 0x05 then describe d m
  else if op = 0x10 then dictHello d m
  else if op = 0x11 then dictProof d m
  else if op = 0x12 then closeOrphans (dictClose d m)
  else dictSend d m.path m.addr (dictReply op m none (.abort 0x05040005))

/-- MBX_CTL takes a value (R81, R82): REQ_LEN and IRQ_EN; GO submits the message in MBX_REQ, or is refused with ERR. -/
def mbxGo (d : M8) (v : Nat) : M8 :=
  let n := bits v 31 16
  let d := { d with mbx := { d.mbx with reqLen := n, irqEn := v.testBit 1 } }
  if !v.testBit 0 then d
  else if d.mbx.busy || n < 32 || n > 1056 || odInForce d Od.MBX_ENABLE ≠ 1 then { d with mbx := { d.mbx with err := true } }
  else
    let d := { d with mbx := { d.mbx with busy := true, done := false, rspLen := 0 } }
    let (op, len, m) := mbxMessage (readMemOnes d 0x030001008800 n)
    dictByOp d op len m

/-- MBX_GO (R82). -/
def execMbxGo (value : Nat) (s : State) : Out := live s fun d => mbxGo d value

end Machine
end Sys2Proof
end

