-- ==== Sys2Proof/Machine/Interrupts.lean ====
section
/-!
DEFINITION. Sys2Proof/Machine/Interrupts.lean: the interrupt controller (R592 to R601) and ADDRERR (R41, R601).
-/
namespace Sys2Proof
namespace Machine

/-- A rising edge of a shared source (R595). -/
def execIntSourceEdge (id : Nat) (s : State) : Out := live s fun m => sourceEdge m id

/-- The better of two candidates (priority, ID): the higher priority; among equals the lower ID, and a shared source
goes before a private one, whose IDs are higher (R592, R596). -/
def better (a b : Option (Nat × Nat)) : Option (Nat × Nat) :=
  match a, b with
  | none, x => x
  | x, none => x
  | some (p, i), some (q, j) => if q > p || (q = p && j < i) then some (q, j) else some (p, i)

/-- The pending, enabled source routed to target g with the highest priority above THRESH (R596). -/
def bestSource (s : M8) (g : Nat) : Option Nat :=
  let t := getTgt s g
  let shared := (List.range 0x18D).foldl (fun b i =>
    let x := getSrc s i
    if x.pending && x.enable && x.target == g && x.prio > t.thresh then better b (some (x.prio, i)) else b) none
  let priv := (List.range 35).foldl (fun b i =>
    if t.privPend.testBit i && t.privEn.testBit i && t.privPrio > t.thresh then better b (some (t.privPrio, 0x200 + i))
    else b) shared
  priv.map Prod.snd

/-- Clear PENDING of a source claimed by target g (R596). -/
def clearPending (s : M8) (g id : Nat) : M8 :=
  if id < 0x200 then setSrc s id { getSrc s id with pending := false }
  else
    let t := getTgt s g
    if t.privPend.testBit (id - 0x200) then setTgt s g { t with privPend := t.privPend - 2 ^ (id - 0x200) } else s

/-- A read of INT_CLAIM of target g: the best source, or 0xFFFF (R596). -/
def intClaim (s : M8) (g : Nat) : Nat × M8 :=
  match bestSource s g with
  | some id => (id, clearPending s g id)
  | none => (0xFFFF, s)

/-- INT_CLAIM read by the pair of target g, agent 0x40 + g (R592, R596). -/
def execIntClaim (g : Nat) (s : State) : Out :=
  live s fun m =>
    let (id, m) := intClaim m g
    emit m (.readData (0x40 + g) id)

/-- Package address of target g's block (R601), through Hub 0. -/
def intTargetAddr (g off : Nat) : Nat := 0x030001000000 + 0xD000 + 0x100 * g + off

/-- INT_COMPLETE: PENDING is set again when the source's line is still high (R595); only a control core may write it
(R601). -/
def intComplete (s : M8) (agent g id : Nat) : M8 :=
  if !isCore agent then addressError s agent (intTargetAddr g 4)
  else if id < 0x200 && (getSrc s id).line then setSrc s id { getSrc s id with pending := true }
  else s

/-- INT_COMPLETE written (R595). -/
def execIntComplete (agent g id : Nat) (s : State) : Out := live s fun m => intComplete m agent g id

/-- INT_SWI: each 1 in mask is an edge of that private source of target g (R594, R601). -/
def intSwi (s : M8) (agent g mask : Nat) : M8 :=
  if !isCore agent then addressError s agent (intTargetAddr g 0xC)
  else (List.range 32).foldl (fun s b => if mask.testBit b then privEdge s g b else s) s

/-- INT_SWI written (R594). -/
def execIntSwi (agent g mask : Nat) (s : State) : Out := live s fun m => intSwi m agent g mask

/-- The timestamp has reached INT_TIMECMP of target g: private source 32 rises (R594). -/
def execIntTimer (g : Nat) (s : State) : Out :=
  live s fun m => if g < 8 && m.clk.now ≥ (getTgt m g).timecmp then privEdge m g 32 else m

/-- INT_SRC of a source written whole: OVERRUN and PENDING are W1C, PRIO, ENABLE and TARGET are RW (R601). A pending
source follows its TARGET (R598). Reserved IDs discard the write (R593). -/
def intSrcWrite (s : M8) (agent id v : Nat) : M8 :=
  if !isCore agent then addressError s agent (0x030001000000 + 0xC000 + 8 * id)
  else if id > 0x18C then s
  else
    let x := getSrc s id
    let x' := { x with
      overrun := x.overrun && !bit v 12, pending := x.pending && !bit v 11, prio := bits v 9 7, enable := bit v 6,
      target := bits v 2 0 }
    let s := setSrc s id x'
    if x'.pending && x'.enable then wakeTarget s x'.target id else s

/-- A write of TARGET alone moves a pending source to the new target (R598). -/
def execIntTargetWrite (agent id target : Nat) (s : State) : Out :=
  live s fun m =>
    if !isCore agent then addressError m agent (0x030001000000 + 0xC000 + 8 * id)
    else if id > 0x18C || target ≥ 8 then m
    else
      let x := getSrc m id
      let m := setSrc m id { x with target := target }
      if x.pending && x.enable then wakeTarget m target id else m

/-- ADDRERR as a 64-bit word (R601). -/
def AddrErr.word (e : AddrErr) : Nat := e.addr % 2 ^ 48 + b2n e.more * 2 ^ 48 + e.agent * 2 ^ 56

/-- A read of ADDRERR of a hub returns the first event and clears it; the level source falls (R41, R593, R601). -/
def addrErrRead (s : M8) (hub : Nat) : Nat × M8 :=
  ((s.intc.addrErr.get {} hub).word,
   setLine { s with intc := { s.intc with addrErr := s.intc.addrErr.set {} hub {} } } (0x14A + hub) false)

/-- ADDRERR read by an agent (R601). -/
def execAddrerrRead (agent hub : Nat) (s : State) : Out :=
  live s fun m =>
    let (v, m) := addrErrRead m hub
    emit m (.readData agent v)

end Machine
end Sys2Proof
end

