-- ==== Sys2Proof/Machine/RegSpace.lean ====
section
/-!
DEFINITION. Sys2Proof/Machine/RegSpace.lean: the package address space as an agent reads and writes it (R16, R17, R37 to R46,
R562): memory, sync objects, the registers of every unit; LD and ST (R186, R188, R192), package fences (R61, R62).
Registers are read and written in 8-byte granules (assumption log 52).
-/
namespace Sys2Proof
namespace Machine

/-- What an access finds: nothing there (R41); a register that this access may not use; a value. -/
inductive Seen where
  | hole
  | denied
  | val (n : Nat)
deriving DecidableEq, Repr

/-- The bits of v that mask selects, over old. -/
def mergeBits (old mask v : Nat) : Nat := (old - (old &&& mask)) + (v &&& mask)

/-- A granule of two 32-bit registers. -/
def twoWords (lo hi : Nat) : Seen := .val (lo % 2 ^ 32 + (hi % 2 ^ 32) * 2 ^ 32)

/-- Is the domain an address lies in off or unusable (R562, R572)? -/
def unitOff (s : M8) (a : Nat) : Bool :=
  let off (d : Nat) : Bool := s.pwr.domOff.get false d
  if a < 0x8000000000 then off (a / 0x2000000000)
  else if 0x010000000000 ≤ a && a < 0x020000000000 then off ((((a - 0x010000000000) >>> 12) % 8) / 2)
  else if 0x020000000000 ≤ a && a < 0x020040000000 then off (4 + (a - 0x020000000000) / 0x1000000)
  else if 0x020100000000 ≤ a && a < 0x020110000000 then off ((a - 0x020100000000) / 0x4000000)
  else if 0x020200000000 ≤ a && a < 0x020200400000 then off (4 + (a - 0x020200000000) / 0x10000)
  else if 0x030000000000 ≤ a && a < 0x030000400000 then off (4 + (a - 0x030000000000) / 0x10000)
  else if 0x030001000000 ≤ a && a < 0x030001400000 then off ((a - 0x030001000000) / 0x100000)
  else if 0x030002000000 ≤ a && a < 0x030002800000 then off (68 + (a - 0x030002000000) / 0x100000)
  else if 0x030003000000 ≤ a && a < 0x030003800000 then off (76 + (a - 0x030003000000) / 0x100000)
  else false

/-! ### Register values -/

/-- REEL_THn_STAT (R215). -/
def Thread.statWord (y : Thread) : Nat :=
  let obj := if y.tstate ≠ .waitObj then 0 else match y.wait with
    | .obj ref _ => ref
    | .take ref => ref
    | _ => 0
  y.tstate.code + b2n y.locked * 2 ^ 4 + b2n y.vary * 2 ^ 5 + (y.channel % 2 ^ 12) * 2 ^ 16 + (obj % 2 ^ 18) * 2 ^ 46

/-- REEL_STAT (R215). -/
def Tile.statWord (x : Tile) : Nat :=
  let liveThreads := (List.range 8).foldl (fun n t =>
    let st := (x.threads.get {} t).tstate
    if st = .notInUse || st = .halted then n else n + 2 ^ t) 0
  x.st.code + b2n x.busy.isSome * 2 ^ 3 + b2n x.pendingAct.isSome * 2 ^ 4 + liveThreads * 2 ^ 8 + b2n x.refused * 2 ^ 16

/-- A granule of a tile's registers (R214, R215). -/
def tileReg (s : M8) (t off : Nat) : Seen :=
  let x := getTile s t
  if off = 0 then .val 0
  else if off = 8 then .val x.statWord
  else if off = 0x10 then .val x.trapWord
  else if off = 0x18 then .val (x.trapArg % 2 ^ 48)
  else if off = 0x20 then .val (x.retired % 2 ^ 16 + popcount 16 x.retired * 2 ^ 16)
  else if 0x100 ≤ off && off < 0x180 then
    let y := x.threads.get {} ((off - 0x100) / 16)
    .val (if off % 16 = 0 then y.pc % 2 ^ 18 else y.statWord)
  else if off = 0x200 then
    .val (dispUsed x + ceilDiv (queuedReqs x).length 4 * 2 ^ 8 + x.rfences.length * 2 ^ 16)
  else if off = 0x300 then .val (if x.st = .empty then 0 else x.prog % 2 ^ 64)
  else .hole

/-- INT_SRC (R601); reserved IDs read 0 (R593). -/
def intSrcWord (s : M8) (id : Nat) : Nat :=
  if id > 0x18C then 0 else
  let x := getSrc s id
  x.target % 8 + b2n x.enable * 2 ^ 6 + (x.prio % 8) * 2 ^ 7 + b2n x.line * 2 ^ 10 + b2n x.pending * 2 ^ 11 + b2n x.overrun * 2 ^ 12

/-- A granule of an interrupt target's block (R601). -/
def intReg (s : M8) (g off : Nat) : Seen :=
  let x := getTgt s g
  if off = 0 then .val (((bestSource s g).getD 0xFFFF) % 2 ^ 16)
  else if off = 8 then twoWords (x.thresh % 8 + (x.privPrio % 8) * 2 ^ 4) x.privPend
  else if off = 0x10 then .val (x.privEn % 2 ^ 35)
  else if off = 0x18 then .val (x.privPend % 2 ^ 35)
  else if off = 0x20 then .val (x.timecmp % 2 ^ 64)
  else if off = 0x28 then .val (x.wakeId % 2 ^ 10 + b2n x.wakeValid * 2 ^ 31)
  else .hole

/-- OWN_CFG as a word. -/
def OwnCfg.word (c : OwnCfg) : Nat := c.reserve % 2 ^ 24 + (c.limit % 2 ^ 24) * 2 ^ 24 + (c.runM1 % 2 ^ 12) * 2 ^ 48

/-- A granule of a pool port (R341, R342, R345); TAKE is read by an operation of its own. -/
def portReg (s : M8) (agent hub pool owner off : Nat) : Seen :=
  if !portAllowed agent owner then .denied
  else
    let x := getPool s hub pool
    if off = 0 then .val (ownCfg s pool x owner).word
    else if off = 8 then .val (x.heldBy owner % 2 ^ 24 + (x.runsOf owner % 2 ^ 24) * 2 ^ 24)
    else if off = 0x10 then .denied
    else .val 0

/-- POOL_STAT (R345). -/
def poolStat (s : M8) (hub pool : Nat) : Nat :=
  poolFree s hub pool % 2 ^ 32 + ((getPool s hub pool).waiting.length % 2 ^ 16) * 2 ^ 32

/-- A granule of a DMA channel (R350 to R360). -/
def dmaRegs (s : M8) (hub c off : Nat) : Seen :=
  let x := getDma s hub c
  if off = 0 then twoWords (b2n x.enable + b2n x.irqEn * 8) x.stat
  else if off = 8 then twoWords x.cfg x.residue
  else if off = 0x10 then .val (x.desc % 2 ^ 48)
  else if off = 0x18 then .val (x.cur % 2 ^ 48)
  else if off = 0x20 then .val (x.pace % 2 ^ 64)
  else if off = 0x28 then .val (x.lvl % 2 ^ 48)
  else if off = 0x30 then .val (x.sts % 2 ^ 48)
  else .hole

/-- STATE code of a ring (R425). -/
def RingSt.code : RingSt → Nat
  | .disabled => 0 | .running => 1 | .frozen => 2 | .stopping => 3

/-- RING_CFG. -/
def Ring.cfgWord (x : Ring) : Nat := x.vector % 2 ^ 7 + (x.sqLog % 32) * 2 ^ 16 + (x.cqLog % 32) * 2 ^ 24

/-- RING_STAT. -/
def Ring.statWord (x : Ring) : Nat :=
  x.st.code + b2n (x.pendEnable || x.pendRestart.isSome) * 2 ^ 4 + b2n x.refused * 2 ^ 5 + (x.inflight % 2 ^ 16) * 2 ^ 16

/-- A granule of a PCIe ring (R421 to R425). -/
def ringRegs (s : M8) (r off : Nat) : Seen :=
  let x := getRing s r
  if off = 0 then .val (x.sqBase % 2 ^ 64)
  else if off = 8 then .val (x.cqBase % 2 ^ 64)
  else if off = 0x10 then twoWords x.cfgWord (b2n x.enable + b2n x.irqEn * 8)
  else if off = 0x18 then .val x.statWord
  else if off = 0x20 then twoWords (x.sqTail % 2 ^ 16) (x.cqHead % 2 ^ 16)
  else if off = 0x28 then twoWords (x.sqHead % 2 ^ 16) x.errSeq
  else .hole

/-- MBX_CTL and MBX_STAT (R81). -/
def mbxCtlWord (s : M8) : Nat := b2n s.mbx.irqEn * 2 + (s.mbx.reqLen % 2 ^ 16) * 2 ^ 16

def mbxStatWord (s : M8) : Nat :=
  b2n s.mbx.busy + b2n s.mbx.done * 2 + b2n s.mbx.err * 4 + (s.mbx.rspLen % 2 ^ 16) * 2 ^ 16

/-- A granule of a hub's registers. The mailbox and the rings stand in Hub 0. -/
def hubReg (s : M8) (agent hub off : Nat) : Seen :=
  if off = 0x8000 && hub = 0 then twoWords (mbxCtlWord s) (mbxStatWord s)
  else if off = 0xA000 || off = 0xB000 then .val 0
  else if off = 0xA008 then .val (cdcStat (getCodec s hub))
  else if off = 0xB008 then .val (txtStat (getText s hub))
  else if 0xC000 ≤ off && off < 0xD000 then .val (intSrcWord s ((off - 0xC000) / 8))
  else if 0xD000 ≤ off && off < 0xD800 then intReg s ((off - 0xD000) / 0x100) (off % 0x100)
  else if off = 0xE000 then .val (s.intc.addrErr.get {} hub).word
  else if off = 0x10000 then .val (poolStat s hub 0)
  else if off = 0x10008 then .val (poolStat s hub 1)
  else if 0x11000 ≤ off && off < 0x13000 then portReg s agent hub 0 ((off - 0x11000) / 0x20) (off % 0x20)
  else if 0x13000 ≤ off && off < 0x15000 then portReg s agent hub 1 ((off - 0x13000) / 0x20) (off % 0x20)
  else if 0x20000 ≤ off && off < 0x21000 then dmaRegs s hub ((off - 0x20000) / 0x40) (off % 0x40)
  else if 0x40000 ≤ off && off < 0x41000 && hub = 0 then ringRegs s ((off - 0x40000) / 0x40) (off % 0x40)
  else .hole

/-- PORT_STAT (R444, R446, R450). -/
def portStatWord (s : M8) (p : Nat) : Nat :=
  let x := getPort s p
  x.st.code + b2n (decide (lanesUsed s p < 4)) * 2 ^ 4 + b2n x.pending * 2 ^ 5 + b2n x.refused * 2 ^ 6 +
    (if x.st = .up then lanesUsed s p else 0) * 2 ^ 8 + (x.queue.length % 32) * 2 ^ 16

/-- PORT_LANEMAP. -/
def laneMapWord (s : M8) (p : Nat) : Nat := leNat ((List.range 4).map fun i => BitVec.ofNat 8 ((portMap s p).getD i 0x1F))

/-- LANE_MON (R449). -/
def Lane.monWord (x : Lane) : Nat := x.symErr % 2 ^ 32 + (x.bias % 2 ^ 16) * 2 ^ 32 + (x.eye % 2 ^ 8) * 2 ^ 48 + (x.lstate % 8) * 2 ^ 61

/-- LAS_CH_STAT (R455 to R457). -/
def Laser.statWord (x : Laser) : Nat :=
  b2n x.atSet + b2n x.short * 2 + b2n x.railFail * 4 + b2n x.paused * 8 + b2n x.lowpwr * 16 + (x.step % 128) * 2 ^ 5 +
    (x.bias % 2 ^ 12) * 2 ^ 16

/-- A granule of an engine's and its lasers' registers (R441). -/
def oeRegs (s : M8) (k off : Nat) : Seen :=
  if !s.pwr.oeOn.get false k then .hole
  else if off = 0 then .val (b2n (getEngine s k).refused)
  else if off = 0x10 then .val ((getEngine s k).result % 16 * 2 ^ 24)
  else if 0x10000 ≤ off && off < 0x10400 then
    let p := 4 * k + (off - 0x10000) / 0x100
    if off % 0x100 = 0 then twoWords (b2n (getPort s p).enable + ((getPort s p).mode % 4) * 2 ^ 8) (portStatWord s p)
    else if off % 0x100 = 8 then .val (laneMapWord s p)
    else .hole
  else if 0x20000 ≤ off && off < 0x20000 + 18 * 0x40 then
    if off % 0x40 = 0 then .val (getLane s (18 * k + (off - 0x20000) / 0x40)).monWord else .hole
  else if 0x40000 ≤ off && off < 0x40000 + 18 * 0x40 then
    let x := getLaser s (18 * k + (off - 0x40000) / 0x40)
    if off % 0x40 = 0 then .val (x.ctl % 2 ^ 28) else if off % 0x40 = 8 then .val x.statWord else .hole
  else .hole

/-- PAV_STATUS (R103). -/
def pavStatus (s : M8) : Nat :=
  let p := s.pav
  let below := jobLoaded s && p.running && decide (p.periodFx / 65536 < odNat s Od.JOB_MIN_PERIOD_NS)
  p.src % 8 + b2n (p.slewFx != 0) * 2 ^ 4 + b2n p.jump.isSome * 2 ^ 5 + b2n p.pkt.qualified * 2 ^ 6 +
    b2n p.stepin.qualified * 2 ^ 7 + b2n p.running * 2 ^ 8 + b2n below * 2 ^ 9

/-- A granule of the package control block (R61, R103, R568). -/
def pkgReg (s : M8) (agent off : Nat) : Seen :=
  if off = 0x40 then .val (b2n (s.fences.get false agent) * 2 ^ 8 + (agent % 256) * 2 ^ 16)
  else if off = 0x100 then .val (s.pav.tb % 2 ^ 64)
  else if off = 0x108 then .val (pavStatus s)
  else if off = 0x110 then .val (s.pav.periodFx / 65536 % 2 ^ 40)
  else if off = 0x118 then .val (unsigned 32 (s.pav.slewFx / 2 ^ 32))
  else if off = 0x120 then .val (s.pav.event % 2 ^ 10)
  else if off = 0x180 then .val (resetCause s)
  else .hole

/-- The granule at an 8-byte aligned register address. Flash-channel die registers have no map (R382): a hole. -/
def regGranule (s : M8) (agent a : Nat) : Seen :=
  if unitOff s a then .hole
  else if 0x030000000000 ≤ a && a < 0x030000400000 then tileReg s ((a - 0x030000000000) / 0x10000) (a % 0x10000)
  else if 0x030001000000 ≤ a && a < 0x030001400000 then hubReg s agent ((a - 0x030001000000) / 0x100000) (a % 0x100000)
  else if 0x030003000000 ≤ a && a < 0x030003800000 then oeRegs s ((a - 0x030003000000) / 0x100000) (a % 0x100000)
  else if 0x030004000000 ≤ a && a < 0x030004001000 then pkgReg s agent (a % 0x1000)
  else .hole

/-- The TAKE port at an address, as (hub, pool, owner) (R345). -/
def takeAt (a : Nat) : Option (Nat × Nat × Nat) :=
  let off := a % 0x100000
  if 0x030001000000 ≤ a && a < 0x030001400000 && 0x11000 ≤ off && off < 0x15000 && off % 0x20 = 0x10 then
    some ((a - 0x030001000000) / 0x100000, if off < 0x13000 then 0 else 1, (off - 0x11000) % 0x2000 / 0x20)
  else none

/-! ### Reading -/

/-- Is n a size of a single access, and a aligned to it? -/
def accessOk (a n : Nat) : Bool := (n == 1 || n == 2 || n == 4 || n == 8) && a % n == 0

/-- Is an address of sync objects, and what its object's reference is (R37, R45)? -/
def syncAt (a : Nat) : Option Nat :=
  if 0x020200000000 ≤ a && a < 0x020200400000 then some ((a - 0x020200000000) / 16) else none

/-- What n bytes at a read as. -/
def spaceSee (s : M8) (agent a n : Nat) : Seen :=
  if unitOff s a then .hole
  else match readMem s a n with
  | some b => .val (leNat b)
  | none =>
    if !accessOk a n then .hole
    else match syncAt a with
      | some ref => .val ((getSync s ref).word >>> (8 * (a % 16)) % 2 ^ (8 * n))
      | none => match regGranule s agent (a / 8 * 8) with
        | .val v => .val (v >>> (8 * (a % 8)) % 2 ^ (8 * n))
        | x => x

/-- What reading a register that clears does (RC, R16): INT_CLAIM claims, ADDRERR is cleared. -/
def readEffect (s : M8) (a n : Nat) : M8 :=
  let off := a % 0x100000
  if !(0x030001000000 ≤ a && a < 0x030001400000) || !accessOk a n then s
  else if 0xD000 ≤ off && off < 0xD800 && off % 0x100 < 4 then (intClaim s ((off - 0xD000) / 0x100)).2
  else if off / 8 * 8 = 0xE000 then (addrErrRead s ((a - 0x030001000000) / 0x100000)).2
  else s

/-- A read of n bytes at a package address by an agent: what it finds, and the state after it. All ones come back from a hole and from
a register the access may not use, with an address-error event (R41). -/
def spaceRead (s : M8) (agent a n : Nat) : Seen × M8 :=
  match spaceSee s agent a n with
  | .val v => (.val v, readEffect s a n)
  | x => (x, addressError s agent a)

/-! ### Writing -/

/-- Each 1 of v in bit i clears b (W1C, R16). -/
def w1c (b : Bool) (v i : Nat) : Bool := b && !v.testBit i

/-- A write that only the control cores may make, discarded under R41 from another agent. -/
def coreOnly (s : M8) (agent a : Nat) (f : M8 → M8) : M8 := if isCore agent then f s else addressError s agent a

/-- The actions of REEL_CTL in the order of their bits (R214). -/
def reelActs (s : M8) (agent t v : Nat) : M8 :=
  [ReelAct.start, .halt, .unload, .tileReset, .quarantine].zipIdx.foldl (fun s e => if v.testBit e.2 then reelCtl s agent t e.1 else s) s

/-- A write of a granule of a tile's registers (R214). -/
def tileRegWrite (s : M8) (agent t off mask v : Nat) : M8 :=
  let a := tileRegAddr t off
  coreOnly s agent a fun s =>
    if off = 0 then reelActs s agent t (v &&& mask)
    else if off = 8 then modTile s t fun x => { x with refused := w1c x.refused (v &&& mask) 16 }
    else addressError s agent a

/-- A private source that becomes pending and enabled by a write wakes its pair (R597). -/
def wakePrivate (s : M8) (g : Nat) : M8 :=
  let x := getTgt s g
  match (List.range 35).find? fun b => (x.privPend &&& x.privEn).testBit b with
  | some b => wakeTarget s g (0x200 + b)
  | none => s

/-- A write of a granule of a target's block by a control core (R601). -/
def intRegWrite (s : M8) (agent g off mask v : Nat) : M8 :=
  let x := getTgt s g
  let lo := mask % 2 ^ 32
  let hi := mask / 2 ^ 32
  if off = 0 then (if hi = 0 then s else intComplete s agent g (v / 2 ^ 32 &&& hi &&& 0x3FF))
  else if off = 8 then
    let cfg := mergeBits (x.thresh % 8 + (x.privPrio % 8) * 2 ^ 4) lo v
    let s := setTgt s g { x with thresh := cfg % 8, privPrio := bits cfg 6 4 }
    if hi = 0 then s else intSwi s agent g (v / 2 ^ 32 &&& hi)
  else if off = 0x10 then wakePrivate (setTgt s g { x with privEn := mergeBits x.privEn mask v % 2 ^ 35 }) g
  else if off = 0x18 then setTgt s g { x with privPend := x.privPend - (x.privPend &&& (v &&& mask)) }
  else if off = 0x20 then setTgt s g { x with timecmp := mergeBits x.timecmp mask v % 2 ^ 64 }
  else if off = 0x28 then setTgt s g { x with wakeValid := w1c x.wakeValid (v &&& mask) 31 }
  else s

/-- A write of a granule of a pool port (R341, R342). -/
def portRegWrite (s : M8) (agent hub pool owner off mask v : Nat) : M8 :=
  if !portAllowed agent owner then addressError s agent (portAddr hub pool owner off)
  else if off = 0 then
    coreOnly s agent (portAddr hub pool owner off) fun s =>
      let x := getPool s hub pool
      let w := mergeBits (ownCfg s pool x owner).word mask v
      setPool s hub pool { x with
        cfg := x.cfg.set {} owner { reserve := bits w 23 0, limit := bits w 47 24, runM1 := bits w 59 48 } }
  else if off = 0x18 then poolGive s agent hub pool owner (v &&& mask)
  else s

/-- DMA_CH_CTL takes a value (R351, R354, R356, R357): ENABLE, then START, then ABORT. -/
def dmaCtl (s : M8) (agent hub c v : Nat) : M8 :=
  let s := modDma s hub c fun x => { x with irqEn := v.testBit 3 }
  let s := if v.testBit 0 then dmaEnable s agent hub c else dmaDisable s agent hub c
  let s := if v.testBit 1 then dmaStart s agent hub c else s
  if v.testBit 2 then dmaAbort s agent hub c else s

/-- A write of a granule of a DMA channel by a control core (R358). -/
def dmaRegWrite (s : M8) (agent hub c off mask v : Nat) : M8 :=
  let x := getDma s hub c
  let lo := mask % 2 ^ 32
  let hi := mask / 2 ^ 32
  let guard (ok : Bool) (y : DmaCh) : M8 := setDma s hub c (if ok then y else { x with refused := true })
  if off = 0 then
    let s := if lo % 256 = 0 then s else dmaCtl s agent hub c (v &&& lo)
    let w := v / 2 ^ 32 &&& hi
    modDma s hub c fun x => { x with refused := w1c x.refused w 4, doneBit := w1c x.doneBit w 5, err := w1c x.err w 6 }
  else if off = 8 then (if lo = 0 then s else guard (x.st == .disabled) { x with cfg := mergeBits x.cfg lo v % 2 ^ 10 })
  else if off = 0x10 then guard (x.st == .disabled || x.st == .idle) { x with desc := mergeBits x.desc mask v % 2 ^ 48 }
  else if off = 0x20 then guard (x.st == .disabled) { x with pace := mergeBits x.pace mask v % 2 ^ 64 }
  else if off = 0x28 then guard (x.st == .disabled) { x with lvl := mergeBits x.lvl mask v % 2 ^ 48 }
  else if off = 0x30 then setDma s hub c { x with sts := mergeBits x.sts mask v % 2 ^ 48 }
  else s

/-- RING_CTL takes a value (R425, R438). -/
def ringCtl (s : M8) (r v : Nat) : M8 :=
  let s := modRing s r fun x => { x with irqEn := v.testBit 3 }
  let s := if v.testBit 0 then ringEnable s r else ringDisable s r
  if v.testBit 1 then ringRestart s r (v.testBit 2) else s

/-- A write of a granule of a ring by the host or a control core (R424). -/
def ringRegWrite (s : M8) (r off mask v : Nat) : M8 :=
  let x := getRing s r
  let lo := mask % 2 ^ 32
  let hi := mask / 2 ^ 32
  let w := v / 2 ^ 32
  if off = 0 then (if x.st = .disabled then setRing s r { x with sqBase := mergeBits x.sqBase mask v % 2 ^ 64 / 4096 * 4096 } else refuseRing s r)
  else if off = 8 then (if x.st = .disabled then setRing s r { x with cqBase := mergeBits x.cqBase mask v % 2 ^ 64 / 4096 * 4096 } else refuseRing s r)
  else if off = 0x10 then
    let c := mergeBits x.cfgWord lo v
    let ok : Bool := x.st == .disabled && 4 ≤ bits c 20 16 && bits c 20 16 ≤ 16 && 4 ≤ bits c 28 24 && bits c 28 24 ≤ 16 && c % 128 ≤ 126
    let s := if lo = 0 then s
      else if ok then setRing s r { x with vector := c % 128, sqLog := bits c 20 16, cqLog := bits c 28 24 } else refuseRing s r
    if hi % 256 = 0 then s else ringCtl s r (w &&& hi)
  else if off = 0x18 then setRing s r { x with refused := w1c x.refused (v &&& mask) 5 }
  else if off = 0x20 then
    let s := if lo % 2 ^ 16 = 0 then s else sqTailWrite s r (mergeBits x.sqTail lo v % 2 ^ 16)
    if hi % 2 ^ 16 = 0 then s else cqHeadWrite s r (mergeBits x.cqHead hi w % 2 ^ 16)
  else s

/-- A write of MBX_CTL and MBX_STAT (R81, R82). -/
def mbxRegWrite (s : M8) (mask v : Nat) : M8 :=
  let s := if mask % 2 ^ 32 = 0 then s else mbxGo s (mergeBits (mbxCtlWord s) (mask % 2 ^ 32) (v % 2 ^ 32))
  let w := (v &&& mask) / 2 ^ 32
  { s with mbx := { s.mbx with done := w1c s.mbx.done w 1, err := w1c s.mbx.err w 2 } }

/-- A write of a granule of a hub's registers. -/
def hubRegWrite (s : M8) (agent hub off mask v : Nat) : M8 :=
  let a := 0x030001000000 + hub * 0x100000 + off
  let w := v &&& mask
  if off = 0x8000 then mbxRegWrite s mask v
  else if off = 0xA000 then cdcSubmit s agent hub w
  else if off = 0xB000 then txtSubmit s agent hub w
  else if off = 0xA008 then coreOnly s agent a fun s => setCodec s hub (let x := getCodec s hub
    { x with doneBit := w1c x.doneBit w 0, align := w1c x.align w 1, full := w1c x.full w 2, dup := w1c x.dup w 3 })
  else if off = 0xB008 then coreOnly s agent a fun s => modText s hub fun x =>
    { x with doneBit := w1c x.doneBit w 0, align := w1c x.align w 1, full := w1c x.full w 2, dup := w1c x.dup w 3 }
  else if 0xC000 ≤ off && off < 0xD000 then
    let id := (off - 0xC000) / 8
    let x := getSrc s id
    intSrcWrite s agent id (mergeBits (x.target % 8 + b2n x.enable * 2 ^ 6 + (x.prio % 8) * 2 ^ 7) (mask % 2 ^ 32) (v % 2 ^ 32))
  else if 0xD000 ≤ off && off < 0xD800 then
    coreOnly s agent a fun s => intRegWrite s agent ((off - 0xD000) / 0x100) (off % 0x100) mask v
  else if off = 0xE000 then coreOnly s agent a id
  else if 0x11000 ≤ off && off < 0x13000 then portRegWrite s agent hub 0 ((off - 0x11000) / 0x20) (off % 0x20) mask v
  else if 0x13000 ≤ off && off < 0x15000 then portRegWrite s agent hub 1 ((off - 0x13000) / 0x20) (off % 0x20) mask v
  else if 0x20000 ≤ off && off < 0x21000 then
    coreOnly s agent a fun s => dmaRegWrite s agent hub ((off - 0x20000) / 0x40) (off % 0x40) mask v
  else if 0x40000 ≤ off && off < 0x41000 then
    ringWriter s agent ((off - 0x40000) / 0x40) (off % 0x40) fun s => ringRegWrite s ((off - 0x40000) / 0x40) (off % 0x40) mask v
  else s

/-- PORT_CTL takes a value: MODE, then ENABLE, then RETRAIN (R446). -/
def portCtl (s : M8) (p v : Nat) : M8 :=
  let x := getPort s p
  let mode := bits v 9 8
  let s := if mode = x.mode then s
    else if x.st = .disabled && mode ≠ 3 then setPort s p { x with mode := mode } else setPort s p { x with refused := true }
  let s := if v.testBit 0 then enablePort s p else disablePort s p
  if v.testBit 1 then retrainPort s p else s

/-- LAS_CH_CTL takes a value (R455). -/
def laserCtl (s : M8) (c v : Nat) : M8 :=
  let s := modLaser s c fun x => { x with ctl := (v &&& 0x0FFFFFF2) + x.ctl % 2 }
  if v.testBit 0 then laserOn s c else laserOff s c

/-- A write of a granule of an engine's registers by a control core of its hub (R441). -/
def oeRegWrite (s : M8) (agent k off mask v : Nat) : M8 :=
  let w := v &&& mask
  if 0x10000 ≤ off && off < 0x10400 && off % 0x100 = 0 then
    let p := 4 * k + (off - 0x10000) / 0x100
    let x := getPort s p
    let ctl := mergeBits (b2n x.enable + (x.mode % 4) * 2 ^ 8) (mask % 2 ^ 32) (v % 2 ^ 32)
    let guard := if ctl.testBit 0 then oeEnableWrite else oeWrite
    guard s agent k off fun s =>
      let s := if mask % 2 ^ 32 = 0 then s else portCtl s p ctl
      modPort s p fun x => { x with refused := w1c x.refused (w / 2 ^ 32) 6 }
  else oeWrite s agent k off fun s =>
    if off = 0 then modEngine s k fun e => { e with refused := w1c e.refused w 0 }
    else if off = 0x10 then laneCmd s agent k (w % 8) (bits w 12 8) (bits w 20 16)
    else if 0x40000 ≤ off && off % 0x40 = 0 then
      let c := 18 * k + (off - 0x40000) / 0x40
      laserCtl s c (mergeBits (getLaser s c).ctl (mask % 2 ^ 32) (v % 2 ^ 32))
    else if 0x40000 ≤ off && off % 0x40 = 8 then
      modLaser s (18 * k + (off - 0x40000) / 0x40) fun x => { x with
        short := w1c x.short w 1, railFail := w1c x.railFail w 2, lowpwr := w1c x.lowpwr w 4 }
    else s

/-- A package fence of an agent starts, or the pending one is extended (R61, R62). -/
def fenceStart (s : M8) (agent : Nat) : M8 := { s with fences := s.fences.set false agent true }

/-- A write of a granule of the package control block (R61, R104). -/
def pkgRegWrite (s : M8) (agent off mask v : Nat) : M8 :=
  let w := v &&& mask
  if off = 0x40 then (if w.testBit 0 then fenceStart s agent else s)
  else if off = 0x120 then
    let e := s.pav.event - (s.pav.event &&& w)
    setLine { s with pav := { s.pav with event := e } } 0x148 (e != 0)
  else s

/-- A write to a granule that holds a register; none where there is nothing (R41). A port of an engine that is off takes the write that
enables it. -/
def regWrite (s : M8) (agent a mask v : Nat) : Option M8 :=
  let off := a % 0x100000
  let enables : Bool := 0x030003000000 ≤ a && a < 0x030003800000 && 0x10000 ≤ off && off < 0x10400 && off % 0x100 == 0 &&
    (v &&& mask).testBit 0 && !unitOff s a
  if regGranule s agent a = .hole && !enables then none
  else if a < 0x030001000000 then some (tileRegWrite s agent ((a - 0x030000000000) / 0x10000) (a % 0x10000) mask v)
  else if a < 0x030002000000 then some (hubRegWrite s agent ((a - 0x030001000000) / 0x100000) off mask v)
  else if a < 0x030004000000 then some (oeRegWrite s agent ((a - 0x030003000000) / 0x100000) off mask v)
  else some (pkgRegWrite s agent (a % 0x1000) mask v)

/-- A write of n bytes of a sync object whose tile has no program loaded (R45, R46); whoever waits for what the object now shows is
released (R48). -/
def syncWrite (s : M8) (ref a n v : Nat) : M8 :=
  let sh := 8 * (a % 16)
  let w := mergeBits (getSync s ref).word ((2 ^ (8 * n) - 1) * 2 ^ sh) (v % 2 ^ (8 * n) * 2 ^ sh)
  serveTakes (releaseWaiters (setSync s ref (SyncObj.ofWord w)) ref) ref

/-- The structures of a hub's pools, which the pool alone writes: 4 MiB of hub SRAM below the SRAM pool (R329). -/
def inPoolTables (s : M8) (a : Nat) : Bool :=
  let off := (a - 0x020100000000) % 0x4000000
  0x020100000000 ≤ a && a < 0x020110000000 && (60 - odInForce s Od.SRAM_POOL_MIB) * 0x100000 ≤ off &&
    off < (64 - odInForce s Od.SRAM_POOL_MIB) * 0x100000

/-- The hub whose grammar tail words n bytes at a touch (R375). -/
def tailsTouched (a n : Nat) : Option Nat :=
  [0, 1, 2, 3].find? fun h => a < tailAddr h 64 && tailAddr h 0 < a + n

/-- A write of bytes to memory. MBX_REQ takes none while BUSY is 1, MBX_RSP none at all (R82). -/
def memWrite (s : M8) (agent a n v : Nat) : M8 :=
  match tailsTouched a n with
  | some h =>
    if n = 8 && a % 8 = 0 then tailWrite s h ((a - tailAddr h 0) / 8) v else odInc s Od.GRAMMAR_TAIL_REJECTS
  | none =>
    if inPoolTables s a then addressError s agent a
    else if 0x030001009000 ≤ a || (0x030001008800 ≤ a && s.mbx.busy) then s
    else writeMem s a (natLe n v)

/-- What a PCIe request may reach (R416, R417): the mailbox, the rings, and, written as one aligned 8-byte word, the credit words. -/
def hostMay (s : M8) (a n : Nat) : Bool :=
  (0x030001008000 ≤ a && a < 0x030001009800) || (0x030001040000 ≤ a && a < 0x030001041000) ||
    (jobLoaded s && n == 8 && a % 8 == 0 && s.job.creditArea ≤ a && a < s.job.creditArea + 8 * s.job.jr.ranks.length)

/-- A write of n bytes at a package address by an agent; none where there is nothing to write to (R41). -/
def spaceWrite (s : M8) (agent a n v : Nat) : Option M8 :=
  if unitOff s a || (agent = 0x70 && !hostMay s a n) then none
  else if inMem a n then
    if agent = 0x70 && a < 0x030000000000 then some (creditWrite s ((a - s.job.creditArea) / 8) v) else some (memWrite s agent a n v)
  else if !accessOk a n then none
  else match syncAt a with
    | some ref => some (if programLoaded s (ref / 4096) then addressError s agent a else syncWrite s ref a n v)
    | none =>
      if a < 0x030000000000 then none
      else regWrite s agent (a / 8 * 8) ((2 ^ (8 * n) - 1) * 2 ^ (8 * (a % 8))) (v % 2 ^ (8 * n) * 2 ^ (8 * (a % 8)))

/-- REG_WRITE: an agent writes size bytes at a package address (R16, R41, R46). -/
def regWriteBy (s : M8) (agent a n v : Nat) : M8 :=
  if n ≠ 1 && n ≠ 2 && n ≠ 4 && n ≠ 8 then s else (spaceWrite s agent a n v).getD (addressError s agent a)

/-- REG_WRITE (R16). -/
def execRegWrite (agent addr size value : Nat) (s : State) : Out := live s fun m => regWriteBy m agent addr size value

/-! ### LD and ST (R186, R188, R192) -/

/-- Does a program's access to a package address trap: the firmware reserves of tile SRAM and of sync objects (R184)? -/
def reserved (a : Nat) : Bool :=
  inReserve a || match syncAt a with
    | some ref => ref % 4096 ≥ 4032
    | none => false

/-- The size of an LD or ST. -/
def accessSize (f : RFields) : Nat := 2 ^ (f.func % 4)

/-- The address of an LD or ST. -/
def accessAddr (y : Thread) (f : RFields) : Nat := (y.reg f.sa + sext f.imm).toNat

/-- What LD puts into SD: the bytes, sign-extended when FUNC[2] is set. -/
def loaded (f : RFields) (v : Nat) : Word64 :=
  if f.func.testBit 2 then (BitVec.ofNat (8 * accessSize f) v).signExtend 64 else BitVec.ofNat 64 v

/-- A trap of cause 0x04 of a thread's access (R41, R210). -/
def holeTrap (m : M8) (t th : Nat) (y : Thread) (pkg arg : Nat) : M8 := trapHere (addressError m t pkg) t th y 0x04 (arg % 2 ^ 48)

/-- Does a thread wait in a pool already? -/
def waitsInPool (m : M8) (t th : Nat) : Bool := m.hubs.pools.any fun p => p.2.waiting.any (PoolReq.ofThread t th)

/-- LD: a misaligned one traps 0x03, a hole or a reserve 0x04; an aligned 8-byte read of TAKE waits for its grant (R341). -/
def execLd (t th : Nat) (f : RFields) (s : State) : Out :=
  reel s t th fun m y =>
    let a := accessAddr y f
    let n := accessSize f
    if a % n ≠ 0 then trapHere m t th y 0x03 (a % 2 ^ 48)
    else if waitsInPool m t th then m
    else match localToPkg t a with
      | none => holeTrap m t th y a a
      | some p =>
        if reserved p then holeTrap m t th y p a
        else match takeAt p, decide (n = 8) && (takeAt p).any (fun q => portAllowed t q.2.2) && !unitOff m p with
          | some (hub, pool, owner), true =>
            poolTake (setThread m t th { y with tstate := .waitQueue, wait := .queue }) t hub pool owner (.thread t th f.sd f.nd)
          | _, _ =>
            match spaceRead m t p n with
            | (.val v, m) => completeSd m t th 29 f (getThread m t th) (loaded f v)
            | (.denied, m) => completeSd m t th 29 f (getThread m t th) (loaded f (2 ^ (8 * n) - 1))
            | (.hole, m) => trapHere m t th y 0x04 (a % 2 ^ 48)

/-- ST: a misaligned one traps 0x03, a hole or a reserve 0x04, a sync object of a tile with a program loaded 0x08. -/
def execSt (t th : Nat) (f : RFields) (s : State) : Out :=
  reel s t th fun m y =>
    let a := accessAddr y f
    let n := accessSize f
    if a % n ≠ 0 then trapHere m t th y 0x03 (a % 2 ^ 48)
    else match localToPkg t a with
      | none => holeTrap m t th y a a
      | some p =>
        if reserved p then holeTrap m t th y p a
        else if (syncAt p).any fun ref => programLoaded m (ref / 4096) then trapHere m t th y 0x08 (a % 2 ^ 48)
        else match spaceWrite m t p n ((y.reg f.sb).toNat % 2 ^ (8 * n)) with
          | some m => complete m t th 29 f.nd (getThread m t th)
          | none => holeTrap m t th y p a

/-! ### Package fences (R61, R62) -/

/-- PKG_FENCE_START: START is written in PKG_FENCE by an agent (R61). -/
def execPkgFenceStart (agent : Nat) (s : State) : Out := live s fun m => fenceStart m agent

/-- PKG_FENCE_DONE: every covered side effect is complete; PEND returns to 0 and a core's private source 34 rises (R62, R594). -/
def execPkgFenceDone (agent : Nat) (s : State) : Out :=
  live s fun m =>
    if m.fences.get false agent then
      let m := { m with fences := m.fences.set false agent false }
      if isCore agent then privEdge m (agent - 0x40) 34 else m
    else m

end Machine
end Sys2Proof
end

