-- ==== Sys2Proof/Machine/DmaMove.lean ====
section
/-!
DEFINITION. Sys2Proof/Machine/DmaMove.lean: the movers of the DMA engines: bursts, beats and narrow accesses, pacing, turns, bus errors
(R348 to R359). A mover does one access in each hub clock (assumption log 53).
-/
namespace Sys2Proof
namespace Machine

/-- The agent number of a hub's DMA engine (R43). -/
def dmaAgent (hub : Nat) : Nat := 0x48 + hub

/-- The naturally aligned pieces of at most 8 bytes that n bytes at a consist of, as sizes. -/
def granules : Nat → Nat → Nat → List Nat
  | 0, _, _ => []
  | fuel + 1, a, n =>
    if n = 0 then [] else
    let k := if a % 8 = 0 && n ≥ 8 then 8 else if a % 4 = 0 && n ≥ 4 then 4 else if a % 2 = 0 && n ≥ 2 then 2 else 1
    k :: granules fuel (a + k) (n - k)

/-- Read pieces at consecutive addresses; none at the first that gives no value. -/
def readPieces (agent : Nat) : Nat → List Nat → M8 → Option (Bytes × M8)
  | _, [], s => some ([], s)
  | a, k :: ks, s => match spaceRead s agent a k with
    | (.val v, s) => match readPieces agent (a + k) ks s with
      | some (b, s) => some (natLe k v ++ b, s)
      | none => none
    | _ => none

/-- Read n bytes as a DMA engine does. -/
def dmaRead (s : M8) (hub a n : Nat) : Option (Bytes × M8) :=
  if unitOff s a then none
  else match readMem s a n with
    | some b => some (b, s)
    | none => readPieces (dmaAgent hub) a (granules n a n) s

/-- Write pieces at consecutive addresses. -/
def writePieces (agent : Nat) : Nat → List Nat → Nat → M8 → M8
  | _, [], _, s => s
  | a, k :: ks, v, s => writePieces agent (a + k) ks (v / 2 ^ (8 * k)) ((spaceWrite s agent a k (v % 2 ^ (8 * k))).getD s)

/-- Write bytes as a DMA engine does; none where one of them goes to a hole (R41). -/
def dmaWrite (s : M8) (hub a : Nat) (b : Bytes) : Option M8 :=
  if inMem a b.length then spaceWrite s (dmaAgent hub) a b.length (leNat b)
  else
    let ks := granules b.length a b.length
    let ok := ks.foldl (fun (p : Nat × Bool) k => (p.1 + k, p.2 && spaceSee s (dmaAgent hub) p.1 k != .hole)) (a, true)
    if ok.2 then some (writePieces (dmaAgent hub) a ks (leNat b) s) else none

/-- The bytes of the burst that starts at the present byte of a channel: a head up to the next 64-byte boundary, up to 16 beats within
a 4 KiB page and a run, or a tail (R349, R359); 0 past the end of a chain. -/
def burstLen (s : M8) (x : DmaCh) : Nat :=
  let left := x.len - x.done
  match dmaByte s x.dst (x.flags.testBit 3) x.done with
  | none => 0
  | some (a, run) =>
    if a % 64 ≠ 0 then min left (min (64 - a % 64) run)
    else if left ≥ 64 && run ≥ 64 then 64 * min 16 (min (left / 64) (min ((4096 - a % 4096) / 64) (run / 64)))
    else min left run

/-- Read up to n bytes of a channel's source from byte k on, by 64-byte lines, up to the first that cannot be read. -/
def readBurst (hub : Nat) (x : DmaCh) : Nat → Nat → Nat → M8 → Bytes × M8
  | 0, _, _, s => ([], s)
  | fuel + 1, k, n, s =>
    if n = 0 then ([], s) else
    match dmaByte s x.src (x.flags.testBit 2) k with
    | none => ([], s)
    | some (a, run) =>
      let j := min n (min (64 - a % 64) run)
      match dmaRead s hub a j with
      | none => ([], s)
      | some (b, s) =>
        let (r, s) := readBurst hub x fuel (k + j) (n - j) s
        (b ++ r, s)

/-- The size of the next write access at address a with r bytes of the burst left: a beat, or the largest naturally aligned narrow
access (R359). -/
def accessLen (a r : Nat) : Nat :=
  if a % 64 = 0 && r ≥ 64 then 64
  else if a % 32 = 0 && r ≥ 32 then 32 else if a % 16 = 0 && r ≥ 16 then 16 else if a % 8 = 0 && r ≥ 8 then 8
  else if a % 4 = 0 && r ≥ 4 then 4 else if a % 2 = 0 && r ≥ 2 then 2 else 1

/-- Start a burst of a running channel that holds a mover: a paced one first reads its level (R352); what the burst writes is read.
An access that fails leaves the channel where it is (R355). -/
def startBurst (s : M8) (hub c : Nat) : M8 :=
  let x := getDma s hub c
  let go (s : M8) : M8 :=
    let (b, s) := readBurst hub x 17 x.done (burstLen s x) s
    if b.isEmpty then s else setDma s hub c { x with buf := b, accRetries := 0 }
  if !x.isPaced then go s
  else match dmaLevel s hub x with
    | none => s
    | some v => if x.pauses v then setDma s hub c { x with st := .paced, mover := false } else go s

/-- Does another channel of the hub and of the same priority wait while no mover is free (R353)? -/
def mustYield (s : M8) (hub : Nat) (x : DmaCh) : Bool :=
  let l := hubDma s hub
  (l.filter fun p => p.2.mover).length ≥ 8 && l.any fun p => p.2.waits && p.2.prio == x.prio

/-- A burst has ended: a stopping channel comes to its end, a finished one or one whose turn is over gives its mover back (R353, R354,
R356). -/
def burstEnd (s : M8) (hub c : Nat) : M8 :=
  let x := getDma s hub c
  if x.st = .stopping then
    let s := setDma s hub c { x with mover := false }
    if x.stopCode = 1 then dmaAbortEnd s hub c else s
  else if x.done ≥ x.len then setDma s hub c { x with mover := false }
  else if mustYield s hub x then setDma s hub c { x with mover := false, since := s.clk.hclk }
  else s

/-- One write access of a channel that has read bytes. -/
def writeAccess (s : M8) (hub c : Nat) : M8 :=
  let x := getDma s hub c
  match dmaByte s x.dst (x.flags.testBit 3) x.done with
  | none => s
  | some (a, _) =>
    let n := accessLen a x.buf.length
    match dmaWrite s hub a (x.buf.take n) with
    | none => s
    | some s =>
      let s := modDma s hub c fun x => { x with buf := x.buf.drop n, done := x.done + n, accRetries := 0 }
      if (getDma s hub c).buf.isEmpty then burstEnd s hub c else s

/-- One hub clock of a channel that holds a mover. -/
def moverTick (s : M8) (hub c : Nat) : M8 :=
  let x := getDma s hub c
  if x.st = .running && x.buf.isEmpty then
    if x.done ≥ x.len then setDma s hub c { x with mover := false }
    else
      let s := startBurst s hub c
      if (getDma s hub c).buf.isEmpty then s else writeAccess s hub c
  else if (x.st = .running || x.st = .stopping) && !x.buf.isEmpty then writeAccess s hub c
  else s

/-- The movers of the four hubs in one hub clock. -/
def dmaTick (s : M8) : M8 :=
  (s.hubs.dma.filter fun p => p.2.mover).foldl (fun s p => moverTick s (p.1 / 64) (p.1 % 64)) s

/-- A bus error on an access of a channel (R349, R355): the access is issued again up to RETRIES times, then the channel
halts with code 3. Running past the end of a chain is not retried. An access to a hole is an address-error event too (R41). -/
def execDmaBusError (hub c addr : Nat) (s : State) : Out :=
  live s fun m =>
    let x := getDma m hub c
    if x.st ≠ .running && !(x.st = .stopping && !x.buf.isEmpty) then m
    else
      let ended := (x.flags.testBit 2 && (dmaByte m x.src true (x.done + x.buf.length)).isNone) ||
        (x.flags.testBit 3 && (dmaByte m x.dst true x.done).isNone)
      let m := odInc m Od.DMA_BUS_ERRORS
      let m := if spaceSee m (dmaAgent hub) addr 1 = .hole then addressError m (dmaAgent hub) addr else m
      if x.accRetries < x.retries && !ended then
        setDma m hub c { x with accRetries := x.accRetries + 1, descRetries := x.descRetries + 1, retriesUsed := x.retriesUsed + 1 }
      else dmaHalt m hub c 3 addr

end Machine
end Sys2Proof
end

