-- ==== Sys2Proof/Machine/Dispatch.lean ====
section
/-!
DEFINITION. Sys2Proof/Machine/Dispatch.lean: one arm per command of the table.
-/
namespace Sys2Proof
namespace Machine
open Host

def exec (i : Instr) (s : State) : Host.Outcome State Fault Refusal :=
  match i with
  | .cellSelfCheckFail tile cell => Sys2Proof.Machine.execCellSelfCheckFail tile cell s
  | .stepLatchFire tile obj => Sys2Proof.Machine.execStepLatchFire tile obj s
  | .pkgFenceStart agent => Sys2Proof.Machine.execPkgFenceStart agent s
  | .pkgFenceDone agent => Sys2Proof.Machine.execPkgFenceDone agent s
  | .remoteFenceComplete tile seq => Sys2Proof.Machine.execRemoteFenceComplete tile seq s
  | .flaggedWriteIssue id => Sys2Proof.Machine.execFlaggedWriteIssue id s
  | .regWrite agent addr size value => Sys2Proof.Machine.execRegWrite agent addr size value s
  | .dictRead m => Sys2Proof.Machine.execDictRead m s
  | .dictWrite m rivals => Sys2Proof.Machine.execDictWrite m rivals s
  | .readNext m => Sys2Proof.Machine.execReadNext m s
  | .writeNext m => Sys2Proof.Machine.execWriteNext m s
  | .describe m => Sys2Proof.Machine.execDescribe m s
  | .hello m => Sys2Proof.Machine.execHello m s
  | .proof m => Sys2Proof.Machine.execProof m s
  | .close m => Sys2Proof.Machine.execClose m s
  | .dictStoreComplete key ok => Sys2Proof.Machine.execDictStoreComplete key ok s
  | .domainHoldTimeout key => Sys2Proof.Machine.execDomainHoldTimeout key s
  | .sessionIdleTimeout sid => Sys2Proof.Machine.execSessionIdleTimeout sid s
  | .helloLapse sid => Sys2Proof.Machine.execHelloLapse sid s
  | .authLockoutEnd level => Sys2Proof.Machine.execAuthLockoutEnd level s
  | .mbxGo value => Sys2Proof.Machine.execMbxGo value s
  | .keySlotWrite m => Sys2Proof.Machine.execKeySlotWrite m s
  | .restoreDefaults m => Sys2Proof.Machine.execRestoreDefaults m s
  | .timingPacket src payload => Sys2Proof.Machine.execTimingPacket src payload s
  | .stepInEdge => Sys2Proof.Machine.execStepInEdge s
  | .stepInCodedWord word => Sys2Proof.Machine.execStepInCodedWord word s
  | .srcLost src => Sys2Proof.Machine.execSrcLost src s
  | .holdoverWarn => Sys2Proof.Machine.execHoldoverWarn s
  | .slewDone => Sys2Proof.Machine.execSlewDone s
  | .hardJump => Sys2Proof.Machine.execHardJump s
  | .windowOpen idx target => Sys2Proof.Machine.execWindowOpen idx target s
  | .windowClose idx target => Sys2Proof.Machine.execWindowClose idx target s
  | .commitDeadline idx target => Sys2Proof.Machine.execCommitDeadline idx target s
  | .transferAdmit tile thread idx target => Sys2Proof.Machine.execTransferAdmit tile thread idx target s
  | .lateSubstStart target => Sys2Proof.Machine.execLateSubstStart target s
  | .startTimeout => Sys2Proof.Machine.execStartTimeout s
  | .jobLoad cmd image record_ hostErr => Sys2Proof.Machine.execJobLoad cmd image record_ hostErr s
  | .auditLoad cmd image record_ hostErr => Sys2Proof.Machine.execAuditLoad cmd image record_ hostErr s
  | .auditComplete => Sys2Proof.Machine.execAuditComplete s
  | .jobStop cmd => Sys2Proof.Machine.execJobStop cmd s
  | .drainComplete => Sys2Proof.Machine.execDrainComplete s
  | .jobUnload cmd => Sys2Proof.Machine.execJobUnload cmd s
  | .slotWriteIssue id => Sys2Proof.Machine.execSlotWriteIssue id s
  | .bufferRelease rank step => Sys2Proof.Machine.execBufferRelease rank step s
  | .creditWrite rank word => Sys2Proof.Machine.execCreditWrite rank word s
  | .creditStall rank => Sys2Proof.Machine.execCreditStall rank s
  | .slotDoneReceive src payload => Sys2Proof.Machine.execSlotDoneReceive src payload s
  | .commitIssue step rank => Sys2Proof.Machine.execCommitIssue step rank s
  | .sealIssue step rank => Sys2Proof.Machine.execSealIssue step rank s
  | .cancelReceive src payload => Sys2Proof.Machine.execCancelReceive src payload s
  | .cancelAckReceive src payload => Sys2Proof.Machine.execCancelAckReceive src payload s
  | .nop tile thread f => Sys2Proof.Machine.execNop tile thread f s
  | .add tile thread f => Sys2Proof.Machine.execAdd tile thread f s
  | .sub tile thread f => Sys2Proof.Machine.execSub tile thread f s
  | .and tile thread f => Sys2Proof.Machine.execAnd tile thread f s
  | .or tile thread f => Sys2Proof.Machine.execOr tile thread f s
  | .xor tile thread f => Sys2Proof.Machine.execXor tile thread f s
  | .shl tile thread f => Sys2Proof.Machine.execShl tile thread f s
  | .shr tile thread f => Sys2Proof.Machine.execShr tile thread f s
  | .sar tile thread f => Sys2Proof.Machine.execSar tile thread f s
  | .mul tile thread f => Sys2Proof.Machine.execMul tile thread f s
  | .mulhu tile thread f => Sys2Proof.Machine.execMulhu tile thread f s
  | .divu tile thread f => Sys2Proof.Machine.execDivu tile thread f s
  | .remu tile thread f => Sys2Proof.Machine.execRemu tile thread f s
  | .sltu tile thread f => Sys2Proof.Machine.execSltu tile thread f s
  | .slt tile thread f => Sys2Proof.Machine.execSlt tile thread f s
  | .minu tile thread f => Sys2Proof.Machine.execMinu tile thread f s
  | .maxu tile thread f => Sys2Proof.Machine.execMaxu tile thread f s
  | .lui tile thread f => Sys2Proof.Machine.execLui tile thread f s
  | .rdtimeCycle tile thread f => Sys2Proof.Machine.execRdtimeCycle tile thread f s
  | .rdtimePav tile thread f => Sys2Proof.Machine.execRdtimePav tile thread f s
  | .rdtimeTile tile thread f => Sys2Proof.Machine.execRdtimeTile tile thread f s
  | .rdtimeChannel tile thread f => Sys2Proof.Machine.execRdtimeChannel tile thread f s
  | .ld tile thread f => Sys2Proof.Machine.execLd tile thread f s
  | .st tile thread f => Sys2Proof.Machine.execSt tile thread f s
  | .beq tile thread f => Sys2Proof.Machine.execBeq tile thread f s
  | .bne tile thread f => Sys2Proof.Machine.execBne tile thread f s
  | .blt tile thread f => Sys2Proof.Machine.execBlt tile thread f s
  | .bge tile thread f => Sys2Proof.Machine.execBge tile thread f s
  | .bltu tile thread f => Sys2Proof.Machine.execBltu tile thread f s
  | .bgeu tile thread f => Sys2Proof.Machine.execBgeu tile thread f s
  | .jal tile thread f => Sys2Proof.Machine.execJal tile thread f s
  | .jalr tile thread f => Sys2Proof.Machine.execJalr tile thread f s
  | .halt tile thread f => Sys2Proof.Machine.execHalt tile thread f s
  | .sadd tile thread f => Sys2Proof.Machine.execSadd tile thread f s
  | .saddLimit tile thread f => Sys2Proof.Machine.execSaddLimit tile thread f s
  | .swait tile thread f => Sys2Proof.Machine.execSwait tile thread f s
  | .sset tile thread f => Sys2Proof.Machine.execSset tile thread f s
  | .sclr tile thread f => Sys2Proof.Machine.execSclr tile thread f s
  | .stake tile thread f => Sys2Proof.Machine.execStake tile thread f s
  | .stakeTry tile thread f => Sys2Proof.Machine.execStakeTry tile thread f s
  | .sgive tile thread f => Sys2Proof.Machine.execSgive tile thread f s
  | .sarrive tile thread f => Sys2Proof.Machine.execSarrive tile thread f s
  | .sarm tile thread f => Sys2Proof.Machine.execSarm tile thread f s
  | .sread tile thread f => Sys2Proof.Machine.execSread tile thread f s
  | .remoteTakeRetry tile thread => Sys2Proof.Machine.execRemoteTakeRetry tile thread s
  | .wopen tile thread f => Sys2Proof.Machine.execWopen tile thread f s
  | .disp tile thread f => Sys2Proof.Machine.execDisp tile thread f s
  | .dispatchItemStart tile cell => Sys2Proof.Machine.execDispatchItemStart tile cell s
  | .itemFinish tile cell => Sys2Proof.Machine.execItemFinish tile cell s
  | .fetch tile thread f => Sys2Proof.Machine.execFetch tile thread f s
  | .fetchCached tile thread f => Sys2Proof.Machine.execFetchCached tile thread f s
  | .fetchFirst tile thread f => Sys2Proof.Machine.execFetchFirst tile thread f s
  | .flashFetchAdmit tile req => Sys2Proof.Machine.execFlashFetchAdmit tile req s
  | .fetchComplete tile req other => Sys2Proof.Machine.execFetchComplete tile req other s
  | .place tile thread f => Sys2Proof.Machine.execPlace tile thread f s
  | .cotillionPack tile req => Sys2Proof.Machine.execCotillionPack tile req s
  | .note tile thread f => Sys2Proof.Machine.execNote tile thread f s
  | .quar tile thread f => Sys2Proof.Machine.execQuar tile thread f s
  | .cfill tile thread f => Sys2Proof.Machine.execCfill tile thread f s
  | .cfillCopyDone tile req => Sys2Proof.Machine.execCfillCopyDone tile req s
  | .fenceCell tile thread f => Sys2Proof.Machine.execFenceCell tile thread f s
  | .fenceTile tile thread f => Sys2Proof.Machine.execFenceTile tile thread f s
  | .fencePackage tile thread f => Sys2Proof.Machine.execFencePackage tile thread f s
  | .fenceRemote tile thread f => Sys2Proof.Machine.execFenceRemote tile thread f s
  | .subst tile thread f => Sys2Proof.Machine.execSubst tile thread f s
  | .dedup tile thread f => Sys2Proof.Machine.execDedup tile thread f s
  | .vclr tile thread f => Sys2Proof.Machine.execVclr tile thread f s
  | .tileHwFault tile thread cause arg => Sys2Proof.Machine.execTileHwFault tile thread cause arg s
  | .reelStart agent tile => Sys2Proof.Machine.execReelStart agent tile s
  | .reelHalt agent tile => Sys2Proof.Machine.execReelHalt agent tile s
  | .reelUnload agent tile => Sys2Proof.Machine.execReelUnload agent tile s
  | .tileReset agent tile => Sys2Proof.Machine.execTileReset agent tile s
  | .reelQuarantine agent tile => Sys2Proof.Machine.execReelQuarantine agent tile s
  | .reelPendingApply tile => Sys2Proof.Machine.execReelPendingApply tile s
  | .tileHalted tile => Sys2Proof.Machine.execTileHalted tile s
  | .reelUnloadDone tile => Sys2Proof.Machine.execReelUnloadDone tile s
  | .gateItem tile cell => Sys2Proof.Machine.execGateItem tile cell s
  | .jpegDecodeItem tile cell => Sys2Proof.Machine.execJpegDecodeItem tile cell s
  | .idct8Item tile cell => Sys2Proof.Machine.execIdct8Item tile cell s
  | .cconvItem tile cell => Sys2Proof.Machine.execCconvItem tile cell s
  | .cropResizeItem tile cell => Sys2Proof.Machine.execCropResizeItem tile cell s
  | .randCropItem tile cell => Sys2Proof.Machine.execRandCropItem tile cell s
  | .flipRotItem tile cell => Sys2Proof.Machine.execFlipRotItem tile cell s
  | .photoItem tile cell => Sys2Proof.Machine.execPhotoItem tile cell s
  | .noiseItem tile cell => Sys2Proof.Machine.execNoiseItem tile cell s
  | .rangeProjItem tile cell => Sys2Proof.Machine.execRangeProjItem tile cell s
  | .voxelItem tile cell => Sys2Proof.Machine.execVoxelItem tile cell s
  | .normItem tile cell => Sys2Proof.Machine.execNormItem tile cell s
  | .checkItem tile cell => Sys2Proof.Machine.execCheckItem tile cell s
  | .cdcSubmit agent hub addr => Sys2Proof.Machine.execCdcSubmit agent hub addr s
  | .codecCompress hub lane => Sys2Proof.Machine.execCodecCompress hub lane s
  | .codecDecompress hub lane => Sys2Proof.Machine.execCodecDecompress hub lane s
  | .codecJobEnd hub lane => Sys2Proof.Machine.execCodecJobEnd hub lane s
  | .hitStageRelease tile req => Sys2Proof.Machine.execHitStageRelease tile req s
  | .hitDecodeDone hub lane => Sys2Proof.Machine.execHitDecodeDone hub lane s
  | .poolTake agent hub pool owner => Sys2Proof.Machine.execPoolTake agent hub pool owner s
  | .poolGrant hub pool => Sys2Proof.Machine.execPoolGrant hub pool s
  | .poolGive agent hub pool owner addr => Sys2Proof.Machine.execPoolGive agent hub pool owner addr s
  | .poolShare hub pool owner addr newOwner => Sys2Proof.Machine.execPoolShare hub pool owner addr newOwner s
  | .poolAuditRead => Sys2Proof.Machine.execPoolAuditRead s
  | .dmaStart agent hub channel => Sys2Proof.Machine.execDmaStart agent hub channel s
  | .dmaAbort agent hub channel => Sys2Proof.Machine.execDmaAbort agent hub channel s
  | .dmaEnable agent hub channel => Sys2Proof.Machine.execDmaEnable agent hub channel s
  | .dmaDisable agent hub channel => Sys2Proof.Machine.execDmaDisable agent hub channel s
  | .dmaShutdownDone hub channel => Sys2Proof.Machine.execDmaShutdownDone hub channel s
  | .dmaMoverGrant hub => Sys2Proof.Machine.execDmaMoverGrant hub s
  | .dmaPacePoll hub channel => Sys2Proof.Machine.execDmaPacePoll hub channel s
  | .dmaBusError hub channel addr => Sys2Proof.Machine.execDmaBusError hub channel addr s
  | .dmaDescEnd hub channel => Sys2Proof.Machine.execDmaDescEnd hub channel s
  | .vocabLoad blob => Sys2Proof.Machine.execVocabLoad blob s
  | .machineLoad machine blob => Sys2Proof.Machine.execMachineLoad machine blob s
  | .txtSubmit agent hub addr => Sys2Proof.Machine.execTxtSubmit agent hub addr s
  | .tokenise hub lane => Sys2Proof.Machine.execTokenise hub lane s
  | .detokenise hub lane => Sys2Proof.Machine.execDetokenise hub lane s
  | .validate hub lane => Sys2Proof.Machine.execValidate hub lane s
  | .textJobEnd hub lane => Sys2Proof.Machine.execTextJobEnd hub lane s
  | .grammarTailWrite hub queue value whole => Sys2Proof.Machine.execGrammarTailWrite hub queue value whole s
  | .grammarOpen hub => Sys2Proof.Machine.execGrammarOpen hub s
  | .grammarAdvance hub => Sys2Proof.Machine.execGrammarAdvance hub s
  | .grammarClose hub => Sys2Proof.Machine.execGrammarClose hub s
  | .ctxIdleTimeout hub ctx => Sys2Proof.Machine.execCtxIdleTimeout hub ctx s
  | .channelTraining channel ok3600 ok2800 => Sys2Proof.Machine.execChannelTraining channel ok3600 ok2800 s
  | .wordlineProgramDone stream => Sys2Proof.Machine.execWordlineProgramDone stream s
  | .fuaPadTimeout stream => Sys2Proof.Machine.execFuaPadTimeout stream s
  | .journalRecordDurable => Sys2Proof.Machine.execJournalRecordDurable s
  | .mapCacheMiss page => Sys2Proof.Machine.execMapCacheMiss page s
  | .mapWriteback page => Sys2Proof.Machine.execMapWriteback page s
  | .checkpoint => Sys2Proof.Machine.execCheckpoint s
  | .mount => Sys2Proof.Machine.execMount s
  | .gcStart => Sys2Proof.Machine.execGcStart s
  | .gcMove => Sys2Proof.Machine.execGcMove s
  | .blockFail block erase => Sys2Proof.Machine.execBlockFail block erase s
  | .parityContribution member chunk page seq before data => Sys2Proof.Machine.execParityContribution member chunk page seq before data s
  | .codewordRebuild lpn position pages => Sys2Proof.Machine.execCodewordRebuild lpn position pages s
  | .healthUpdate temp => Sys2Proof.Machine.execHealthUpdate temp s
  | .ringEnable agent ring irqEn => Sys2Proof.Machine.execRingEnable agent ring irqEn s
  | .ringDisable agent ring irqEn => Sys2Proof.Machine.execRingDisable agent ring irqEn s
  | .ringShutdownDone ring => Sys2Proof.Machine.execRingShutdownDone ring s
  | .ringRestart agent ring => Sys2Proof.Machine.execRingRestart agent ring s
  | .ringRestartDiscard agent ring => Sys2Proof.Machine.execRingRestartDiscard agent ring s
  | .sqTailDoorbell agent ring index => Sys2Proof.Machine.execSqTailDoorbell agent ring index s
  | .cqHeadDoorbell agent ring index => Sys2Proof.Machine.execCqHeadDoorbell agent ring index s
  | .sqFetch ring entry => Sys2Proof.Machine.execSqFetch ring entry s
  | .cmdComplete ring seq durable others => Sys2Proof.Machine.execCmdComplete ring seq durable others s
  | .cmdNop ring seq => Sys2Proof.Machine.execCmdNop ring seq s
  | .cmdRead ring seq segs hostErr fault => Sys2Proof.Machine.execCmdRead ring seq segs hostErr fault s
  | .cmdWrite ring seq segs data hostErr failAt => Sys2Proof.Machine.execCmdWrite ring seq segs data hostErr failAt s
  | .cmdDiscard ring seq => Sys2Proof.Machine.execCmdDiscard ring seq s
  | .secureDiscard ring seq => Sys2Proof.Machine.execSecureDiscard ring seq s
  | .cmdFlush ring seq => Sys2Proof.Machine.execCmdFlush ring seq s
  | .versionSeal ring seq => Sys2Proof.Machine.execVersionSeal ring seq s
  | .versionRelease ring seq => Sys2Proof.Machine.execVersionRelease ring seq s
  | .flr => Sys2Proof.Machine.execFlr s
  | .perstN => Sys2Proof.Machine.execPerstN s
  | .fabricRingOpen src payload => Sys2Proof.Machine.execFabricRingOpen src payload s
  | .fabricRingSubmit src payload => Sys2Proof.Machine.execFabricRingSubmit src payload s
  | .fabricRingData src payload => Sys2Proof.Machine.execFabricRingData src payload s
  | .fabricRingClose src payload => Sys2Proof.Machine.execFabricRingClose src payload s
  | .fabricRingRestart sid value => Sys2Proof.Machine.execFabricRingRestart sid value s
  | .lpHoldPoint => Sys2Proof.Machine.execLpHoldPoint s
  | .portEnable agent port => Sys2Proof.Machine.execPortEnable agent port s
  | .portDisable agent port => Sys2Proof.Machine.execPortDisable agent port s
  | .portRetrain agent port => Sys2Proof.Machine.execPortRetrain agent port s
  | .portRampDone port => Sys2Proof.Machine.execPortRampDone port s
  | .synthLock port => Sys2Proof.Machine.execSynthLock port s
  | .portAcquired port => Sys2Proof.Machine.execPortAcquired port s
  | .portLockLost port lanes synth => Sys2Proof.Machine.execPortLockLost port lanes synth s
  | .portFaultTimeout port => Sys2Proof.Machine.execPortFaultTimeout port s
  | .portStopDone port => Sys2Proof.Machine.execPortStopDone port s
  | .txCommand port frame => Sys2Proof.Machine.execTxCommand port frame s
  | .laneMonitorUpdate lane errs symbols eye bias => Sys2Proof.Machine.execLaneMonitorUpdate lane errs symbols eye bias s
  | .laneTrendFit lane => Sys2Proof.Machine.execLaneTrendFit lane s
  | .laneSwap agent engine lane target => Sys2Proof.Machine.execLaneSwap agent engine lane target s
  | .laneReturn agent engine lane target => Sys2Proof.Machine.execLaneReturn agent engine lane target s
  | .laneRetireCmd agent engine lane => Sys2Proof.Machine.execLaneRetireCmd agent engine lane s
  | .swapMarkerAgree engine => Sys2Proof.Machine.execSwapMarkerAgree engine s
  | .swapPartnerTimeout engine => Sys2Proof.Machine.execSwapPartnerTimeout engine s
  | .returnSoakEnd engine => Sys2Proof.Machine.execReturnSoakEnd engine s
  | .laserOn agent channel => Sys2Proof.Machine.execLaserOn agent channel s
  | .laserOff agent channel => Sys2Proof.Machine.execLaserOff agent channel s
  | .laserRampStep channel reached => Sys2Proof.Machine.execLaserRampStep channel reached s
  | .laserShort channel => Sys2Proof.Machine.execLaserShort channel s
  | .railRecover rail => Sys2Proof.Machine.execRailRecover rail s
  | .railFailTimeout rail => Sys2Proof.Machine.execRailFailTimeout rail s
  | .coreReset hub => Sys2Proof.Machine.execCoreReset hub s
  | .oeIdlePowerOff engine => Sys2Proof.Machine.execOeIdlePowerOff engine s
  | .frameReceive port frame => Sys2Proof.Machine.execFrameReceive port frame s
  | .egressSend port => Sys2Proof.Machine.execEgressSend port s
  | .linkAck port lseq grants => Sys2Proof.Machine.execLinkAck port lseq grants s
  | .linkNak port lseq grants => Sys2Proof.Machine.execLinkNak port lseq grants s
  | .linkCredit port grants => Sys2Proof.Machine.execLinkCredit port grants s
  | .linkReplayTimeout port => Sys2Proof.Machine.execLinkReplayTimeout port s
  | .linkAckTimer port => Sys2Proof.Machine.execLinkAckTimer port s
  | .helloSend port => Sys2Proof.Machine.execHelloSend port s
  | .helloReceive port payload => Sys2Proof.Machine.execHelloReceive port payload s
  | .neighbourLost port => Sys2Proof.Machine.execNeighbourLost port s
  | .addrReqSend => Sys2Proof.Machine.execAddrReqSend s
  | .addrReqReceive port src payload => Sys2Proof.Machine.execAddrReqReceive port src payload s
  | .addrAssignReceive payload => Sys2Proof.Machine.execAddrAssignReceive payload s
  | .addrRefuseReceive payload => Sys2Proof.Machine.execAddrRefuseReceive payload s
  | .addrRetry => Sys2Proof.Machine.execAddrRetry s
  | .addrMasterTimeout => Sys2Proof.Machine.execAddrMasterTimeout s
  | .lsaReceive port payload => Sys2Proof.Machine.execLsaReceive port payload s
  | .lsaPeriodic => Sys2Proof.Machine.execLsaPeriodic s
  | .cableMapWrite data => Sys2Proof.Machine.execCableMapWrite data s
  | .routeTableWrite data => Sys2Proof.Machine.execRouteTableWrite data s
  | .policerWrite data => Sys2Proof.Machine.execPolicerWrite data s
  | .shaperWrite data => Sys2Proof.Machine.execShaperWrite data s
  | .offsetExchange peer => Sys2Proof.Machine.execOffsetExchange peer s
  | .offsetReqReceive src payload => Sys2Proof.Machine.execOffsetReqReceive src payload s
  | .offsetRespReceive src payload => Sys2Proof.Machine.execOffsetRespReceive src payload s
  | .fanoutPortAck delivery index ok => Sys2Proof.Machine.execFanoutPortAck delivery index ok s
  | .roceAckReceive conn path psn => Sys2Proof.Machine.execRoceAckReceive conn path psn s
  | .roceNakReceive conn path psn syndrome => Sys2Proof.Machine.execRoceNakReceive conn path psn syndrome s
  | .roceAckTimeout conn path => Sys2Proof.Machine.execRoceAckTimeout conn path s
  | .pathHoldTimeout conn path => Sys2Proof.Machine.execPathHoldTimeout conn path s
  | .connRearm conn path => Sys2Proof.Machine.execConnRearm conn path s
  | .connTableWrite data => Sys2Proof.Machine.execConnTableWrite data s
  | .grantsWrite data => Sys2Proof.Machine.execGrantsWrite data s
  | .reuseHoldExpire held => Sys2Proof.Machine.execReuseHoldExpire held s
  | .ethFrameReceive port occupied frame => Sys2Proof.Machine.execEthFrameReceive port occupied frame s
  | .pfcReceive port mask quanta => Sys2Proof.Machine.execPfcReceive port mask quanta s
  | .pfcPauseExpire port => Sys2Proof.Machine.execPfcPauseExpire port s
  | .pfcXoffRepeat port occupied => Sys2Proof.Machine.execPfcXoffRepeat port occupied s
  | .pfcStorm port => Sys2Proof.Machine.execPfcStorm port s
  | .inboundWrite conn path psn opcode key addr dlen data => Sys2Proof.Machine.execInboundWrite conn path psn opcode key addr dlen data s
  | .srWriteReceive src payload => Sys2Proof.Machine.execSrWriteReceive src payload s
  | .srSackReceive src payload => Sys2Proof.Machine.execSrSackReceive src payload s
  | .srAckTimeout conn => Sys2Proof.Machine.execSrAckTimeout conn s
  | .srSackTimer conn => Sys2Proof.Machine.execSrSackTimer conn s
  | .heartbeatSend => Sys2Proof.Machine.execHeartbeatSend s
  | .heartbeatMiss role => Sys2Proof.Machine.execHeartbeatMiss role s
  | .selfFence => Sys2Proof.Machine.execSelfFence s
  | .recoveryResend => Sys2Proof.Machine.execRecoveryResend s
  | .faultReceive src payload => Sys2Proof.Machine.execFaultReceive src payload s
  | .roleReqReceive src payload => Sys2Proof.Machine.execRoleReqReceive src payload s
  | .roleAckReceive src payload => Sys2Proof.Machine.execRoleAckReceive src payload s
  | .rollbackReceive src payload => Sys2Proof.Machine.execRollbackReceive src payload s
  | .sealMarkReceive src payload => Sys2Proof.Machine.execSealMarkReceive src payload s
  | .rollbackRestart => Sys2Proof.Machine.execRollbackRestart s
  | .sealIntentReceive src payload => Sys2Proof.Machine.execSealIntentReceive src payload s
  | .intentAckReceive src payload => Sys2Proof.Machine.execIntentAckReceive src payload s
  | .mirrorReceive src payload => Sys2Proof.Machine.execMirrorReceive src payload s
  | .rebuildDone => Sys2Proof.Machine.execRebuildDone s
  | .stragglerDetect role => Sys2Proof.Machine.execStragglerDetect role s
  | .swapBoundary => Sys2Proof.Machine.execSwapBoundary s
  | .roleCmd value => Sys2Proof.Machine.execRoleCmd value s
  | .recoverySlackEval => Sys2Proof.Machine.execRecoverySlackEval s
  | .slotDoneHoldRelease index => Sys2Proof.Machine.execSlotDoneHoldRelease index s
  | .canaryTick tile bad answered => Sys2Proof.Machine.execCanaryTick tile bad answered s
  | .hubCanary hub unit pass => Sys2Proof.Machine.execHubCanary hub unit pass s
  | .safetyReaction mode unitKind unit rank detail senders => Sys2Proof.Machine.execSafetyReaction mode unitKind unit rank detail senders s
  | .commitWatchdog step rank => Sys2Proof.Machine.execCommitWatchdog step rank s
  | .sealHoldRelease => Sys2Proof.Machine.execSealHoldRelease s
  | .hub0WatchdogExpire => Sys2Proof.Machine.execHub0WatchdogExpire s
  | .sealGateTimeout hub => Sys2Proof.Machine.execSealGateTimeout hub s
  | .safetyHeartbeat => Sys2Proof.Machine.execSafetyHeartbeat s
  | .safeTest value => Sys2Proof.Machine.execSafeTest value s
  | .sleepCmd value => Sys2Proof.Machine.execSleepCmd value s
  | .sleepStageDone durable => Sys2Proof.Machine.execSleepStageDone durable s
  | .wakeN lowUs => Sys2Proof.Machine.execWakeN lowUs s
  | .wakeDatagram udpPort payload => Sys2Proof.Machine.execWakeDatagram udpPort payload s
  | .quadOp quad value => Sys2Proof.Machine.execQuadOp quad value s
  | .pllRelockDone quad => Sys2Proof.Machine.execPllRelockDone quad s
  | .avsAck rail mv => Sys2Proof.Machine.execAvsAck rail mv s
  | .avsAckTimeout rail => Sys2Proof.Machine.execAvsAckTimeout rail s
  | .tempWarn temp => Sys2Proof.Machine.execTempWarn temp s
  | .tempTrip temp => Sys2Proof.Machine.execTempTrip temp s
  | .ageingSample values => Sys2Proof.Machine.execAgeingSample values s
  | .replan measured => Sys2Proof.Machine.execReplan measured s
  | .replanNow value => Sys2Proof.Machine.execReplanNow value s
  | .fwBlock sid data => Sys2Proof.Machine.execFwBlock sid data s
  | .fwVerifyDone => Sys2Proof.Machine.execFwVerifyDone s
  | .fwActivate value => Sys2Proof.Machine.execFwActivate value s
  | .loaderRun => Sys2Proof.Machine.execLoaderRun s
  | .firstStart checksOk => Sys2Proof.Machine.execFirstStart checksOk s
  | .fwConfirm value => Sys2Proof.Machine.execFwConfirm value s
  | .intSourceEdge id => Sys2Proof.Machine.execIntSourceEdge id s
  | .intClaim target => Sys2Proof.Machine.execIntClaim target s
  | .intComplete agent target id => Sys2Proof.Machine.execIntComplete agent target id s
  | .intSwi agent target mask => Sys2Proof.Machine.execIntSwi agent target mask s
  | .intTimer target => Sys2Proof.Machine.execIntTimer target s
  | .intTargetWrite agent id target => Sys2Proof.Machine.execIntTargetWrite agent id target s
  | .addrerrRead agent hub => Sys2Proof.Machine.execAddrerrRead agent hub s
  | .countEnable value => Sys2Proof.Machine.execCountEnable value s
  | .countSnapshot => Sys2Proof.Machine.execCountSnapshot s
  | .wfgNow value => Sys2Proof.Machine.execWfgNow value s
  | .hangDetect tile => Sys2Proof.Machine.execHangDetect tile s
  | .wfgSecondPass => Sys2Proof.Machine.execWfgSecondPass s
  | .globalStop => Sys2Proof.Machine.execGlobalStop s
  | .stopNFall => Sys2Proof.Machine.execStopNFall s
  | .globalRelease => Sys2Proof.Machine.execGlobalRelease s
  | .stopNRise => Sys2Proof.Machine.execStopNRise s
  | .scanOutRead => Sys2Proof.Machine.execScanOutRead s
  | .memOutRead => Sys2Proof.Machine.execMemOutRead s
  | .tmuxSel output value sid => Sys2Proof.Machine.execTmuxSel output value sid s
  | .jtagExtest pattern => Sys2Proof.Machine.execJtagExtest pattern s
  | .jtagSamplePreload pattern => Sys2Proof.Machine.execJtagSamplePreload pattern s
  | .jtagIdcode => Sys2Proof.Machine.execJtagIdcode s
  | .jtagClamp => Sys2Proof.Machine.execJtagClamp s
  | .jtagHighz => Sys2Proof.Machine.execJtagHighz s
  | .jtagStop => Sys2Proof.Machine.execJtagStop s
  | .jtagRelease => Sys2Proof.Machine.execJtagRelease s
  | .jtagScan chain => Sys2Proof.Machine.execJtagScan chain s
  | .jtagMemrd addr len => Sys2Proof.Machine.execJtagMemrd addr len s
  | .jtagUnlock proof => Sys2Proof.Machine.execJtagUnlock proof s
  | .jtagStatus => Sys2Proof.Machine.execJtagStatus s
  | .jtagBypass opcode data => Sys2Proof.Machine.execJtagBypass opcode data s
  | .testLogicReset => Sys2Proof.Machine.execTestLogicReset s
  | .resetN low => Sys2Proof.Machine.execResetN low s
  | .powerUpStep => Sys2Proof.Machine.execPowerUpStep s
  | .pgTimeout => Sys2Proof.Machine.execPgTimeout s
  | .seqRetry => Sys2Proof.Machine.execSeqRetry s
  | .powerDownStep => Sys2Proof.Machine.execPowerDownStep s
  | .pgFallActive group => Sys2Proof.Machine.execPgFallActive group s
  | .powerOnReset => Sys2Proof.Machine.execPowerOnReset s
  | .cancelAckTimeout => Sys2Proof.Machine.execCancelAckTimeout s
  | .blockEraseDone sb => Sys2Proof.Machine.execBlockEraseDone sb s
  | .pcieLinkChange up rate width => Sys2Proof.Machine.execPcieLinkChange up rate width s
  | .synthLockLost port => Sys2Proof.Machine.execSynthLockLost port s
  | .partnerLaneControl port op lane => Sys2Proof.Machine.execPartnerLaneControl port op lane s

end Machine
end Sys2Proof
end

