-- ==== Sys2Proof/Machine/Tick.lean ====
section
/-!
DEFINITION. Sys2Proof/Machine/Tick.lean: what passes with a hub clock whatever is commanded (assumption log 4).
-/
namespace Sys2Proof
namespace Machine

/-- The timestamp: a hub clock is five eighths of a nanosecond (R34). It goes on during a global stop (R613). -/
def Clock.tick (c : Clock) : Clock :=
  { c with now := (c.now + (c.eighths + 5) / 8) % 2 ^ 64, eighths := (c.eighths + 5) % 8 }

/-- The cycle counter of a running tile in a hub clock: 6, 5, 4 or 3 quarters of a hub clock at points 0 to 3; none while
the quadrant's tiles are gated for a relock (R34, R179, R569, R570). -/
def Tile.tick (point : Nat) (gated : Bool) (x : Tile) : Tile :=
  if x.st = .running && !gated then
    { x with cycle := (x.cycle + (x.quarters + (6 - point)) / 4) % 2 ^ 64, quarters := (x.quarters + (6 - point)) % 4 }
  else x

/-- One hub clock: the timestamp; unless a stop has frozen them or only AON is powered, the hub clock count, the tiles' cycle counters,
the DMA movers and Pavane's phase (R99, R116, R179, R348, R613). -/
def tick (m : M8) : M8 :=
  let m := { m with clk := m.clk.tick }
  if m.dbg.stop || m.pwr.off then m
  else pavTick <| dmaTick { m with clk := { m.clk with hclk := m.clk.hclk + 1 }, tiles := m.tiles.map fun p =>
    (p.1, p.2.tick (m.pwr.point.get 0 (p.1 / 16)) (m.pwr.relock.get false (p.1 / 16))) }

end Machine
end Sys2Proof
end

