-- ==== Sys2Proof/Safety.lean ====
section
/-!
DEFINITION. Sys2Proof/Safety.lean: the terms the statements are made in: a well-kept state, a command that completes,
and what a command leaves as it was.
-/
namespace Sys2Proof

/-- The commands of the always-on part, which a global stop does not freeze (R561, R613): JTAG, the stop itself, the safety
controller, the power sequencer, wake and reset; and the dictionary messages, of which a stop answers those of R617
alone. -/
def Instr.alwaysOn : Instr → Bool
  | .safetyReaction .. | .hub0WatchdogExpire | .sealGateTimeout _ | .safetyHeartbeat => true
  | .sleepStageDone _ | .wakeN _ | .wakeDatagram .. | .avsAck .. | .avsAckTimeout _ => true
  | .globalStop | .stopNFall | .globalRelease | .stopNRise | .scanOutRead | .memOutRead => true
  | .jtagExtest _ | .jtagSamplePreload _ | .jtagIdcode | .jtagClamp | .jtagHighz | .jtagStop | .jtagRelease => true
  | .jtagScan _ | .jtagMemrd .. | .jtagUnlock _ | .jtagStatus | .jtagBypass .. | .testLogicReset => true
  | .resetN _ | .powerUpStep | .pgTimeout | .seqRetry | .powerDownStep | .powerOnReset => true
  | .dictRead _ | .dictWrite .. | .readNext _ | .writeNext _ | .describe _ | .hello _ | .proof _ | .close _ => true
  | .keySlotWrite _ | .restoreDefaults _ => true
  | _ => false

namespace Machine

/-- The canonical form of memory: addresses strictly rising, no byte equal to what an unlisted address reads as (0, R53). -/
def Memory.wf (mem : List Host.Cell) : Bool := Sparse.wf (0 : Byte) mem

/-- Is the memory of the state in canonical form? -/
def M8.memWf (m : M8) : Bool := Memory.wf m.mem

/-- The invariant every step keeps. -/
def State.Inv (s : State) : Prop := s.m.memWf = true

/-- No global stop is in force and more than AON is powered (R561, R613). -/
abbrev State.awake (s : State) : Prop := s.m.dbg.stop = false ∧ s.m.pwr.off = false

/-- The command answers a next state, whose queue is that of s and of whose machine P holds. -/
def Ends (c : Instr) (s : State) (P : M8 → Prop) : Prop :=
  ∃ m : M8, exec c s = .next { s with m := m } ∧ P m

/-- Dictionary entries but those of ks read as before, and nothing else of the dictionary engine has changed. -/
structure EntriesBut (ks : List Nat) (a b : M8) : Prop where
  engine : b.dict = { a.dict with live := b.dict.live }
  others : ∀ k, k ∉ ks → odGet b k = odGet a k

/-- The entries of the operation counters of R602. -/
def counterEntries : List Nat := (List.range 38).map counterKey

/-- The operation counters of a unit may have counted; nothing else of the debug features or the dictionary has changed. -/
structure CountsOnly (a b : M8) : Prop where
  debug : b.dbg = { a.dbg with counters := b.dbg.counters }
  entries : EntriesBut counterEntries a b

/-- An instruction of thread th of tile t may issue (R181): the tile runs with no action in progress, the thread is ready. -/
abbrev Issues (s : State) (t th : Nat) : Prop := s.awake ∧ canIssue s.m t th = true

/-- Only thread th of tile t has changed, and of its registers sd alone; the tile's round-robin pointer follows. -/
structure OneThread (t th sd : Nat) (a b : M8) : Prop where
  otherTiles : ∀ t', t' ≠ t → getTile b t' = getTile a t'
  tile : getTile b t = { getTile a t with threads := (getTile b t).threads, lastIssue := th }
  otherThreads : ∀ th', th' ≠ th → getThread b t th' = getThread a t th'
  thread : ∃ regs pc vary tstate wait, getThread b t th = { getThread a t th with
    regs := regs, pc := pc, vary := vary, tstate := tstate, wait := wait }
  registers : ∀ r, r ≠ sd → (getThread b t th).reg r = (getThread a t th).reg r

/-- The instruction completes (R181, R187, R208): the PC moves on to pc, the thread is ready, an ND mark sets VARY, SD holds
v (S0 reads 0, R180), and nothing else of the machine changes but the operation counters. -/
structure Writes (t th : Nat) (f : RFields) (sd : Nat) (v : Word64) (pc : Nat) (a b : M8) : Prop where
  result : (getThread b t th).reg sd = if sd = 0 then 0 else v
  pc : (getThread b t th).pc = pc
  ready : (getThread b t th).tstate = .ready ∧ (getThread b t th).wait = .none
  vary : (getThread b t th).vary = (f.nd || (getThread a t th).vary)
  one : OneThread t th sd a b
  counts : CountsOnly a b
  rest : b = { a with tiles := b.tiles, dbg := b.dbg, dict := b.dict }

/-- Only thread th of tile t has changed, to y; the operation counters may have counted. -/
structure ThreadIs (t th : Nat) (y : Thread) (a b : M8) : Prop where
  thread : getThread b t th = y
  otherTiles : ∀ t', t' ≠ t → getTile b t' = getTile a t'
  tile : getTile b t = { getTile a t with threads := (getTile b t).threads }
  otherThreads : ∀ th', th' ≠ th → getThread b t th' = getThread a t th'
  counts : CountsOnly a b
  rest : b = { a with tiles := b.tiles, dbg := b.dbg, dict := b.dict }

/-- A thread after object r has come to hold o: released when it waits on r and o satisfies its condition (R189, R190). -/
def afterRelease (o : SyncObj) (r : Nat) (y : Thread) : Thread :=
  match y.wait with
  | .obj r' gen => if r' = r && releases o gen then y.advance else y
  | _ => y

/-- Object r holds o and nothing else of the sync objects has changed. -/
structure ObjectIs (r : Nat) (o : SyncObj) (a b : M8) : Prop where
  object : getSync b r = o
  others : ∀ r', r' ≠ r → getSync b r' = getSync a r'

/-- Every thread, but the one that has issued, that waits on object r is released if o satisfies its condition; every other
thread stands (R190). -/
structure Released (own : Nat × Nat) (r : Nat) (o : SyncObj) (a b : M8) : Prop where
  threads : ∀ t th, (t, th) ≠ own → th < 8 → getThread b t th = afterRelease o r (getThread a t th)
  tiles : ∀ t, t ≠ own.1 → getTile b t = { getTile a t with threads := (getTile b t).threads }

/-- A sync operation of thread th of tile t on object r that leaves o in it and v in SD completes: the thread goes on, who
waits on the object is released, and nothing else changes but the operation counters and the hang detector's times. -/
structure SyncDone (t th : Nat) (f : RFields) (sd : Nat) (v : Word64) (r : Nat) (o : SyncObj) (a b : M8) : Prop where
  object : ObjectIs r o a b
  result : (getThread b t th).reg sd = if sd = 0 then 0 else v
  registers : ∀ q, q ≠ sd → (getThread b t th).reg q = (getThread a t th).reg q
  pc : (getThread b t th).pc = (getThread a t th).pc + 8
  ready : (getThread b t th).tstate = .ready ∧ (getThread b t th).wait = .none
  vary : (getThread b t th).vary = (f.nd || (getThread a t th).vary)
  waiters : Released (t, th) r o a b
  debug : b.dbg = { a.dbg with counters := b.dbg.counters, lastProgress := b.dbg.lastProgress }
  entries : EntriesBut counterEntries a b
  rest : b = { a with tiles := b.tiles, sync := b.sync, dbg := b.dbg, dict := b.dict }

/-- A program-class trap of thread th of tile t (R210 to R212, R215): the tile enters state 4, the thread is trapped with its
registers as they stand, REEL_TRAP and REEL_TRAP_ARG record it unless a trap stands there, TRAPS counts, and no other tile,
no byte of memory and no sync object changes. -/
structure Traps (t th cause pc arg : Nat) (a b : M8) : Prop where
  state : (getTile b t).st = .trapped
  thread : getThread b t th = { getThread a t th with tstate := .trapped }
  otherThreads : ∀ th', th' ≠ th → getThread b t th' = getThread a t th'
  recorded : (getTile a t).trapValid = false → (getTile b t).trapValid = true ∧ (getTile b t).trapHw = false ∧
    (getTile b t).trapThread = th ∧ (getTile b t).trapCause = cause ∧ (getTile b t).trapPc = pc ∧
    (getTile b t).trapArg = arg % 2 ^ 48
  kept : (getTile a t).trapValid = true → (getTile b t).trapWord = (getTile a t).trapWord ∧
    (getTile b t).trapArg = (getTile a t).trapArg
  otherTiles : ∀ t', t' ≠ t → getTile b t' = getTile a t'
  counted : odNat b Od.TRAPS = (odNat a Od.TRAPS + 1) % 2 ^ 32
  mem : b.mem = a.mem
  sync : b.sync = a.sync

/-- An address-error event against an agent (R41, R601): the first since ADDRERR was read is held, a further one sets MORE, the
hub's level source is high, and nothing else changes but that source and who it wakes. -/
structure AddressErrs (agent addr : Nat) (a b : M8) : Prop where
  held : b.intc.addrErr.get {} (agentHub agent) =
    (let e := a.intc.addrErr.get {} (agentHub agent)
     if e.valid then { e with more := true } else { valid := true, agent := agent, more := false, addr := addr })
  otherHubs : ∀ h, h ≠ agentHub agent → b.intc.addrErr.get {} h = a.intc.addrErr.get {} h
  line : (getSrc b (0x14A + agentHub agent)).line = true
  otherSources : ∀ i, i ≠ 0x14A + agentHub agent → getSrc b i = getSrc a i
  entries : EntriesBut [Od.INT_OVERRUNS] a b
  rest : b = { a with intc := b.intc, dict := b.dict }

/-- A PAV_EVENT bit is set in a Pavane that is otherwise p, its counter counts, its shared source is high (R104, R593). -/
structure PavSets (bit key : Nat) (p : Pavane) (a b : M8) : Prop where
  pavane : b.pav = { p with event := p.event ||| 2 ^ bit }
  counter : key ≠ 0 → odNat b key = (odNat a key + 1) % 2 ^ 32
  line : (getSrc b 0x148).line = true
  entries : EntriesBut [key, Od.INT_OVERRUNS] a b
  debug : b.dbg = { a.dbg with rings := b.dbg.rings }
  rest : b = { a with pav := b.pav, intc := b.intc, dict := b.dict, dbg := b.dbg }

/-! ### The dictionary -/

/-- The state after request q of session x is accepted (R83): its SEQ is the session's, which has been active. -/
def accepted (a : M8) (x : Session) (q : DictMsg) : M8 := setSession a { x with seq := q.seq, active := a.clk.now, reply := [] }

/-- Request q with operation op is one the engine serves (R78, R83, R98): a path of sessions, no stop, the form of R74, an open
session x of that path, its tag, the SEQ that follows; the device does not enter sleep (R96). -/
abbrev Serves (s : State) (op : Nat) (q : DictMsg) (x : Session) : Prop :=
  s.awake ∧ odNat s.m Od.POWER_STATE ≠ 1 ∧ 2 ≤ q.path ∧ formOk q = true ∧ findSession s.m q.path q.session = some x ∧
  dictTag (some x.key) (dictHeader op q.flags q.seq q.session q.index q.sub q.rsv q.data.length ++ q.data) = q.tag ∧
  q.seq = nextSeq x.seq

/-- Bytes have been sent on a path (R79 to R82): a dictionary frame to addr, the mailbox's response buffer and status, a datagram
of the management port; nothing else has changed. -/
structure Sent (path addr : Nat) (bytes : Bytes) (a b : M8) : Prop where
  fabric : b.fab = if path = 2 then { a.fab with units := a.fab.units ++ [{ dst := addr, cls := 3, flow := 0, payload := bytes }] }
    else a.fab
  mailbox : b.mbx = if path = 3 then { a.mbx with rspLen := bytes.length, done := true, busy := false } else a.mbx
  outside : b.out = if path = 4 then .datagram (odInForce a Od.MGMT_UDP_PORT) bytes :: a.out
    else if path = 3 ∧ a.mbx.irqEn = true then .msix 127 :: a.out else a.out
  buffer : path = 3 → bytes.length ≤ 2048 → readMem b 0x030001009000 bytes.length = some bytes
  memory : ∀ k, path ≠ 3 ∨ k < 0x030001009000 ∨ 0x030001009000 + bytes.length ≤ k → memByte b k = memByte a k
  rest : b = { a with fab := b.fab, mbx := b.mbx, out := b.out, mem := b.mem }

/-- Request q of session x, accepted in a, is answered r in b (R76, R83): the reply is sent on its path and kept by the session,
no other session has changed. -/
structure Replied (op : Nat) (q : DictMsg) (x : Session) (r : DictRes) (a b : M8) : Prop where
  session : findSession b q.path q.session =
    some { x with seq := q.seq, active := a.clk.now, reply := dictReply op q (some x.key) r }
  others : ∀ path sid, sid ≠ q.session → findSession b path sid = findSession a path sid
  dict : b.dict = { a.dict with sessions := b.dict.sessions }
  sent : Sent q.path q.addr (dictReply op q (some x.key) r) { a with dict := b.dict } b

/-! ### Tiles -/

/-- Tile t is x now, its interrupt line as x asks (R593); no other tile has changed, and nothing else but the event rings and who
the line wakes. -/
structure TileEnters (t : Nat) (x : Tile) (a b : M8) : Prop where
  tile : getTile b t = x
  others : ∀ t', t' ≠ t → getTile b t' = getTile a t'
  line : t < 64 → (getSrc b t).line = tileLine x
  sources : ∀ i, i ≠ t → getSrc b i = getSrc a i
  entries : EntriesBut [Od.INT_OVERRUNS] a b
  debug : b.dbg = { a.dbg with rings := b.dbg.rings }
  rest : b = { a with tiles := b.tiles, intc := b.intc, dict := b.dict, dbg := b.dbg }

/-- The command that writes an action to REEL_CTL. -/
def actCommand (agent t : Nat) : ReelAct → Instr
  | .start => .reelStart agent t
  | .halt => .reelHalt agent t
  | .unload => .reelUnload agent t
  | .tileReset => .tileReset agent t
  | .quarantine => .reelQuarantine agent t

/-- The n bytes at p are written: they read as the low n bytes of v, every address that names another cell reads as before. -/
structure Stored (p n v : Nat) (a b : M8) : Prop where
  bytes : readMem b p n = some (natLe n v)
  memory : ∀ k, (∀ i < n, memKey (p + i) ≠ memKey k) → memByte b k = memByte a k

/-! ### Rings and jobs -/

/-- Ring k is x now; no other ring has changed, and nothing else but the counts of open and frozen rings (R440). -/
structure RingIs (k : Nat) (x : Ring) (a b : M8) : Prop where
  ring : getRing b k = x
  others : ∀ k', k' ≠ k → getRing b k' = getRing a k'
  entries : EntriesBut [Od.RINGS_OPEN, Od.RINGS_FROZEN] a b
  rest : b = { a with rings := { a.rings with rings := b.rings.rings }, dict := b.dict }

/-- Command seq of ring k is c: it has started, its work is not done, its opcode is opc (R428). -/
abbrev Works (s : State) (k seq opc : Nat) (c : RingCmd) : Prop :=
  s.awake ∧ findCmd (getRing s.m k) seq = some c ∧ c.started = true ∧ c.worked = false ∧ c.opc = opc

/-- A job command takes effect on d: written without a ring, or for the ring command it serves, which has done its work then
(R428). -/
abbrev Takes (s : State) (cmd : Option (Nat × Nat)) (opc : Nat) (isAudit : Bool) (d : M8) : Prop :=
  s.awake ∧ ((cmd = none ∧ d = s.m) ∨ ∃ k seq c, cmd = some (k, seq) ∧ Works s k seq opc c ∧ (opc = 0x20 → c.audit = isAudit) ∧
    d = setCmd s.m k { c with worked := true })

/-! ### Requests and samples -/

/-- An instruction of thread th of tile t that leaves the tile's requests q and its unacknowledged placements out completes: the
thread goes on with its registers as they were, and nothing else changes but the operation counters (R195, R196). -/
structure Requested (t th : Nat) (f : RFields) (q : List Request) (out : List Nat) (a b : M8) : Prop where
  tile : getTile b t = { getTile a t with
    threads := (getTile b t).threads, lastIssue := th, reqQ := q, nextReq := (getTile a t).nextReq + 1, placesOut := out }
  thread : getThread b t th = { getThread a t th with
    pc := (getThread a t th).pc + 8, tstate := .ready, wait := .none, vary := f.nd || (getThread a t th).vary }
  otherThreads : ∀ th', th' ≠ th → getThread b t th' = getThread a t th'
  otherTiles : ∀ t', t' ≠ t → getTile b t' = getTile a t'
  counts : CountsOnly a b
  rest : b = { a with tiles := b.tiles, dbg := b.dbg, dict := b.dict }

/-- Tile t is x now; no other tile has changed, and nothing else but the operation counters. -/
structure TileIs (t : Nat) (x : Tile) (a b : M8) : Prop where
  tile : getTile b t = x
  others : ∀ t', t' ≠ t → getTile b t' = getTile a t'
  counts : CountsOnly a b
  rest : b = { a with tiles := b.tiles, dbg := b.dbg, dict := b.dict }

/-- Entry key counts one more in its width; nothing else has changed. -/
structure CountsUp (key width : Nat) (a b : M8) : Prop where
  counted : odNat b key = (odNat a key + 1) % 2 ^ width
  entries : EntriesBut [key] a b
  rest : b = { a with dict := b.dict }

/-- What is held of rank r is x now; the other ranks stand (R161, R162, R178). -/
structure RankIs (r : Nat) (x : RankState) (a b : M8) : Prop where
  rank : getRank b r = x
  others : ∀ r', r' ≠ r → getRank b r' = getRank a r'
  rest : b.job = { a.job with ranks := b.job.ranks }

/-- What is held of step n of rank r is x now; the other steps and ranks stand (R166). -/
structure AsmIs (n r : Nat) (x : Assembly) (a b : M8) : Prop where
  held : getAsm b n r = x
  others : ∀ n' r', (n', r') ≠ (n, r) → getAsm b n' r' = getAsm a n' r'

/-- A slot may be written: it has not been, the job runs or drains, its buffer is released, its window has time left, and no
older moved work waits (R130, R160, R161). -/
abbrev SlotMayGo (s : State) (p : PackedSlot) : Prop :=
  p.issued = false ∧ sealedTo s.m p.step p.rank = false ∧ mayWrite s.m = true ∧ bufFree s.m p.rank p.step = true ∧
    olderMoved s.m p = false ∧ deliveryOpen s.m p = true

/-- A remote write of data to addr under key is handed to connection conn (R503). -/
abbrev Handed (conn key addr : Nat) (data : Bytes) (tag : WriteTag) (a b : M8) : Prop :=
  ∃ q ∈ b.rem.msgs, q.id = a.rem.nextMsg ∧ q.conn = conn ∧ q.key = key ∧ q.addr = addr ∧ q.data = data ∧ q.tag = tag

/-! ### Hubs -/

/-- The codec engine of a hub is x now; the other hubs' engines stand (R317 to R319). -/
structure CodecIs (hub : Nat) (x : CodecHub) (a b : M8) : Prop where
  engine : getCodec b hub = x
  others : ∀ h, h ≠ hub → getCodec b h = getCodec a h

/-- A pool of a hub is x now; the other pools stand (R328). -/
structure PoolIs (hub pool : Nat) (x : Pool) (a b : M8) : Prop where
  held : getPool b hub pool = x
  others : ∀ h p, 2 * h + p ≠ 2 * hub + pool → getPool b h p = getPool a h p

/-- Channel c of a hub's DMA engine is x now; the other channels stand, and nothing else has changed (R350). -/
structure DmaIs (hub c : Nat) (x : DmaCh) (a b : M8) : Prop where
  channel : getDma b hub c = x
  others : ∀ h d, 64 * h + d ≠ 64 * hub + c → getDma b h d = getDma a h d
  rest : b = { a with hubs := { a.hubs with dma := b.hubs.dma } }

/-- The channel's completion record is written and its interrupt is pending (R360, R593); the other channels stand. -/
structure DmaRecorded (hub c : Nat) (a b : M8) : Prop where
  flag : (getDma b hub c).doneBit = true
  others : ∀ h d, 64 * h + d ≠ 64 * hub + c → getDma b h d = getDma a h d
  memory : (getDma a hub c).sts = 0 → b.mem = a.mem
  rest : b = { a with hubs := { a.hubs with dma := b.hubs.dma }, mem := b.mem, dict := b.dict, intc := b.intc }

/-! ### Promenade -/

/-- The link of port p is x now; the other links and the rest of the fabric stand (R463). -/
structure LinkIs (p : Nat) (x : Link) (a b : M8) : Prop where
  link : getLink b p = x
  others : ∀ p', p' ≠ p → getLink b p' = getLink a p'
  rest : b.fab = { a.fab with links := b.fab.links }

/-- What a neighbour on a port is sent next (R467, R468). -/
def toNeighbour (p : Nat) (payload : Bytes) : UnitFrame := { dst := 0xFFFE, cls := 1, payload := payload, port := some p }

/-! ### Optical ports, lanes and lasers -/

/-- Port p is x now; the other ports stand (R444). -/
structure PortIs (p : Nat) (x : Port) (a b : M8) : Prop where
  port : getPort b p = x
  others : ∀ p', p' ≠ p → getPort b p' = getPort a p'

/-- Port p is x now; no other port has changed its state (R444). -/
structure PortMoves (p : Nat) (x : Port) (a b : M8) : Prop where
  port : getPort b p = x
  others : ∀ p', p' ≠ p → (getPort b p').st = (getPort a p').st

/-- Laser channel c is x now; the other channels and the rest of the optics stand (R455). -/
structure LaserIs (c : Nat) (x : Laser) (a b : M8) : Prop where
  channel : getLaser b c = x
  others : ∀ c', c' ≠ c → getLaser b c' = getLaser a c'
  rest : b.opt = { a.opt with lasers := b.opt.lasers }

/-- The engine's record is x now; the other engines stand (R453). -/
structure EngineIs (k : Nat) (x : Engine) (a b : M8) : Prop where
  engine : getEngine b k = x
  others : ∀ k', k' ≠ k → getEngine b k' = getEngine a k'

/-- What ON = 1 makes of a channel that may be lit (R455, R456). -/
def litLaser (m : M8) (c : Nat) : Laser :=
  let x := getLaser m c
  if x.short || x.railFail || x.on then x else { x.withOn true with ramp := 1, paused := railDown m c }

/-- What ON = 0 makes of a channel (R455). -/
def dimLaser (m : M8) (c : Nat) : Laser :=
  let x := getLaser m c
  if x.on then { x.withOn false with ramp := 2, paused := railDown m c, atSet := false } else x

/-- Lane `lane` of engine k is retired or faulted in the order of R450: without a port it is marked; an Ethernet-mode port
has no spare; an Acsal port takes its free spare, by a swap where it is up, or goes on without the lane. -/
def Retires (k lane st : Nat) (a b : M8) : Prop :=
  match lanePort a k lane with
  | none => (getLane b (18 * k + lane)).lstate = st
  | some p =>
    if (getPort a p).acsal = false then (getLane b (18 * k + lane)).lstate = st
    else match freeSpare a p, (getEngine a k).cmd with
      | some sp, none =>
        if (getPort a p).st = .up then
          (getEngine b k).cmd = some { op := 1, port := p, lane := lane, target := sp, phase := 1, since := a.clk.now }
        else (getLane b (18 * k + lane)).lstate = st ∧ (getLane b (18 * k + sp)).lstate = 1 ∧
          portMap b p = (portMap a p).map fun l => if l = lane then sp else l
      | _, _ => (getLane b (18 * k + lane)).lstate = st ∧ portMap b p = (portMap a p).map fun l => if l = lane then 0x1F else l

/-! ### Groups and recovery -/

/-- A recovery message of a type passes the receiver's checks (R518). -/
def heard (m : M8) (b : Bytes) (type : Nat) : Prop :=
  12 ≤ b.length ∧ leField b 0 1 = type ∧ leField b 4 4 = jobTag m ∧ serialNewer 32 m.grp.rbId (leField b 8 4) = false

/-- Among the frames waiting to be sent is one of class RECOVERY to dst whose payload has these fields: offset, bytes and
value of each (R518). -/
def Recovering (dst : Nat) (fields : List (Nat × Nat × Nat)) (m : M8) : Prop :=
  ∃ u ∈ m.fab.units, u.dst = dst ∧ u.cls = 4 ∧ ∀ f ∈ fields, leField u.payload f.1 f.2.1 = f.2.2 % 2 ^ (8 * f.2.1)

/-- ROLE_REQ or ROLE_ACK, by its type, to a device (R518). -/
def RoleSent (type dst role reason result boundary : Nat) (m : M8) : Prop :=
  Recovering dst [(0, 1, type), (12, 2, role), (14, 1, reason), (15, 1, result), (16, 6, boundary)] m

/-- ROLLBACK, with RB_ID one above the last of a, to every device of the job (R521). -/
def RollbackSent (role group standin : Nat) (a m : M8) : Prop :=
  ∀ d ∈ jobDevices a, Recovering d [(0, 1, 5), (8, 4, a.grp.rbId + 1), (12, 2, role), (14, 1, group), (16, 2, standin)] m

/-! ### The safety controller -/

/-- The reaction to a detection of a mode other than 0x01 (R549, R551, R554, R557): the four seal gates are closed, SEAL_HOLD
is 1, held notices are gone, the detection counts and is the newest; a member with a job and a role has fenced itself; a tile
that is named is quarantined; FAULT_N is asserted where fault says so, and stays. -/
structure Reacts (mode unitKind unit : Nat) (fault : Bool) (a b : M8) : Prop where
  gates : ∀ h < 4, b.safe.gates.get false h = true
  hold : odNat b Od.SEAL_HOLD = 1
  held : b.safe.held = []
  counted : odNat b Od.DETECTIONS = (odNat a Od.DETECTIONS + 1) % 2 ^ 32
  newest : b.safe.lastMode = mode ∧ b.safe.detectTime = a.clk.now
  fenced : jobLoaded a = true → a.grp.own ≠ [] → b.grp.fenced = true
  tile : unitKind = 1 → (getTile b (unit % 256)).st = .quarantined
  faultN : b.safe.faultN = (a.safe.faultN || fault)
  pin : fault = true → odNat b Od.SAFETY_STATE = 3 ∧ Output.pin "FAULT_N" false ∈ b.out

end Machine
end Sys2Proof
end

