-- ==== Sys2Proof/Certificates/Slice0/Obligations.lean ====
section
/-!
DEFINITION. Sys2Proof/Certificates/Slice0/Obligations.lean: the statements for the provers. Each is about one command, or
several of one shape, in every state that meets its premises.
-/
open Sys2Proof Sys2Proof.Machine

/-- With a command c at the front of the queue, a step is exec of c on the state with the queue's rest; on an empty queue a step answers a next state with an empty queue in which a hub clock has passed: the timestamp, in eighths of a nanosecond, is 5 further modulo 2^67, and during a global stop or while AON alone is powered nothing else has changed. What a step does on an empty queue is the model's choice (log entry 4). -/
def Obligations.StepExecutesTheFrontCommand : Prop :=
  (∀ (c : Instr) (rest : List Instr) (s : State), step { s with pending := c :: rest } = exec c { s with pending := rest }) ∧
  (∀ (s : State), s.pending = [] → s.m.clk.eighths < 8 → s.m.clk.now < 2 ^ 64 → ∃ m : M8, step s = .next { s with m := m } ∧
    m.clk.now * 8 + m.clk.eighths = (s.m.clk.now * 8 + s.m.clk.eighths + 5) % 2 ^ 67 ∧
    (s.m.dbg.stop = true ∨ s.m.pwr.off = true → m = { s.m with clk := m.clk }))

/-- For every command and every state, if exec answers a next state then its queue is that of the state; so a step with a command at the front leaves exactly the queue's rest, first in, first out (the queue is the model's, log entry 6). -/
def Obligations.CommandsLeaveTheQueueAlone : Prop :=
  (∀ (c : Instr) (s u : State), exec c s = .next u → u.pending = s.pending) ∧
  (∀ (s u : State), step s = .next u → u.pending = s.pending.tail)

/-- From every state whose memory lists addresses in strictly rising order and no byte equal to what an unlisted address reads as (0, R53), every step that answers a next state answers one whose memory has that form again: equal memories are equal data after any run. -/
def Obligations.StepsKeepMemoryCanonical : Prop :=
  ∀ s u : State, State.Inv s → step s = .next u → State.Inv u

/-- After reset memory lists nothing in canonical form, so every byte of HBM, tile SRAM and hub SRAM reads 0 and every sync object is 0; no command waits; no job is loaded; every tile is in state 0; PRIV_PRIO of every target is 4 and THRESH 0; every command ring is disabled with SQ_LOG2 and CQ_LOG2 4; no stop is in force. -/
def Obligations.ResetStateIsCanonicalAndIdle : Prop :=
  State.Inv State.reset ∧ (∀ a k, memKey a = some k → memByte State.reset.m a = some 0) ∧ (∀ r, getSync State.reset.m r = {}) ∧
  State.reset.pending = [] ∧ jobState State.reset.m = 0 ∧ (∀ t, (getTile State.reset.m t).st = .empty) ∧
  (∀ g, (getTgt State.reset.m g).privPrio = 4 ∧ (getTgt State.reset.m g).thresh = 0) ∧
  (∀ i, (State.reset.m.rings.rings.get {} i).st = .disabled ∧ (State.reset.m.rings.rings.get {} i).sqLog = 4 ∧
    (State.reset.m.rings.rings.get {} i).cqLog = 4) ∧ State.reset.m.dbg.stop = false

/-- While a global stop is in force, or only AON is powered, every command but those of the always-on part and the dictionary messages answers the state it was given, unchanged: memory, registers, sync objects, units and queue. That a command taken during a stop is lost rather than kept is the model's choice (log entry 14). -/
def Obligations.StopFreezesAllButTheAlwaysOnPart : Prop :=
  ∀ (c : Instr) (s : State), c.alwaysOn = false → s.m.dbg.stop = true ∨ s.m.pwr.off = true → exec c s = .next s

/-- When a thread may issue, ADD, SUB, AND, OR, XOR, SHL, SHR, SAR, MUL, MULHU, SLTU, SLT, MINU, MAXU and LUI answer a next state in which SD holds the result R186 gives for S[SA] and op2 = S[SB] + sext(IMM) (LUI: IMM over the low half of S[SA]); a write to S0 is discarded and S0 reads 0; the PC is 8 further, an ND mark has set VARY, and no other register, thread, tile, byte of memory, sync object, entry or unit has changed but the operation counters. -/
def Obligations.AluInstructionsWriteTheirResult : Prop :=
  ∀ (s : State) (t th : Nat) (f : RFields), Issues s t th →
    let a := (getThread s.m t th).reg f.sa
    let b := (getThread s.m t th).reg f.sb + (BitVec.ofNat 32 f.imm).signExtend 64
    let n := b.toNat % 64
    let done := fun (c : Instr) (v : Word64) => Ends c s (Writes t th f f.sd v ((getThread s.m t th).pc + 8) s.m)
    done (.add t th f) (a + b) ∧ done (.sub t th f) (a - b) ∧ done (.and t th f) (a &&& b) ∧ done (.or t th f) (a ||| b) ∧
    done (.xor t th f) (a ^^^ b) ∧ done (.shl t th f) (a <<< n) ∧ done (.shr t th f) (a >>> n) ∧
    done (.sar t th f) (a.sshiftRight n) ∧ done (.mul t th f) (a * b) ∧
    done (.mulhu t th f) (BitVec.ofNat 64 (a.toNat * b.toNat / 2 ^ 64)) ∧
    done (.sltu t th f) (if a.toNat < b.toNat then 1 else 0) ∧ done (.slt t th f) (if a.toInt < b.toInt then 1 else 0) ∧
    done (.minu t th f) (if b.toNat < a.toNat then b else a) ∧ done (.maxu t th f) (if a.toNat < b.toNat then b else a) ∧
    done (.lui t th f) (BitVec.ofNat 64 (f.imm % 2 ^ 32 * 2 ^ 32 + a.toNat % 2 ^ 32))

/-- When a thread may issue and op2 is not 0, DIVU and REMU answer a next state in which SD holds the unsigned quotient and remainder of S[SA] by op2, with the frame of the other ALU instructions. Where op2 is 0 they trap with cause 0x05: the tile enters state 4, REEL_TRAP records cause, thread and PC unless a trap stands there, TRAPS counts, and every register, every other thread and tile, memory and the sync objects stand. -/
def Obligations.DivisionWritesQuotientOrTraps : Prop :=
  ∀ (s : State) (t th : Nat) (f : RFields), Issues s t th →
    let a := (getThread s.m t th).reg f.sa
    let b := (getThread s.m t th).reg f.sb + (BitVec.ofNat 32 f.imm).signExtend 64
    let done := fun (c : Instr) (v : Word64) => Ends c s (Writes t th f f.sd v ((getThread s.m t th).pc + 8) s.m)
    let traps := fun (c : Instr) => Ends c s (Traps t th 0x05 (getThread s.m t th).pc 0 s.m)
    (b ≠ 0 → done (.divu t th f) (BitVec.ofNat 64 (a.toNat / b.toNat)) ∧
      done (.remu t th f) (BitVec.ofNat 64 (a.toNat % b.toNat))) ∧
    (b = 0 → traps (.divu t th f) ∧ traps (.remu t th f))

/-- When a thread may issue, BEQ, BNE, BLT, BGE, BLTU and BGEU answer a next state in which the PC is PC + sext(IMM) * 8 (an offset into the 256 KiB instruction store) where the condition of R186 holds on S[SA] and S[SB], and 8 further where it does not, no register having changed; JAL writes PC + 8 to SD and jumps to PC + sext(IMM) * 8; JALR writes PC + 8 to SD and jumps to S[SA] + sext(IMM) * 8 where that is a multiple of 8 below the end of the list, and traps 0x02 with the target elsewhere; HALT puts the thread into state 5. The frame is that of the ALU instructions. When a thread may issue, NOP and the fences of cell, tile and package scope answer a next state in which the PC is 8 further and no register has changed; VCLR has cleared VARY unless its own ND mark has set it; RDTIME writes to SD the tile's cycle counter (FUNC 0), the timebase for a step-locked thread (FUNC 1), the tile number (FUNC 2) and the thread's channel (FUNC 3); a free-class thread's RDTIME FUNC 1 traps 0x0D. That a fence of these scopes finds nothing to wait for is the model's reading (log entry 16). -/
def Obligations.BranchesTimeReadsAndFences : Prop :=
  (∀ (s : State) (t th : Nat) (f : RFields), Issues s t th →
     let y := getThread s.m t th
     let a := y.reg f.sa
     let b := y.reg f.sb
     let off : Word64 := (BitVec.ofNat 32 f.imm).signExtend 64 * 8
     let target := (BitVec.ofNat 64 y.pc + off).toNat % 2 ^ 18
     let branches := fun (c : Instr) (p : Prop) =>
       (p → Ends c s (Writes t th f 0 0 target s.m)) ∧ (¬p → Ends c s (Writes t th f 0 0 (y.pc + 8) s.m))
     branches (.beq t th f) (a = b) ∧ branches (.bne t th f) (a ≠ b) ∧ branches (.blt t th f) (a.toInt < b.toInt) ∧
     branches (.bge t th f) (b.toInt ≤ a.toInt) ∧ branches (.bltu t th f) (a.toNat < b.toNat) ∧
     branches (.bgeu t th f) (b.toNat ≤ a.toNat) ∧
     Ends (.jal t th f) s (Writes t th f f.sd (BitVec.ofNat 64 (y.pc + 8)) target s.m) ∧
     (let dest := (a + off).toNat
      if dest % 8 = 0 ∧ dest < 8 * (getTile s.m t).ilen then
        Ends (.jalr t th f) s (Writes t th f f.sd (BitVec.ofNat 64 (y.pc + 8)) dest s.m)
      else Ends (.jalr t th f) s (Traps t th 0x02 y.pc dest s.m)) ∧
     Ends (.halt t th f) s fun m => (getThread m t th) = { y with tstate := .halted, wait := .none } ∧
       OneThread t th 0 s.m m ∧ m = { s.m with tiles := m.tiles }) ∧
  (∀ (s : State) (t th : Nat) (f : RFields), Issues s t th →
     let y := getThread s.m t th
     let done := fun (c : Instr) (sd : Nat) (v : Nat) => Ends c s (Writes t th f sd (BitVec.ofNat 64 v) (y.pc + 8) s.m)
     done (.nop t th f) 0 0 ∧ done (.fenceCell t th f) 0 0 ∧ done (.fenceTile t th f) 0 0 ∧ done (.fencePackage t th f) 0 0 ∧
     done (.rdtimeCycle t th f) f.sd (getTile s.m t).cycle ∧ done (.rdtimeTile t th f) f.sd t ∧
     done (.rdtimeChannel t th f) f.sd y.channel ∧
     (y.locked = true → done (.rdtimePav t th f) f.sd s.m.pav.tb) ∧
     (y.locked = false → Ends (.rdtimePav t th f) s (Traps t th 0x0D y.pc 0 s.m)) ∧
     Ends (.vclr t th f) s fun m => (getThread m t th).vary = f.nd ∧ (getThread m t th).pc = y.pc + 8 ∧
       OneThread t th 0 s.m m ∧ CountsOnly s.m m ∧ m = { s.m with tiles := m.tiles, dbg := m.dbg, dict := m.dict })

/-- When a thread may issue and ref names an object outside the firmware's of the kind R189 allows, SADD adds S[SB] to VALUE modulo 2^64 or to LIMIT modulo 2^48, SSET and SCLR set and clear bit 0 of VALUE, SARRIVE writes GEN to SD and counts the arrival (at LIMIT, VALUE returns to 0 and GEN moves on modulo 16), SARM sets VALUE and clears FIRED, SREAD writes VALUE to SD: each answers a next state with that object, in which every other object stands, the thread has gone on, every thread that waits on the object is released if it now satisfies its condition, and nothing else has changed but the operation counters and the hang detector's times. On a kind R189 does not allow they trap 0x06, on an object of the firmware 0x04. -/
def Obligations.SyncOperationsUpdateTheObject : Prop :=
  ∀ (s : State) (t th : Nat) (f : RFields), Issues s t th →
    let y := getThread s.m t th
    let r := (y.reg f.sa + (BitVec.ofNat 32 f.imm).signExtend 64).toNat % 2 ^ 18
    let o := getSync s.m r
    let b := (y.reg f.sb).toNat
    let cases := fun (c : Instr) (sd v : Nat) (kind : Nat) (o' : SyncObj) =>
      (r % 4096 < 4032 ∧ o.kind = kind → Ends c s (SyncDone t th f sd (BitVec.ofNat 64 v) r o' s.m)) ∧
      (r % 4096 < 4032 ∧ o.kind ≠ kind → Ends c s (Traps t th 0x06 y.pc r s.m)) ∧
      (4032 ≤ r % 4096 → Ends c s (Traps t th 0x04 y.pc r s.m))
    cases (.sadd t th f) 0 0 1 { o with value := (o.value + b) % 2 ^ 64 } ∧
    cases (.saddLimit t th f) 0 0 1 { o with limit := (o.limit + b) % 2 ^ 48 } ∧
    cases (.sset t th f) 0 0 2 { o with value := o.value ||| 1 } ∧
    cases (.sclr t th f) 0 0 2 { o with value := o.value - o.value % 2 } ∧
    cases (.sarrive t th f) f.sd o.gen 4 (if o.value + 1 = o.limit then { o with value := 0, gen := (o.gen + 1) % 16 }
      else { o with value := (o.value + 1) % 2 ^ 64 }) ∧
    cases (.sarm t th f) 0 0 5 { o with value := b, fired := false } ∧
    (r % 4096 < 4032 ∧ 1 ≤ o.kind ∧ o.kind ≤ 5 →
      Ends (.sread t th f) s (Writes t th f f.sd (BitVec.ofNat 64 o.value) (y.pc + 8) s.m)) ∧
    (r % 4096 < 4032 ∧ ¬(1 ≤ o.kind ∧ o.kind ≤ 5) → Ends (.sread t th f) s (Traps t th 0x06 y.pc r s.m)) ∧
    (4032 ≤ r % 4096 → Ends (.sread t th f) s (Traps t th 0x04 y.pc r s.m))

/-- When a thread may issue and ref names an object outside the firmware's: SWAIT on a counter, event, barrier or step latch goes on at once where the object satisfies its condition, else the thread waits on it with S[SB][3:0]; STAKE on a semaphore takes a unit where VALUE is above 0, else the thread waits for one; with FUNC 1 it takes a unit and writes 1 to SD, or writes 0; SGIVE below LIMIT adds a unit where no thread of the owning tile waits for one, gives the unit of a semaphore at 0 to the lowest-numbered thread of the owning tile that waits, and at LIMIT traps 0x07. A tile's retry of a take of another tile's semaphore takes a unit if one is left. While the block runs and the timebase has reached VALUE of a step latch that has not fired, STEP_LATCH_FIRE answers a next state in which FIRED is 1, every thread that waits on the latch is released, and nothing else has changed; before the target it changes nothing. -/
def Obligations.WaitsTakesAndStepLatches : Prop :=
  (∀ (s : State) (t th : Nat) (f : RFields),
     let y := getThread s.m t th
     let r := (y.reg f.sa + (BitVec.ofNat 32 f.imm).signExtend 64).toNat % 2 ^ 18
     let o := getSync s.m r
     let gen := (y.reg f.sb).toNat % 16
     let taken : SyncObj := { o with value := o.value - 1 }
     let given : SyncObj := { o with value := o.value + 1 }
     let own := r / 4096
     let waits := fun (k : Nat) => (getThread s.m own k).wait = .take r
     (Issues s t th ∧ r % 4096 < 4032 →
       (o.kind = 1 ∧ o.limit ≤ o.value ∨ o.kind = 2 ∧ o.value.testBit 0 = true ∨ o.kind = 4 ∧ o.gen ≠ gen ∨ o.kind = 5 ∧ o.fired = true →
         Ends (.swait t th f) s (Writes t th f 0 0 (y.pc + 8) s.m)) ∧
       (o.kind = 1 ∧ o.value < o.limit ∨ o.kind = 2 ∧ o.value.testBit 0 = false ∨ o.kind = 4 ∧ o.gen = gen ∨ o.kind = 5 ∧ o.fired = false →
         Ends (.swait t th f) s (ThreadIs t th { y with tstate := .waitObj, wait := .obj r gen } s.m)) ∧
       (o.kind = 3 ∧ 0 < o.value → Ends (.stake t th f) s (fun m => SyncDone t th f 0 0 r taken s.m m) ∧
         Ends (.stakeTry t th f) s (fun m => SyncDone t th f f.sd 1 r taken s.m m)) ∧
       (o.kind = 3 ∧ o.value = 0 →
         Ends (.stake t th f) s (ThreadIs t th { y with tstate := .waitObj, wait := .take r } s.m) ∧
         Ends (.stakeTry t th f) s (Writes t th f f.sd 0 (y.pc + 8) s.m)) ∧
       (o.kind = 3 ∧ o.limit ≤ o.value → Ends (.sgive t th f) s (Traps t th 0x07 y.pc r s.m)) ∧
       (o.kind = 3 ∧ o.value < o.limit ∧ (∀ k, k < 8 → (own, k) ≠ (t, th) → ¬waits k) →
         Ends (.sgive t th f) s fun m => SyncDone t th f 0 0 r given s.m m) ∧
       (∀ k, o.kind = 3 ∧ o.value = 0 ∧ 0 < o.limit ∧ k < 8 ∧ (own, k) ≠ (t, th) ∧ waits k ∧
           (∀ j, j < k → (own, j) ≠ (t, th) → ¬waits j) →
         Ends (.sgive t th f) s fun m => m.sync = s.m.sync.set {} r { o with value := 0 } ∧
           getThread m own k = (getThread s.m own k).advance ∧ (getThread m t th).pc = y.pc + 8 ∧
           (∀ t' k', (t', k') ≠ (t, th) → (t', k') ≠ (own, k) → getThread m t' k' = getThread s.m t' k') ∧
           m = { s.m with tiles := m.tiles, sync := m.sync, dbg := m.dbg, dict := m.dict })) ∧
     (∀ q, s.awake ∧ y.wait = .take q ∧ (getTile s.m t).st = .running ∧ q / 4096 ≠ t ∧ 0 < (getSync s.m q).value →
       Ends (.remoteTakeRetry t th) s fun m =>
         getSync m q = { getSync s.m q with value := (getSync s.m q).value - 1 } ∧ (∀ r', r' ≠ q → getSync m r' = getSync s.m r') ∧
         getThread m t th = y.advance ∧ (∀ t' k', (t', k') ≠ (t, th) → getThread m t' k' = getThread s.m t' k') ∧
         m = { s.m with tiles := m.tiles, sync := m.sync })) ∧
  (∀ (s : State) (t obj : Nat), s.awake →
     let r := t * 4096 + obj
     let o := getSync s.m r
     (o.kind = 5 ∧ o.fired = false ∧ o.value ≤ s.m.pav.tb →
       Ends (.stepLatchFire t obj) s fun m => ObjectIs r { o with fired := true } s.m m ∧
         (∀ t' th', th' < 8 → getThread m t' th' = afterRelease { o with fired := true } r (getThread s.m t' th')) ∧
         m = { s.m with tiles := m.tiles, sync := m.sync }) ∧
     (s.m.pav.tb < o.value → exec (.stepLatchFire t obj) s = .next s))

/-- When a thread may issue and NOTIFY is 0 or names a counter of the issuing tile, FENCE of remote scope answers a next state in which SD holds the token (tile in bits 31:26, sequence in bits 15:0): with a free entry, of a new last entry that covers the PLACE writes not yet acknowledged, the next sequence following 1 to 65,535; with all 1,024 entries occupied, of the newest entry, which now covers them and adds the NOTIFY to its own. Else it traps 0x0C, but 0x04 when it names a counter of the tile among the firmware's objects. REMOTE_FENCE_COMPLETE of an entry with no write left removes it, and each of its counters gains 1 (the counter named once, in the case without a duplicate). -/
def Obligations.RemoteFencesIssueAndComplete : Prop :=
  ∀ (s : State) (t th : Nat) (f : RFields),
    let x := getTile s.m t
    let y := getThread s.m t th
    let c := (y.reg f.sb + (BitVec.ofNat 32 f.imm).signExtend 64).toNat % 2 ^ 18
    let notify := if f.func.testBit 2 then [c] else []
    (Issues s t th ∧ (f.func.testBit 2 = true → ownCounter s.m t c = true) →
      (x.rfences.length < 1024 → Ends (.fenceRemote t th f) s fun m =>
        (getThread m t th).reg f.sd = (if f.sd = 0 then 0 else BitVec.ofNat 64 (t * 2 ^ 26 + x.nextFence % 2 ^ 16)) ∧
        (getTile m t).rfences = x.rfences ++ [{ seq := x.nextFence, covers := x.placesOut, notify := notify }] ∧
        (getTile m t).nextFence = (if x.nextFence ≥ 65535 then 1 else x.nextFence + 1) ∧ (getThread m t th).pc = y.pc + 8 ∧
        (∀ t', t' ≠ t → getTile m t' = getTile s.m t') ∧ CountsOnly s.m m ∧
        m = { s.m with tiles := m.tiles, dbg := m.dbg, dict := m.dict }) ∧
      (∀ e l, x.rfences = l ++ [e] ∧ 1024 ≤ x.rfences.length → Ends (.fenceRemote t th f) s fun m =>
        (getThread m t th).reg f.sd = (if f.sd = 0 then 0 else BitVec.ofNat 64 (t * 2 ^ 26 + e.seq % 2 ^ 16)) ∧
        (getTile m t).rfences = l ++ [{ e with covers := x.placesOut, notify := e.notify ++ notify }] ∧
        (getTile m t).nextFence = x.nextFence ∧ (getThread m t th).pc = y.pc + 8 ∧
        (∀ t', t' ≠ t → getTile m t' = getTile s.m t') ∧ CountsOnly s.m m ∧
        m = { s.m with tiles := m.tiles, dbg := m.dbg, dict := m.dict })) ∧
    (Issues s t th ∧ f.func.testBit 2 = true ∧ ownCounter s.m t c = false →
      Ends (.fenceRemote t th f) s (Traps t th (if c / 4096 = t ∧ (getSync s.m c).kind = 1 then 0x04 else 0x0C) y.pc c s.m)) ∧
    (∀ e q, s.awake ∧ x.rfences.head? = some e ∧ e.covers = [] ∧ e.notify = [q] ∧ (getSync s.m q).kind = 1 →
      Ends (.remoteFenceComplete t e.seq) s fun m =>
        (getTile m t).rfences = x.rfences.filter (fun e' => e'.seq != e.seq) ∧
        ObjectIs q { getSync s.m q with value := ((getSync s.m q).value + 1) % 2 ^ 64 } s.m m ∧
        (∀ t' th', th' < 8 → getThread m t' th' =
          afterRelease { getSync s.m q with value := ((getSync s.m q).value + 1) % 2 ^ 64 } q (getThread s.m t' th')) ∧
        m = { s.m with tiles := m.tiles, sync := m.sync, dbg := { s.m.dbg with lastProgress := m.dbg.lastProgress } })

/-- When a thread that no pool lets wait may issue, LD of 1, 2, 4 or 8 bytes at S[SA] + sext(IMM), aligned to its size, where no domain that is off stands: puts into SD the bytes of memory that stand there, least significant first, zero-extended, or sign-extended when FUNC[2] is set; likewise the value of a sync object or of a register whose read does nothing; the frame is that of the ALU instructions. A misaligned one traps 0x03; an address of no memory, sync object or register, and a reserve of firmware, traps 0x04 with the address. -/
def Obligations.LoadsReadMemoryAndRegisters : Prop :=
  ∀ (s : State) (t th : Nat) (f : RFields), Issues s t th ∧ waitsInPool s.m t th = false →
    let y := getThread s.m t th
    let n := 2 ^ (f.func % 4)
    let a := (y.reg f.sa + (BitVec.ofNat 32 f.imm).signExtend 64).toNat
    let ext := fun (v : Nat) => if f.func.testBit 2 then (BitVec.ofNat (8 * n) v).signExtend 64 else BitVec.ofNat 64 v
    (a % n ≠ 0 → Ends (.ld t th f) s (Traps t th 0x03 y.pc a s.m)) ∧
    (a % n = 0 →
      (localToPkg t a = none → Ends (.ld t th f) s (Traps t th 0x04 y.pc a s.m)) ∧
      (∀ p, localToPkg t a = some p →
        (reserved p = true → Ends (.ld t th f) s (Traps t th 0x04 y.pc a s.m)) ∧
        (reserved p = false ∧ spaceSee s.m t p n = .hole ∧ takeAt p = none → Ends (.ld t th f) s (Traps t th 0x04 y.pc a s.m)) ∧
        (∀ b, reserved p = false ∧ unitOff s.m p = false ∧ readMem s.m p n = some b →
          Ends (.ld t th f) s (Writes t th f f.sd (ext (leNat b)) (y.pc + 8) s.m)) ∧
        (∀ v, reserved p = false ∧ spaceSee s.m t p n = .val v ∧ readEffect s.m p n = s.m →
          Ends (.ld t th f) s (Writes t th f f.sd (ext v) (y.pc + 8) s.m))))

/-- When a thread that waits for nothing may issue, ST of 1, 2, 4 or 8 bytes at S[SA] + sext(IMM), aligned to its size: to memory that is neither a grammar tail word, a pool's own table nor a mailbox buffer, in a domain that is on, the bytes there read as the low bytes of S[SB] and every address of another cell of memory as before; to a sync object of a tile without a program, outside firmware's objects, the object holds the written bits, the rest of it standing, and no other object has changed; the thread goes on as after an ALU instruction that writes nothing. A misaligned one traps 0x03, an address outside the space and a reserve 0x04, a sync object of a tile with a program 0x08. -/
def Obligations.StoresWriteExactlyTheirBytes : Prop :=
  ∀ (s : State) (t th : Nat) (f : RFields), Issues s t th ∧ t < 64 ∧ (getThread s.m t th).wait = .none →
    let y := getThread s.m t th
    let n := 2 ^ (f.func % 4)
    let a := (y.reg f.sa + (BitVec.ofNat 32 f.imm).signExtend 64).toNat
    let v := (y.reg f.sb).toNat
    (a % n ≠ 0 → Ends (.st t th f) s (Traps t th 0x03 y.pc a s.m)) ∧
    (a % n = 0 →
      (localToPkg t a = none → Ends (.st t th f) s (Traps t th 0x04 y.pc a s.m)) ∧
      (∀ p, localToPkg t a = some p →
        (reserved p = true → Ends (.st t th f) s (Traps t th 0x04 y.pc a s.m)) ∧
        (reserved p = false ∧ inMem p n = true ∧ unitOff s.m p = false ∧ tailsTouched p n = none ∧ inPoolTables s.m p = false ∧
            p < 0x030000000000 → Ends (.st t th f) s fun m =>
          Stored p n v s.m m ∧ Writes t th f 0 0 (y.pc + 8) { s.m with mem := m.mem } m) ∧
        (∀ r, reserved p = false ∧ syncAt p = some r →
          (programLoaded s.m (r / 4096) = true → Ends (.st t th f) s (Traps t th 0x08 y.pc a s.m)) ∧
          (programLoaded s.m (r / 4096) = false ∧ unitOff s.m p = false → Ends (.st t th f) s fun m =>
            (getThread m t th).pc = y.pc + 8 ∧ (getThread m t th).tstate = .ready ∧ m.mem = s.m.mem ∧
            (∀ q, q ≠ r → getSync m q = getSync s.m q) ∧
            (n = 8 ∧ p % 16 = 0 ∧ (∀ k, (getThread s.m (r / 4096) k).wait ≠ .take r) → (getSync m r).value = v)))))

/-- While the block runs, a write of 1, 2, 4 or 8 bytes by an agent other than the host: to memory that is neither a grammar tail word, a pool's own table nor a mailbox buffer, writes those bytes and changes nothing else; to an address where no domain, memory, sync object or register stands is discarded as an address error; by a tile or unit to a register that the control cores alone may write likewise; of ones to PAV_EVENT clears those bits and nothing else of Pavane; of START to PKG_FENCE sets the agent's PEND. PKG_FENCE_START sets PEND of its agent and of no other; PKG_FENCE_DONE clears it, and private source 34 of a control core's pair is pending. -/
def Obligations.AgentsWriteTheAddressSpace : Prop :=
  ∀ (s : State) (agent a n v : Nat), s.awake →
    (agent ≠ 0x70 ∧ (n = 1 ∨ n = 2 ∨ n = 4 ∨ n = 8) →
      (unitOff s.m a = false ∧ inMem a n = true ∧ tailsTouched a n = none ∧ inPoolTables s.m a = false ∧ a < 0x030000000000 →
        Ends (.regWrite agent a n v) s fun m => Stored a n v s.m m ∧ m = { s.m with mem := m.mem }) ∧
      (unitOff s.m a = true ∨ inMem a n = false ∧ accessOk a n = false ∨
          inMem a n = false ∧ syncAt a = none ∧ regGranule s.m agent (a / 8 * 8) = .hole ∧ (a < 0x030003000000 ∨ 0x030003800000 ≤ a) →
        Ends (.regWrite agent a n v) s (AddressErrs agent a s.m)) ∧
      (∀ t, t < 64 ∧ isCore agent = false ∧ a = 0x030000000000 + t * 0x10000 ∧ unitOff s.m a = false →
        Ends (.regWrite agent a n v) s (AddressErrs agent a s.m)) ∧
      (a = 0x030004000120 ∧ n = 8 → Ends (.regWrite agent a n v) s fun m =>
        (∀ i < 64, m.pav.event.testBit i = (s.m.pav.event.testBit i && !v.testBit i)) ∧
        m.pav = { s.m.pav with event := m.pav.event } ∧ (getSrc m 0x148).line = (m.pav.event != 0) ∧ m.mem = s.m.mem ∧
        EntriesBut [Od.INT_OVERRUNS] s.m m) ∧
      (a = 0x030004000040 ∧ v.testBit 0 = true → Ends (.regWrite agent a n v) s fun m =>
        m = { s.m with fences := m.fences } ∧ ∀ k, m.fences.get false k = (k == agent || s.m.fences.get false k))) ∧
    (Ends (.pkgFenceStart agent) s fun m =>
      m = { s.m with fences := m.fences } ∧ ∀ k, m.fences.get false k = (k == agent || s.m.fences.get false k)) ∧
    (s.m.fences.get false agent = true → Ends (.pkgFenceDone agent) s fun m =>
      (∀ k, m.fences.get false k = (k != agent && s.m.fences.get false k)) ∧
      (isCore agent = false → m = { s.m with fences := m.fences }) ∧
      (isCore agent = true → (getTgt m (agent - 0x40)).privPend.testBit 34 = true ∧ (∀ i, getSrc m i = getSrc s.m i) ∧
        EntriesBut [Od.INT_OVERRUNS] s.m m ∧ m = { s.m with fences := m.fences, intc := m.intc, dict := m.dict }))

/-- A control core's action on a tile with no action in progress, in a state that allows it: START starts every thread at its START_PC with its registers 0 but S1, the cycle counter 0 and fence sequences from 1, and enters state 2; HALT and UNLOAD are in progress, UNLOAD dropping the dispatches with no item running; TILE_RESET empties the tile and returns its retired cells; QUARANTINE enters state 5. In another state the action is dropped and REFUSED set; while one is in progress it is held pending, in place of an earlier pending one; another agent's write is an address error. A pending action is taken as if written once none is in progress. -/
def Obligations.ReelControlMovesTheTileState : Prop :=
  ∀ (s : State) (agent t : Nat), s.awake →
    let x := getTile s.m t
    let only := fun (y : Tile) (m : M8) => getTile m t = y ∧ (∀ t', t' ≠ t → getTile m t' = getTile s.m t') ∧ m = { s.m with tiles := m.tiles }
    (isCore agent = true ∧ x.busy = none →
      (x.st = .loaded → Ends (.reelStart agent t) s fun m =>
        TileEnters t { x with st := .running, cycle := 0, quarters := 0, canaryAt := 0, nextFence := 1, rfences := [], dispQ := [],
                              cells := [], reqQ := [], placesOut := [], lastIssue := 7, threads := (getTile m t).threads }
          { s.m with safe := { s.m.safe with hubStart := s.m.clk.hclk, hubRuns := [] },
                     dbg := { s.m.dbg with lastProgress := m.dbg.lastProgress } } m ∧
        (∀ th (h : th < x.initThreads.length), getThread m t th = threadStart x.initThreads[th]) ∧
        (∀ th, x.initThreads.length ≤ th → getThread m t th = {})) ∧
      (x.st = .running → Ends (.reelHalt agent t) s (only { x with busy := some .halt })) ∧
      (x.st = .loaded ∨ x.st = .halted ∨ x.st = .trapped → Ends (.reelUnload agent t) s (only { x with
        busy := some .unload, dispQ := x.dispQ.filter fun d => x.cells.any fun c => c.2.disp == d.id })) ∧
      (x.st = .empty ∨ x.st = .halted ∨ x.st = .trapped ∨ x.st = .quarantined → Ends (.tileReset agent t) s (TileEnters t
        { refused := x.refused, pendingAct := x.pendingAct, safeTest := x.safeTest, canaryAt := x.canaryAt } s.m)) ∧
      (jobLoaded s.m = false ∨ s.m.grp.own = [] ∨ s.m.grp.fenced = true → Ends (.reelQuarantine agent t) s (TileEnters t
        { x with pendingAct := none, cells := [], st := .quarantined } s.m)) ∧
      (jobLoaded s.m = true ∧ s.m.grp.own ≠ [] ∧ s.m.grp.fenced = false → Ends (.reelQuarantine agent t) s fun m =>
        (getTile m t).st = .quarantined ∧ m.grp.fenced = true ∧ m.mem = s.m.mem ∧
        (∀ t', t' ≠ t ∧ (getTile s.m t').st = .running → getTile m t' = { getTile s.m t' with busy := some .halt }) ∧
        (∀ t', t' ≠ t ∧ (getTile s.m t').st ≠ .running → getTile m t' = getTile s.m t') ∧
        ∃ l, m.fab.units = s.m.fab.units ++ l ∧ l.length = s.m.grp.own.length ∧
          ∀ f ∈ l, f.cls = 4 ∧ f.payload.take 1 = [2#8] ∧ (f.payload.drop 15).take 1 = [2#8]) ∧
      (∀ act, reelAllowed act x.st = false → Ends (actCommand agent t act) s (only { x with refused := true }))) ∧
    (∀ act, isCore agent = true ∧ x.busy ≠ none → Ends (actCommand agent t act) s (only { x with pendingAct := some act })) ∧
    (∀ act, isCore agent = false → Ends (actCommand agent t act) s (AddressErrs agent (0x030000000000 + t * 0x10000) s.m)) ∧
    (∀ act, x.busy = none ∧ x.pendingAct = some act → Ends (.reelPendingApply t) s fun m =>
      exec (actCommand 0x40 t act) { s with m := setTile s.m t { x with pendingAct := none } } = .next { s with m := m })

/-- A running tile with no work in flight, with a HALT in progress or all its threads halted, enters state 3; an UNLOAD in progress with no work in flight and no remote fence open leaves an empty tile that keeps its retired cells, its REFUSED bit and a pending action. A cell that fails its self-check is retired, its unfinished item is queued again, the detection is logged and counted, and with the tile's second retired cell the tile is quarantined. A hardware fault of cause 0x20, 0x21 or 0x23 is recorded as a trap, the seal gates are closed, SEAL_HOLD is 1 and the tile is quarantined; a cause 0x22 quarantines the tile. No byte of memory and no sync object changes. -/
def Obligations.TilesHaltUnloadAndFail : Prop :=
  ∀ (s : State) (t : Nat), s.awake →
    let x := getTile s.m t
    (x.dispQ = [] ∧ x.cells = [] ∧ x.reqQ = [] →
      (x.st = .running ∧ (x.busy = some .halt ∨ x.threads ≠ [] ∧ ∀ p ∈ x.threads, p.2.tstate = .halted ∨ p.2.tstate = .notInUse) →
        Ends (.tileHalted t) s (TileEnters t { x with busy := none, st := .halted } s.m)) ∧
      (x.busy = some .unload ∧ x.rfences = [] → Ends (.reelUnloadDone t) s (TileEnters t
        { retired := x.retired, refused := x.refused, pendingAct := x.pendingAct, cellCanary := x.cellCanary,
          safeTest := x.safeTest, canaryAt := x.canaryAt } s.m))) ∧
    (t < 64 ∧ x.st ≠ .quarantined →
      (∀ cell, cell < 16 ∧ x.retired.testBit cell = false → Ends (.cellSelfCheckFail t cell) s fun m =>
        m.mem = s.m.mem ∧ m.sync = s.m.sync ∧ odNat m Od.DETECTIONS = (odNat s.m Od.DETECTIONS + 1) % 2 ^ 32 ∧
        m.safe.lastMode = 1 ∧ (∀ t', t' ≠ t ∧ (getTile s.m t').st ≠ .running → getTile m t' = getTile s.m t') ∧
        (popcount 16 x.retired < 2 → (getTile m t).retired = x.retired ||| 2 ^ cell) ∧
        (popcount 16 x.retired = 1 → (getTile m t).st = .quarantined) ∧
        (popcount 16 x.retired = 0 → (getTile m t).st = x.st ∧ m.safe.gates = s.m.safe.gates ∧
          (∀ r, x.cells.find cell = some r ∧ r.worked = false → (getTile m t).cells = x.cells.drop cell ∧
            ∀ d ∈ x.dispQ, d.id = r.disp → { d with requeued := d.requeued ++ [r.item] } ∈ (getTile m t).dispQ))) ∧
      (∀ th arg cause, cause = 0x20 ∨ cause = 0x21 ∨ cause = 0x23 → Ends (.tileHwFault t th cause arg) s fun m =>
        (getTile m t).st = .quarantined ∧ (getTile m t).trapValid = true ∧ (x.trapValid = false → (getTile m t).trapCause = cause ∧
          (getTile m t).trapThread = th ∧ (getTile m t).trapPc = (getThread s.m t th).pc) ∧
        (∀ h < 4, m.safe.gates.get false h = true) ∧ odNat m Od.SEAL_HOLD = 1 ∧ m.safe.lastMode = (if cause = 0x20 then 0x05 else 0x03) ∧
        odNat m Od.DETECTIONS = (odNat s.m Od.DETECTIONS + 1) % 2 ^ 32 ∧ m.mem = s.m.mem ∧ m.sync = s.m.sync) ∧
      (∀ th arg, Ends (.tileHwFault t th 0x22 arg) s fun m =>
        (getTile m t).st = .quarantined ∧ (getTile m t).trapValid = true ∧ m.mem = s.m.mem ∧ m.sync = s.m.sync ∧
        m.safe.gates = s.m.safe.gates))

/-- While the block runs: an edge of a shared source sets PENDING, or OVERRUN when it was pending, and wakes an enabled source's waiting target; INT_CLAIM returns the pending, enabled source routed to the target of the highest priority above THRESH, the lowest ID among equals, and clears its PENDING alone, or 0xFFFF when there is none; INT_COMPLETE by a control core sets PENDING again while the line is high; INT_SWI by a control core pends every private source of its mask; the timer pends private source 32 once the timestamp has reached INT_TIMECMP; a write of TARGET by a control core routes the source. Every other source, target and entry stands, and nothing else changes. While the block runs, ADDRERR_READ of a hub answers a next state in which the event's word (address in bits 47:0, MORE in bit 48, agent in bits 63:56) has been returned to the reader, ADDRERR of that hub is 0, its level source is low, and every other hub's ADDRERR, every other source and everything else stands. -/
def Obligations.InterruptEdgesClaimsAndTimers : Prop :=
  (∀ (s : State), s.awake →
     (∀ id, id ≤ 0x18C → Ends (.intSourceEdge id) s fun m =>
       let x := getSrc s.m id
       getSrc m id = (if x.pending then { x with overrun := true } else { x with pending := true }) ∧
       (∀ j, j ≠ id → getSrc m j = getSrc s.m j) ∧
       (∀ g, getTgt m g = if x.enable = true ∧ g = x.target ∧ (getTgt s.m g).wfi = true
         then { getTgt s.m g with wfi := false, wakeValid := true, wakeId := id } else getTgt s.m g) ∧
       odNat m Od.INT_OVERRUNS = (if x.pending then (odNat s.m Od.INT_OVERRUNS + 1) % 2 ^ 32 else odNat s.m Od.INT_OVERRUNS) ∧
       EntriesBut [Od.INT_OVERRUNS] s.m m ∧ m.intc.addrErr = s.m.intc.addrErr ∧ m = { s.m with intc := m.intc, dict := m.dict }) ∧
     (∀ g,
       let prio := fun (i : Nat) => if i < 0x200 then (getSrc s.m i).prio else (getTgt s.m g).privPrio
       let eligible := fun (i : Nat) => (getTgt s.m g).thresh < prio i ∧
         (i ≤ 0x18C ∧ (getSrc s.m i).pending = true ∧ (getSrc s.m i).enable = true ∧ (getSrc s.m i).target = g ∨
          0x200 ≤ i ∧ i < 0x200 + 35 ∧ (getTgt s.m g).privPend.testBit (i - 0x200) = true ∧ (getTgt s.m g).privEn.testBit (i - 0x200) = true)
       (∀ id, eligible id ∧ (∀ j, eligible j → prio j < prio id ∨ prio j = prio id ∧ id ≤ j) → Ends (.intClaim g) s fun m =>
         m.out = .readData (0x40 + g) id :: s.m.out ∧
         (∀ j, getSrc m j = if j = id ∧ id < 0x200 then { getSrc s.m j with pending := false } else getSrc s.m j) ∧
         (∀ k, (getTgt m g).privPend.testBit k = ((getTgt s.m g).privPend.testBit k && 0x200 + k != id)) ∧
         (∀ h, h ≠ g → getTgt m h = getTgt s.m h) ∧ m = { s.m with intc := m.intc, out := m.out }) ∧
       ((∀ j, ¬eligible j) → Ends (.intClaim g) s fun m => m = { s.m with out := .readData (0x40 + g) 0xFFFF :: s.m.out })) ∧
     (∀ agent g id, isCore agent = true → Ends (.intComplete agent g id) s fun m =>
       (∀ j, getSrc m j = if j = id ∧ id < 0x200 ∧ (getSrc s.m id).line = true then { getSrc s.m j with pending := true } else getSrc s.m j) ∧
       m = { s.m with intc := { s.m.intc with srcs := m.intc.srcs } }) ∧
     (∀ agent g mask, isCore agent = true → Ends (.intSwi agent g mask) s fun m =>
       (∀ k, (getTgt m g).privPend.testBit k = ((getTgt s.m g).privPend.testBit k || k < 32 && mask.testBit k)) ∧
       (∀ h, h ≠ g → getTgt m h = getTgt s.m h) ∧ m.intc.srcs = s.m.intc.srcs ∧ EntriesBut [Od.INT_OVERRUNS] s.m m ∧
       m = { s.m with intc := m.intc, dict := m.dict }) ∧
     (∀ g, g < 8 ∧ (getTgt s.m g).timecmp ≤ s.m.clk.now → Ends (.intTimer g) s fun m =>
       (∀ k, (getTgt m g).privPend.testBit k = ((getTgt s.m g).privPend.testBit k || k == 32)) ∧
       (∀ h, h ≠ g → getTgt m h = getTgt s.m h) ∧ m.intc.srcs = s.m.intc.srcs ∧ EntriesBut [Od.INT_OVERRUNS] s.m m ∧
       m = { s.m with intc := m.intc, dict := m.dict }) ∧
     (∀ agent id g, isCore agent = true ∧ id ≤ 0x18C ∧ g < 8 → Ends (.intTargetWrite agent id g) s fun m =>
       getSrc m id = { getSrc s.m id with target := g } ∧ (∀ j, j ≠ id → getSrc m j = getSrc s.m j) ∧
       (∀ h, h ≠ g → getTgt m h = getTgt s.m h) ∧ m = { s.m with intc := { s.m.intc with srcs := m.intc.srcs, tgts := m.intc.tgts } })) ∧
  (∀ (s : State) (agent hub : Nat), s.awake → hub < 4 → Ends (.addrerrRead agent hub) s fun m =>
     let e := s.m.intc.addrErr.get {} hub
     m.out = .readData agent (e.addr % 2 ^ 48 + (if e.more then 2 ^ 48 else 0) + e.agent * 2 ^ 56) :: s.m.out ∧
     m.intc.addrErr.get {} hub = {} ∧ (∀ h, h ≠ hub → m.intc.addrErr.get {} h = s.m.intc.addrErr.get {} h) ∧
     getSrc m (0x14A + hub) = { getSrc s.m (0x14A + hub) with line := false } ∧
     (∀ j, j ≠ 0x14A + hub → getSrc m j = getSrc s.m j) ∧ m = { s.m with intc := m.intc, out := m.out })

/-- While the block runs and the job has reached Armed: a timing packet that passes the checks of R109 from a source whose offset is known is the source's last event at the present time with the value R110 gives, and its SEQ is kept; the first one of a source of unknown offset begins the measurement instead; in coded mode an edge outside a word waits for its word and the word's boundary is then the source's last event at the edge's time, in pulse mode the edge is an event, at the boundary nearest to the local value of its time once Pavane runs. An event of the active qualified source of a running Pavane sets SLEW_LEFT to its error, its value carried forward to the present time (the model's reading for STEP_IN, log entry 20), of at most 32,768 pu, or leaves a jump pending. A qualified source without an event while LOSS_STEPS step boundaries passed is lost: SRC_LOSS is set, and, when it was the active one and the other is not qualified, Pavane runs in holdover. HOLDOVER_WARN is set once. -/
def Obligations.StepSourcesDriveTheTimebase : Prop :=
  ∀ (s : State), s.awake →
    let p := s.m.pav
    let active := fun (src : Nat) (x : PavSrc) => p.running = true ∧ p.src = src ∧ x.qualified = true
    let corrected := fun (t : Nat) (v0 : Int) (m : M8) =>
      let v := v0 + (((s.m.clk.now - t) * 65536 * 65536 / m.pav.periodFx : Nat) : Int)
      ((v - p.tb).natAbs ≤ 32768 → m.pav.slewFx = (v - p.tb) * 2 ^ 32 ∧ m.pav.jump = none) ∧
      (32768 < (v - p.tb).natAbs → m.pav.slewFx = p.slewFx ∧ m.pav.jump = some (s.m.clk.now, v) ∧ m.pav.jumpFrom = p.tb)
    (∀ src b, 2 ≤ jobState s.m ∧ (odNat s.m Od.PAV_SRC_ENABLE).testBit 0 = true ∧ packetOk s.m src b = true →
      (odNat s.m Od.OFFSET_SRC_ADDR = src → Ends (.timingPacket src b) s fun m =>
        let v := projectPacket s.m src s.m.clk.now b
        m.pav.pkt.last = some (s.m.clk.now, v) ∧ m.pav.pkt.seq = some (leField b 24 2) ∧
        (p.running = true ∨ odNat s.m Od.STEPIN_MODE = 1 → m.pav.stepin = p.stepin) ∧
        (active 1 p.pkt → corrected s.m.clk.now v m ∧ m.pav.tb = p.tb ∧
          m = { s.m with pav := m.pav, dict := m.dict, intc := m.intc, dbg := m.dbg })) ∧
      (odNat s.m Od.OFFSET_SRC_ADDR ≠ src ∧ (∀ o ∈ s.m.fab.offsets, o.peer ≠ src) → Ends (.timingPacket src b) s fun m =>
        m = { s.m with pav := { p with pkt := { p.pkt with seq := some (leField b 24 2) } },
                       fab := { s.m.fab with offsets := s.m.fab.offsets ++ [{ peer := src, src := true }] } })) ∧
    (2 ≤ jobState s.m ∧ (odNat s.m Od.PAV_SRC_ENABLE).testBit 1 = true →
      let t := s.m.clk.now - odNat s.m Od.STEPIN_DELAY_NS
      let here : Int := p.tb - (((s.m.clk.now - t) * 65536 * 65536 / p.periodFx : Nat) : Int)
      let near := if here % 65536 ≥ 32768 then (here / 65536 + 1) * 65536 else here / 65536 * 65536
      (insideWord s.m t = false ∧ edgeTooSoon s.m t = false ∧ odNat s.m Od.STEPIN_MODE = 1 → Ends .stepInEdge s fun m =>
        m = { s.m with pav := { p with edge := some t } }) ∧
      (edgeTooSoon s.m t = false ∧ odNat s.m Od.STEPIN_MODE ≠ 1 → Ends .stepInEdge s fun m =>
        (∃ v, m.pav.stepin.last = some (t, v) ∧ (p.running = true → v = near)) ∧ m.pav.pkt = p.pkt ∧
        (active 2 p.stepin → corrected t near m ∧ m.pav.tb = p.tb ∧
          m = { s.m with pav := m.pav, dict := m.dict, intc := m.intc, dbg := m.dbg })) ∧
      (∀ word t', odNat s.m Od.STEPIN_MODE = 1 ∧ p.edge = some t' ∧ codedOk s.m word = true →
        Ends (.stepInCodedWord word) s fun m =>
          m.pav.stepin.last = some (t', ((word % 2 ^ 48 * 65536 : Nat) : Int)) ∧ m.pav.edge = none ∧ m.pav.pkt = p.pkt ∧
          (active 2 p.stepin → corrected t' ((word % 2 ^ 48 * 65536 : Nat) : Int) m ∧ m.pav.tb = p.tb ∧
            m = { s.m with pav := m.pav, dict := m.dict, intc := m.intc, dbg := m.dbg }))) ∧
    (∀ src t v, (src = 1 ∨ src = 2) ∧ (getPavSrc s.m src).last = some (t, v) ∧ (getPavSrc s.m src).qualified = true ∧
        2 ≤ jobState s.m ∧ p.periodFx ≠ 0 ∧ (odNat s.m Od.LOSS_STEPS * 65536 - (v % 65536).toNat) * p.periodFx ≤ (s.m.clk.now - t) * 2 ^ 32 →
      Ends (.srcLost src) s fun m =>
        (getPavSrc m src).qualified = false ∧ (getPavSrc m src).wasLost = true ∧ m.pav.event.testBit 0 = true ∧
        odNat m Od.SRC_LOSSES = (odNat s.m Od.SRC_LOSSES + 1) % 2 ^ 32 ∧ m.pav.tb = p.tb ∧
        (p.src = src ∧ p.running = true ∧ (getPavSrc s.m (3 - src)).qualified = true → m.pav.src = 3 - src ∧ m.pav.event.testBit 3 = true) ∧
        (p.src = src ∧ p.running = true ∧ (getPavSrc s.m (3 - src)).qualified = false →
          m.pav.src = 3 ∧ m.pav.event.testBit 2 = true ∧ m.pav.holdFrom = p.tb / 65536 ∧ m.pav.jump = none) ∧
        (p.src ≠ src → m.pav.src = p.src) ∧ m = { s.m with pav := m.pav, dict := m.dict, intc := m.intc, dbg := m.dbg }) ∧
    (p.src = 3 ∧ p.warned = false ∧ odNat s.m Od.HOLDOVER_WARN_STEPS ≤ p.tb / 65536 - p.holdFrom →
      Ends .holdoverWarn s (PavSets 9 0 { p with warned := true } s.m))

/-- While the block runs: when less than one hub clock's slew is left, SLEW_DONE makes it up, SLEW_LEFT is 0 and nothing else of Pavane but the phase moves; a pending jump is applied once a step boundary has passed since it was set: the timebase is the source's value carried to the present time, its fraction and SLEW_LEFT are 0, JUMP_DONE is set and JUMPS counts; a job that waits Armed for START_TIMEOUT without a qualified source fails with 0x000A. -/
def Obligations.TimebaseJumpsSlewsAndTimesOut : Prop :=
  ∀ (s : State), s.awake →
    let p := s.m.pav
    let d := if p.periodFx = 0 then 0 else 65536 * 2 ^ 48 * 5 / (8 * p.periodFx)
    (p.running = true ∧ p.slewFx ≠ 0 ∧ p.slewFx.natAbs ≤ d / 64 → Ends .slewDone s fun m =>
      m.pav.slewFx = 0 ∧
      (m.pav.tb * 2 ^ 32 + m.pav.frac : Int) = (p.tb * 2 ^ 32 + p.frac + d + p.slewFx) % 2 ^ 96 ∧
      m.pav = { p with slewFx := 0, tb := m.pav.tb, frac := m.pav.frac, highest := m.pav.highest } ∧
      EntriesBut [Od.HOLDOVER_STEPS] s.m m ∧ m = { s.m with pav := m.pav, dict := m.dict }) ∧
    (∀ t v, p.running = true ∧ p.jump = some (t, v) ∧ p.jumpFrom / 65536 < p.tb / 65536 → Ends .hardJump s fun m =>
      m.pav.tb = (v + (((s.m.clk.now - t) * 65536 * 65536 / max 1 p.periodFx : Nat) : Int)).toNat % 2 ^ 64 ∧ m.pav.frac = 0 ∧
      m.pav.slewFx = 0 ∧ m.pav.jump = none ∧ m.pav.event.testBit 4 = true ∧
      odNat m Od.JUMPS = (odNat s.m Od.JUMPS + 1) % 2 ^ 32 ∧ m.mem = s.m.mem ∧ m.pav.src = p.src ∧ m.pav.periodFx = p.periodFx) ∧
    (jobState s.m = 2 ∧ p.armedAt + odNat s.m Od.START_TIMEOUT * 1000000 ≤ s.m.clk.now → Ends .startTimeout s fun m =>
      jobState m = 6 ∧ odNat m Od.JOB_FAIL = 0x000A ∧ m.job = { s.m.job with failStep := some s.m.job.jr.firstStep } ∧
      EntriesBut [Od.JOB_STATE, Od.JOB_FAIL] s.m m ∧ m = { s.m with dict := m.dict, job := m.job, dbg := { s.m.dbg with rings := m.dbg.rings } })

/-- While the block runs and Pavane runs: a window of a target whose open point the timebase has reached, and that has no record, is open after WINDOW_OPEN; an open one whose close point is reached is closed after WINDOW_CLOSE, every other window standing; the commit deadline of a target is passed once, and an unsealed incomplete batch of its one owned rank carries LATE, sets DEADLINE_MISS and sends MISS to CTRL_ADDR; WOPEN of a step-locked thread waits for admission and traps 0x0D on a free-class one; a waiting transfer is admitted in an open window of its channel and KIND, of its own target or, when every window of that is spent, of any, whose time left covers it and in which no older moved transfer goes first, and SD holds the window's target. -/
def Obligations.WindowsDeadlinesAndTransfers : Prop :=
  ∀ (s : State), s.awake →
    let p := s.m.pav
    (∀ idx n w, p.running = true ∧ windowOf s.m idx = some w →
      (jobState s.m = 3 ∧ isTarget s.m n = true ∧ openPoint w n ≤ p.tb ∧ winRec s.m idx n = none → Ends (.windowOpen idx n) s fun m =>
        winRec m idx n = some { idx := idx, target := n, closed := false } ∧
        (∀ i k, (i, k) ≠ (idx, n) → winRec m i k = winRec s.m i k) ∧
        EntriesBut [Od.QDR_PASSES] s.m m ∧ m = { s.m with pav := { p with wins := m.pav.wins }, dict := m.dict }) ∧
      (windowOpen s.m idx n = true ∧ closePoint w n ≤ p.tb → Ends (.windowClose idx n) s fun m =>
        windowOpen m idx n = false ∧ (∀ i k, (i, k) ≠ (idx, n) → winRec m i k = winRec s.m i k) ∧
        m = { s.m with pav := { p with wins := m.pav.wins } }) ∧
      (w.kind = 3 ∧ (jobState s.m = 3 ∨ jobState s.m = 4) ∧ isTarget s.m n = true ∧ closePoint w n ≤ p.tb ∧ s.m.grp.fenced = false ∧
          (idx, n) ∉ p.passedDeadlines → Ends (.commitDeadline idx n) s fun m =>
        (idx, n) ∈ m.pav.passedDeadlines ∧ m.mem = s.m.mem ∧ m.tiles = s.m.tiles ∧
        (∀ r, ownedRanks s.m = [r] ∧ sealedTo s.m n r = false ∧ targetMine s.m n r = true ∧ missingSlots s.m n r ≠ [] →
          (getAsm m n r).late = true ∧ m.pav.event.testBit 6 = true ∧
          odNat m Od.MISSED_COMMITS = (odNat s.m Od.MISSED_COMMITS + 1) % 2 ^ 32 ∧
          (s.m.job.jr.ctrlAddr ≠ 0xFFFF → ∃ f, m.fab.units = s.m.fab.units ++ [f] ∧ f.dst = s.m.job.jr.ctrlAddr ∧ f.cls = 0x5))) ∧
      (∀ t th bytes n0 kind sd, (getThread s.m t th).wait = .window bytes n0 kind sd ∧ (getTile s.m t).st = .running ∧
          s.m.grp.fenced = false ∧ tooLong s.m (getThread s.m t th).channel kind bytes = false ∧
          w.channel = (getThread s.m t th).channel ∧ w.kind = kind ∧ windowOpen s.m idx n = true ∧
          (n = n0 ∨ ∀ iw ∈ channelWindows s.m w.channel kind, windowSpent s.m iw.1 iw.2 n0 (transferNs s.m w.channel bytes) = true) ∧
          olderFirst s.m w w.channel kind n0 n = false ∧
          transferNs s.m (getThread s.m t th).channel bytes ≤ timeLeft s.m w n → Ends (.transferAdmit t th idx n) s fun m =>
        (getThread m t th).reg sd = (if sd = 0 then 0 else BitVec.ofNat 64 n) ∧ (getThread m t th).pc = (getThread s.m t th).pc + 8 ∧
        (getThread m t th).tstate = .ready ∧ (∀ t' k, (t', k) ≠ (t, th) → getThread m t' k = getThread s.m t' k) ∧
        m = { s.m with tiles := m.tiles })) ∧
    (∀ t th f, Issues s t th →
      ((getThread s.m t th).locked = true → Ends (.wopen t th f) s fun m =>
        getThread m t th = { getThread s.m t th with tstate := .waitWindow, wait := (.window ((getThread s.m t th).reg f.sa).toNat
          ((getThread s.m t th).reg f.sb).toNat (f.func % 4) f.sd) } ∧
        OneThread t th 0 s.m m ∧ m = { s.m with tiles := m.tiles }) ∧
      ((getThread s.m t th).locked = false → Ends (.wopen t th f) s (Traps t th 0x0D (getThread s.m t th).pc 0 s.m)))

/-- GLOBAL_STOP, the fall of STOP_N and the unlocked JTAG instruction STOP start a stop where none is in force: STOP_TIME and STOP_PAV take the timestamp and the timebase, STOP_STATUS shows the stop and its cause (2, 1, 3), the device drives STOP_N low where STOP_CFG[0] is 1 and it started the stop itself, and nothing of the frozen parts changes. A release while STOP_N is high, or the rise of STOP_N with a release pending, ends the stop and pulses source 0x18B; while STOP_N is low the release is held. SCAN_OUT and MEM_OUT return data in a stop alone. -/
def Obligations.GlobalStopsStartAndEnd : Prop :=
  ∀ (s : State),
    let stops := fun (cause : Nat) (own : Bool) (b : M8) => b.dbg.stop = true ∧ b.dbg.stopCause = cause ∧ b.dbg.stopOwn = own ∧
      odNat b Od.STOP_TIME = s.m.clk.now % 2 ^ 64 ∧ odNat b Od.STOP_PAV = s.m.pav.tb % 2 ^ 64 ∧
      odNat b Od.STOP_STATUS = (1 + cause * 2 + (if s.m.dbg.releasePending then 16 else 0)) % 256 ∧
      b.out = (if own && (odNat s.m Od.STOP_CFG).testBit 0 then [.pin "STOP_N" false] else []) ++ s.m.out ∧
      EntriesBut [Od.STOP_TIME, Od.STOP_PAV, Od.STOP_STATUS] s.m b ∧
      b = { s.m with dbg := b.dbg, dict := b.dict, out := b.out, freeCtr := b.freeCtr, jtag := b.jtag }
    let released := fun (b : M8) => b.dbg.stop = false ∧ b.dbg.stopCause = 0 ∧ b.dbg.releasePending = false ∧
      odNat b Od.STOP_STATUS = 0 ∧ ((getSrc b 0x18B).pending = true) ∧
      b.out = (if s.m.dbg.stopOwn && (odNat s.m Od.STOP_CFG).testBit 0 then [.pin "STOP_N" true] else []) ++ s.m.out ∧
      b = { s.m with dbg := b.dbg, dict := b.dict, intc := b.intc, out := b.out, jtag := b.jtag }
    (s.m.dbg.stop = false →
      Ends .globalStop s (fun m => stops 2 true m ∧ m.jtag = s.m.jtag) ∧
      Ends .stopNFall s (fun m => stops 1 false m ∧ m.dbg.stopNLow = true ∧ m.jtag = s.m.jtag) ∧
      (s.m.jtag.unlocked = true → Ends .jtagStop s fun m => stops 3 true m ∧ m.jtag = { s.m.jtag with ir := 0x10, held := false })) ∧
    (s.m.dbg.stop = true ∧ s.m.dbg.stopNLow = false →
      Ends .globalRelease s (fun m => released m ∧ m.jtag = s.m.jtag) ∧
      (s.m.jtag.unlocked = true → Ends .jtagRelease s fun m => released m ∧ m.jtag = { s.m.jtag with ir := 0x11, held := false })) ∧
    (s.m.dbg.stop = true ∧ s.m.dbg.stopNLow = true → Ends .globalRelease s fun m =>
      m.dbg = { s.m.dbg with releasePending := true } ∧ EntriesBut [Od.STOP_STATUS] s.m m ∧ m = { s.m with dbg := m.dbg, dict := m.dict }) ∧
    (s.m.dbg.releasePending = true → Ends .stopNRise s fun m => released m ∧ m.dbg.stopNLow = false) ∧
    (s.m.dbg.releasePending = false → Ends .stopNRise s fun m => m = { s.m with dbg := { s.m.dbg with stopNLow := false } }) ∧
    (s.m.dbg.stop = true →
      Ends .scanOutRead s (fun m => m = { s.m with out := .readBytes (scanOut s.m) :: s.m.out }) ∧
      Ends .memOutRead s (fun m => m = { s.m with
        out := .readBytes (portBytes s.m (odNat s.m Od.MEM_ADDR) (odNat s.m Od.MEM_LEN)) :: s.m.out })) ∧
    (s.m.dbg.stop = false → exec .scanOutRead s = .next s ∧ exec .memOutRead s = .next s)

/-- IDCODE shifts out 0x108127CB, BYPASS its data one bit late, SAMPLE/PRELOAD and EXTEST load the boundary register; EXTEST, CLAMP and HIGHZ hold the balls and, without a job, change nothing else; STATUS gives a fresh nonce; UNLOCK with the proof of a good nonce, no lockout and a filled maintainer slot unlocks, spends the nonce and counts no failure, another proof counts a failure; Test-Logic-Reset locks again; SCAN and MEMRD of an unlocked port in a stop shift out a chain of SCAN_MAP and the memory addressed, and a locked port takes them as BYPASS. -/
def Obligations.JtagInstructionsSelectAndAnswer : Prop :=
  ∀ (s : State),
    let j := s.m.jtag
    let out := fun (ir : Nat) (b : Bytes) (m : M8) => m = { s.m with jtag := { j with ir := ir, held := false }, out := .tdo b :: s.m.out }
    Ends .jtagIdcode s (out 0x02 (natLe 4 0x108127CB)) ∧
    (∀ opcode data, 0x05 ≤ opcode ∧ opcode < 0x10 ∨ 0x15 < opcode →
      Ends (.jtagBypass opcode data) s (out 0xFF (natLe data.length (2 * leNat data)))) ∧
    (∀ p, Ends (.jtagSamplePreload p) s fun m => m.jtag = { j with ir := 0x01, held := false, boundary := p } ∧
      (∃ b, b.length = p.length ∧ m.out = .tdo b :: s.m.out) ∧ m = { s.m with jtag := m.jtag, out := m.out, freeCtr := m.freeCtr }) ∧
    (∀ p, Ends (.jtagExtest p) s fun m => m.jtag = { j with ir := 0x00, held := true, boundary := p } ∧ m.mem = s.m.mem ∧
      (jobLoaded s.m = false → m = { s.m with jtag := m.jtag })) ∧
    Ends .jtagClamp s (fun m => m.jtag = { j with ir := 0x03, held := true } ∧ m.mem = s.m.mem ∧
      (jobLoaded s.m = false → m = { s.m with jtag := m.jtag })) ∧
    Ends .jtagHighz s (fun m => m.jtag = { j with ir := 0x04, held := true } ∧ m.mem = s.m.mem ∧
      (jobLoaded s.m = false → m = { s.m with jtag := m.jtag })) ∧
    Ends .jtagStatus s (fun m => m.jtag = { j with ir := 0x15, held := false, nonce := m.jtag.nonce, nonceGood := true } ∧
      m.jtag.nonce.length = 16 ∧ m = { s.m with jtag := m.jtag, out := m.out, freeCtr := m.freeCtr }) ∧
    (∀ proof,
      let good := j.nonceGood = true ∧ levelLocked s.m 2 = false ∧ (∃ b ∈ levelKey s.m 2, b ≠ 0) ∧
        proof = hmacSha256 (levelKey s.m 2) (ascii "M8-JTAG" ++ j.nonce ++ serialBytes s.m)
      (good → Ends (.jtagUnlock proof) s fun m => m = { s.m with jtag := { j with ir := 0x14, held := false, nonceGood := false, unlocked := true } }) ∧
      (¬good → Ends (.jtagUnlock proof) s fun m => m.jtag = { j with ir := 0x14, held := false, nonceGood := false } ∧
        m.dict.fails.get 0 2 = s.m.dict.fails.get 0 2 + 1 ∧
        m = { s.m with jtag := m.jtag, dict := { s.m.dict with fails := m.dict.fails, locks := m.dict.locks } })) ∧
    Ends .testLogicReset s (fun m => m = { s.m with jtag := { j with ir := 0x02, held := false, unlocked := false } }) ∧
    (∀ chain, j.unlocked = true ∧ s.m.dbg.stop = true → Ends (.jtagScan chain) s fun m =>
      m = { s.m with jtag := { j with ir := 0x12, held := false }, out := (match scanChains.find? fun c => c.1 == chain with
        | some c => [.tdo (chainBytes s.m c.1 c.2)]
        | none => []) ++ s.m.out }) ∧
    (∀ a len, j.unlocked = true ∧ s.m.dbg.stop = true →
      Ends (.jtagMemrd a len) s (out 0x13 (portBytes s.m (a % 2 ^ 48) (len % 2 ^ 24)))) ∧
    (∀ a len chain, j.unlocked = false ∨ s.m.dbg.stop = false →
      Ends (.jtagMemrd a len) s (fun m => m = { s.m with jtag := { j with ir := 0xFF, held := false } }) ∧
      Ends (.jtagScan chain) s (fun m => m = { s.m with jtag := { j with ir := 0xFF, held := false } }))

/-- While the block runs: COUNT_ENABLE 1 zeroes every operation counter and counts from 16 hub clocks on, 0 stops running counters in the same way; COUNT_SNAPSHOT holds the 38 counters of every tile and hub; WFG_NOW 1, and a running tile whose threads have made no progress for HANG_MS, start a graph where WFG_ENABLE is 1 and none is in progress: its trigger, its time and its first pass are recorded; 100 us later the second pass publishes WFG and the next graph may start; TMUX_SEL takes a signal of the table or 0xFFFF and the session that owns it; a change of the PCIe link is recorded and pulses source 0x187. -/
def Obligations.CountersGraphsAndTheTestMux : Prop :=
  ∀ (s : State), s.awake →
    let d := s.m.dbg
    Ends (.countEnable 1) s (fun m => (∀ k, m.dbg.counters.get 0 k = 0) ∧ m.dbg.countFrom = some (s.m.clk.hclk + 16) ∧
      m.dbg.countUntil = none ∧ (∀ i, i < 38 → odNat m (counterKey i) = 0) ∧ odNat m Od.COUNT_ENABLE = 1 ∧
      EntriesBut (Od.COUNT_ENABLE :: counterEntries) s.m m ∧ m = { s.m with dict := m.dict, dbg := m.dbg }) ∧
    (∀ c, d.countFrom = some c ∧ d.countUntil = none → Ends (.countEnable 0) s fun m =>
      m.dbg = { d with countUntil := some (s.m.clk.hclk + 16) } ∧ odNat m Od.COUNT_ENABLE = 0 ∧
      EntriesBut [Od.COUNT_ENABLE] s.m m ∧ m = { s.m with dict := m.dict, dbg := m.dbg }) ∧
    Ends .countSnapshot s (fun m => odBytes m Od.COUNT_SNAPSHOT = (List.range (68 * 38)).flatMap (fun i => natLe 8 (d.counters.get 0 i)) ∧
      EntriesBut [Od.COUNT_SNAPSHOT] s.m m ∧ m = { s.m with dict := m.dict }) ∧
    (odNat s.m Od.WFG_ENABLE = 1 ∧ d.wfgTrigger = none ∧ d.wfgFirstTime = none →
      Ends (.wfgNow 1) s (fun m => m.dbg.wfgTrigger = some (s.m.clk.now, 3) ∧ m.dbg.wfgFirstTime = some s.m.clk.now ∧
        m.dbg.wfgFirst = wfgEdges s.m ∧ m = { s.m with dbg := m.dbg }) ∧
      (∀ t, (getTile s.m t).st = .running ∧ allHalted (getTile s.m t) = false ∧
          d.lastProgress.get 0 t + odNat s.m Od.HANG_MS * 1000000 ≤ s.m.clk.now →
        Ends (.hangDetect t) s fun m => m.dbg.wfgTrigger = some (s.m.clk.now, 1) ∧ m.dbg.wfgFirstTime = some s.m.clk.now ∧
          m.dbg.wfgFirst = wfgEdges s.m ∧ m = { s.m with dbg := m.dbg })) ∧
    (∀ t k t1, d.wfgTrigger = some (t, k) ∧ d.wfgFirstTime = some t1 ∧ t1 + 100000 ≤ s.m.clk.now → Ends .wfgSecondPass s fun m =>
      odBytes m Od.WFG = wfgBytes t k d.wfgFirst (wfgEdges s.m) ∧ m.dbg = { d with wfgTrigger := none, wfgFirst := [], wfgFirstTime := none } ∧
      EntriesBut [Od.WFG] s.m m ∧ m = { s.m with dict := m.dict, dbg := m.dbg }) ∧
    (∀ o v sid, o < 4 ∧ (tmuxSignal v = true ∨ v = 0xFFFF) → Ends (.tmuxSel o v sid) s fun m =>
      odNat m (Od.TMUX_SEL + o) = v ∧ m.dbg = { d with tmuxOwner := d.tmuxOwner.set 0 (o + 1) sid } ∧
      EntriesBut [Od.TMUX_SEL + o] s.m m ∧ m = { s.m with dict := m.dict, dbg := m.dbg }) ∧
    (∀ up rate width, up = false ∨ 1 ≤ rate ∧ rate ≤ 6 ∧ width ∈ [1, 2, 4, 8, 16] → Ends (.pcieLinkChange up rate width) s fun m =>
      m.rings = { s.m.rings with linkUp := up, linkRate := if up then rate else 0, linkWidth := if up then width else 0 } ∧
      ((getSrc m 0x187).pending = true) ∧ EntriesBut [Od.INT_OVERRUNS] s.m m ∧
      m = { s.m with rings := m.rings, intc := m.intc, dict := m.dict })

/-- For an accepted request without data of a session whose level may read an entry that no other session holds: READ is answered with the value's bytes, of a DOMAIN with at most 1,024 bytes as the one segment with LAST, of a longer one with its first 1,024 bytes, and the entry is then held by the session; READ_NEXT of the session's own transfer is answered with the next 1,024 bytes, the last of them with LAST, which releases the hold; DESCRIBE, outside loader service, is answered with type, levels, persistence, maximum length, bounds of a numeric type and default. READ of an index that does not exist aborts 0x06020000, of a subindex that does not exist 0x06090011. The reply goes out on the request's path, the session keeps it, and nothing else changes but what reading the entry itself does. -/
def Obligations.DictionaryReadsAnswer : Prop :=
  ∀ (s : State) (q : DictMsg) (x : Session),
    let key := q.index * 256 + q.sub
    let a := accepted s.m x q
    (Serves s 1 q x →
      (odIndexExists q.index = false → Ends (.dictRead q) s (Replied 1 q x (.abort 0x06020000) a)) ∧
      (odIndexExists q.index = true ∧ odLookup q.index q.sub = none → Ends (.dictRead q) s (Replied 1 q x (.abort 0x06090011) a)) ∧
      (∀ e v d, odExists q.index q.sub = none ∧ odLookup q.index q.sub = some e ∧ readRight x e = none ∧
          q.data = [] ∧ heldByOther s.m key x.sid = none ∧ odRead a x key = .ok (v, d) →
        (e.ty ≠ .domain → Ends (.dictRead q) s (Replied 1 q x (.data (v.toBytes e.ty) false) d)) ∧
        (∀ b, e.ty = .domain ∧ v = .bytes b →
          (b.length ≤ 1024 → Ends (.dictRead q) s (Replied 1 q x (.data b true) (dropHold d key))) ∧
          (1024 < b.length → Ends (.dictRead q) s (Replied 1 q x (.data (b.take 1024) false)
            (addHold d { key := key, sid := x.sid, isWrite := false, off := 1024, staged := b, time := s.m.clk.now })))))) ∧
    (∀ e h, Serves s 3 q x ∧ odExists q.index q.sub = none ∧ odLookup q.index q.sub = some e ∧ readRight x e = none ∧ q.data = [] ∧
        heldByOther s.m key x.sid = none ∧ (s.m.dict.holds.find? fun h => h.key == key && h.sid == x.sid && !h.isWrite) = some h →
      (h.off + 1024 < h.staged.length → Ends (.readNext q) s (Replied 3 q x (.data ((h.staged.drop h.off).take 1024) false)
        (addHold a { h with off := h.off + 1024, time := s.m.clk.now }))) ∧
      (h.staged.length ≤ h.off + 1024 →
        Ends (.readNext q) s (Replied 3 q x (.data (h.staged.drop h.off) true) (dropHold a key)))) ∧
    (∀ e, Serves s 5 q x ∧ q.data = [] ∧ odExists q.index q.sub = none ∧ odLookup q.index q.sub = some e ∧ loaderRefuses s.m q.index = false →
      Ends (.describe q) s (Replied 5 q x (.data (natLe 1 e.ty.code ++ natLe 1 e.rl ++ natLe 1 e.wl ++ natLe 1 e.persist.code ++
        natLe 4 e.ty.maxLen ++ (if e.ty.numeric then natLe e.ty.size (unsigned (8 * e.ty.size) (odBounds e).1) ++
          natLe e.ty.size (unsigned (8 * e.ty.size) (odBounds e).2) else []) ++ (e.dflt.toBytes e.ty).take 1024) false) a))

/-- For an accepted WRITE that passes the checks of rights, length, hold, value and state, to an entry whose write has no effect of its own in its unit: an N entry holds the value, cut to its width, and the write is answered; a Y or YR entry stands and the write joins the persistent store's queue, unanswered; a DOMAIN segment without LAST is held for the session and answered; a write that collides in its hub clock with a better master's is answered 0x08000024 and recorded. WRITE_NEXT appends to the session's own transfer, and its LAST segment commits the whole. RESTORE_DEFAULTS is armed by its value; a key slot waits for its store as every Y entry. When a store ends well the entry and its stored copy hold the value and the writer is answered; when it fails the entry stands and the writer is told 0x08000022. -/
def Obligations.DictionaryWritesTakeTheirValue : Prop :=
  ∀ (s : State) (q : DictMsg) (x : Session),
    let key := q.index * 256 + q.sub
    let a := accepted s.m x q
    let stores := fun (op : Nat) (v : OdVal) (m : M8) => m = { dropHold a key with dict := { (dropHold a key).dict with
      stores := s.m.dict.stores ++ [{ key := key, val := v, master := x.path, sid := x.sid, seq := q.seq, op := op }] } }
    let plain := fun (v : OdVal) => ∀ d : M8, odEffect d x key v = d
    let writable := fun (e : OdEntry) => odExists q.index q.sub = none ∧ odLookup q.index q.sub = some e ∧
      writeRight x e = none ∧ lengthAbort e q.data.length = none ∧ heldByOther s.m key x.sid = none
    (∀ e rivals, Serves s 2 q x ∧ writable e ∧ (∀ r ∈ rivals, losesTo q r = false) →
      (e.ty = .domain ∧ q.flags = 0 → Ends (.dictWrite q rivals) s (Replied 2 q x (.data [] false)
        (addHold a { key := key, sid := x.sid, isWrite := true, off := 0, staged := q.data, time := s.m.clk.now }))) ∧
      (∀ v, (e.ty ≠ .domain ∨ q.flags = 1) ∧ v = OdVal.ofBytes e.ty q.data ∧ writeAbort odRules a x e key v = none →
        (e.persist = .n ∧ plain v → Ends (.dictWrite q rivals) s fun m => odGet m key = odFit key v ∧
          (∀ k, k ≠ key → odGet m k = odGet s.m k) ∧ Replied 2 q x (.data [] false) (odPut (dropHold a key) key v) m) ∧
        (e.persist = .y ∨ e.persist = .yr → Ends (.dictWrite q rivals) s (stores 2 v)))) ∧
    (∀ e rivals, Serves s 2 q x ∧ writable e ∧ e.ty ≠ .domain ∧ writeAbort odRules a x e key (OdVal.ofBytes e.ty q.data) = none ∧
        (∃ r ∈ rivals, rivalCounts s.m r = true ∧ losesTo q r = true) → Ends (.dictWrite q rivals) s fun m =>
      Replied 2 q x (.abort 0x08000024) (recordConflict a q) m ∧ (q.path < 256 → odNat m Od.CONFLICT_LOSER = q.path) ∧
      odNat m Od.CONFLICT_COUNT = (odNat s.m Od.CONFLICT_COUNT + 1) % 2 ^ 32 ∧ EntriesBut [Od.CONFLICT_COUNT, Od.CONFLICT_LAST,
        Od.CONFLICT_LOSER] s.m { m with dict := { m.dict with sessions := s.m.dict.sessions } }) ∧
    (∀ e h, Serves s 4 q x ∧ odExists q.index q.sub = none ∧ writeRight x e = none ∧ heldByOther s.m key x.sid = none ∧ (s.m.dict.holds.find? fun h => h.key == key && h.sid == x.sid && h.isWrite) = some h ∧
        odLookup q.index q.sub = some e ∧ lengthAbort e (h.staged ++ q.data).length = none →
      (q.flags = 0 → Ends (.writeNext q) s (Replied 4 q x (.data [] false)
        (addHold a { h with staged := h.staged ++ q.data, time := s.m.clk.now }))) ∧
      (q.flags = 1 ∧ (e.persist = .y ∨ e.persist = .yr) ∧ writeAbort odRules a x e key (.bytes (h.staged ++ q.data)) = none →
        Ends (.writeNext q) s (stores 4 (.bytes (h.staged ++ q.data))))) ∧
    (Serves s 2 q x ∧ q.index = 0x1011 ∧ q.sub = 1 ∧ 2 ≤ x.level ∧ x.level < 255 ∧ q.data = natLe 4 0x0DEF ∧ heldByOther s.m key x.sid = none ∧
        loaderRefuses s.m 0x1011 = false → Ends (.restoreDefaults q) s fun m => m.dict.restoreArmed = true ∧
      findSession m q.path q.session =
        some { x with seq := q.seq, active := s.m.clk.now, reply := (dictReply 2 q (some x.key) (.data [] false)) } ∧ m.tiles = s.m.tiles ∧ m.job = s.m.job ∧ m.dict.stored = s.m.dict.stored) ∧
    (Serves s 2 q x ∧ q.index = 0x1110 ∧ 1 ≤ q.sub ∧ q.sub ≤ 3 ∧ 2 ≤ x.level ∧ x.level < 255 ∧ q.data.length = 32 ∧ heldByOther s.m key x.sid = none →
      Ends (.keySlotWrite q) s (stores 2 (.bytes q.data))) ∧
    (∀ k r y, s.awake ∧ (s.m.dict.stores.find? fun r => r.key == k) = some r ∧ 2 ≤ r.master ∧
        findSession s.m r.master r.sid = some y ∧ (∀ d : M8, odEffect d y k r.val = d) →
      let msg : DictMsg := { path := r.master, seq := r.seq, session := r.sid, index := k / 256, sub := k % 256 }
      (Ends (.dictStoreComplete k true) s fun m => odGet m k = odFit k r.val ∧ Sparse.find m.dict.stored k = some (odFit k r.val) ∧
        (∀ k', k' ≠ k → odGet m k' = odGet s.m k') ∧ m.dict.stores = s.m.dict.stores.erase r ∧
        Sent r.master y.addr (dictReply r.op msg (some y.key) (.data [] false)) { s.m with dict := m.dict } m) ∧
      (Ends (.dictStoreComplete k false) s fun m => (∀ k', odGet m k' = odGet s.m k') ∧ m.dict.stored = s.m.dict.stored ∧
        m.dict.stores = s.m.dict.stores.erase r ∧
        Sent r.master y.addr (dictReply r.op msg (some y.key) (.abort 0x08000022)) { s.m with dict := m.dict } m))

/-- On a path whose service is on: HELLO at a level that is neither empty nor locked, with a place free, is answered with a fresh identifier and nonce and waits; a PROOF that matches the HELLO's ends it, opens the session with the key of R84 and clears the level's count; one that does not match ends the HELLO, counts against the level, locks it for AUTH_LOCKOUT at AUTH_FAIL_LIMIT, and is answered 0x05040001. An accepted CLOSE, and IDLE_TIMEOUT without a request, end the session and the transfers it holds and no other session; a HELLO lapses after 5 s, a hold after 1 s without a segment; at the end of a lockout the level's count is 0. The drawn identifier and nonce are free values (log entry 2). -/
def Obligations.SessionsOpenAndClose : Prop :=
  ∀ (s : State) (q : DictMsg), s.awake →
    let d := s.m.dict
    (∀ (key : Bytes), 2 ≤ q.path ∧ pathEnabled s.m q.path = true ∧ formOk q = true ∧ q.tag = zeros 16 →
      (q.session = 0 ∧ q.data.length = 17 ∧ leField q.data 0 1 ≤ 3 ∧ odNat s.m Od.POWER_STATE ≠ 1 ∧
          (leField q.data 0 1 < 3 → ∃ b ∈ levelKey s.m (leField q.data 0 1), b ≠ 0#8) ∧
          levelLocked s.m (leField q.data 0 1) = false ∧ placesUsed s.m q.path < pathPlaces s.m q.path → Ends (.hello q) s fun m =>
        ∃ sid nd, sid ≠ 0 ∧ nd.length = 16 ∧ (∀ y ∈ d.sessions, y.sid ≠ sid) ∧ (∀ y ∈ d.hellos, y.sid ≠ sid) ∧
          (let h : Hello := { path := q.path, addr := q.addr, level := leField q.data 0 1, sid := sid, nc := q.data.drop 1,
                              nd := nd, time := s.m.clk.now }
           m.dict = { d with hellos := d.hellos ++ [h] }) ∧
          Sent q.path q.addr (dictReply 0x10 q none (.data (natLe 4 sid ++ nd) false))
            { s.m with dict := m.dict, freeCtr := m.freeCtr } m) ∧
      (∀ h, q.data.length = 32 ∧ (d.hellos.find? fun h => h.sid == q.session && h.path == q.path) = some h ∧ key = levelKey s.m h.level →
        (clientProof key h = q.data → Ends (.proof q) s fun m =>
          (let x : Session := { path := h.path, addr := h.addr, level := h.level, sid := h.sid, key := sessionKey key h,
                                active := s.m.clk.now }
           m.dict = { d with hellos := d.hellos.filter (fun g => g.sid != h.sid), fails := m.dict.fails,
                             sessions := d.sessions ++ [x] }) ∧ m.dict.fails.get 0 h.level = 0 ∧
          (∀ l, l ≠ h.level → m.dict.fails.get 0 l = d.fails.get 0 l) ∧
          Sent q.path q.addr (dictReply 0x11 q none (.data (deviceProof key h) false)) { s.m with dict := m.dict } m) ∧
        (clientProof key h ≠ q.data → Ends (.proof q) s fun m =>
          m.dict = { d with hellos := d.hellos.filter (fun g => g.sid != h.sid), fails := m.dict.fails, locks := m.dict.locks } ∧
          m.dict.fails.get 0 h.level = d.fails.get 0 h.level + 1 ∧
          (d.fails.get 0 h.level + 1 < odNat s.m Od.AUTH_FAIL_LIMIT → m.dict.locks = d.locks) ∧
          (odNat s.m Od.AUTH_FAIL_LIMIT ≤ d.fails.get 0 h.level + 1 →
            Sparse.find m.dict.locks h.level = some (s.m.clk.now + odNat s.m Od.AUTH_LOCKOUT * 1000000)) ∧
          Sent q.path q.addr (dictReply 0x11 q none (.abort 0x05040001)) { s.m with dict := m.dict } m))) ∧
    (let closed := fun (sid : Nat) (m : M8) => (∀ y ∈ m.dict.sessions, y.sid ≠ sid) ∧ (∀ h ∈ m.dict.holds, h.sid ≠ sid) ∧
        (∀ path k, k ≠ sid → findSession m path k = findSession s.m path k) ∧ m.dict.hellos = d.hellos ∧ m.dict.stores = d.stores ∧
        m.tiles = s.m.tiles ∧ m.job = s.m.job;
      (∀ x, Serves s 0x12 q x ∧ q.data = [] → Ends (.close q) s (closed q.session)) ∧
      (∀ sid x, x ∈ d.sessions ∧ x.sid = sid ∧ x.active + odNat s.m Od.IDLE_TIMEOUT * 1000000 ≤ s.m.clk.now →
        Ends (.sessionIdleTimeout sid) s (closed sid))) ∧
    (∀ h, h ∈ d.hellos ∧ h.time + 5000000000 ≤ s.m.clk.now → Ends (.helloLapse h.sid) s fun m => h ∉ m.dict.hellos ∧
      (∀ g ∈ d.hellos, g.sid ≠ h.sid → g ∈ m.dict.hellos) ∧ m = { s.m with dict := { d with hellos := m.dict.hellos } }) ∧
    (∀ h, h ∈ d.holds ∧ h.time + 1000000000 ≤ s.m.clk.now → Ends (.domainHoldTimeout h.key) s fun m =>
      (∀ g ∈ m.dict.holds, g.key ≠ h.key) ∧ (∀ g ∈ d.holds, g.key ≠ h.key → g ∈ m.dict.holds) ∧
      m = { s.m with dict := { d with holds := m.dict.holds } }) ∧
    (∀ level t, Sparse.find d.locks level = some t ∧ t ≤ s.m.clk.now → Ends (.authLockoutEnd level) s fun m =>
      levelLocked m level = false ∧ m.dict.fails.get 0 level = 0 ∧
      (∀ l, l ≠ level → levelLocked m l = levelLocked s.m l ∧ m.dict.fails.get 0 l = d.fails.get 0 l) ∧
      m = { s.m with dict := { d with locks := m.dict.locks, fails := m.dict.fails } })

/-- A write of MBX_CTL takes REQ_LEN from bits 31:16 and IRQ_EN from bit 1. Without GO nothing else changes. GO while BUSY, with a REQ_LEN below 32 or above 1,056, or with the service off sets ERR and nothing else. Otherwise BUSY is set, DONE and RSP_LEN are cleared, and the message of REQ_LEN bytes in MBX_REQ does what the command of its OP does with the mailbox so: READ, WRITE, READ_NEXT, WRITE_NEXT, DESCRIBE, HELLO, PROOF and CLOSE. -/
def Obligations.MailboxSubmitsTheMessageInItsBuffer : Prop :=
  ∀ (s : State) (v : Nat), s.awake →
    let n := bits v 31 16
    let x : Mailbox := { s.m.mbx with reqLen := n, irqEn := v.testBit 1 }
    let go : Prop := s.m.mbx.busy = false ∧ 32 ≤ n ∧ n ≤ 1056 ∧ odInForce s.m Od.MBX_ENABLE = 1
    (v.testBit 0 = false → Ends (.mbxGo v) s fun m => m = { s.m with mbx := x }) ∧
    (v.testBit 0 = true ∧ ¬go → Ends (.mbxGo v) s fun m => m = { s.m with mbx := { x with err := true } }) ∧
    (∀ op q, v.testBit 0 = true ∧ go ∧ mbxMessage (readMemOnes s.m 0x030001008800 n) = (op, q.data.length, q) →
      let u : State := { s with m := { s.m with mbx := { x with busy := true, done := false, rspLen := 0 } } }
      let as := fun (c : Instr) => Ends (.mbxGo v) s fun m => exec c u = .next { s with m := m }
      (op = 1 → as (.dictRead q)) ∧ (op = 2 → as (.dictWrite q [])) ∧ (op = 3 → as (.readNext q)) ∧ (op = 4 → as (.writeNext q)) ∧
      (op = 5 → as (.describe q)) ∧ (op = 0x10 → as (.hello q)) ∧ (op = 0x11 → as (.proof q)) ∧ (op = 0x12 → as (.close q)))

/-- For a PCIe ring written by the host or a control core: ENABLE 1 in state 0 starts it with all indices 0 and phase 1, in state 3 is held, does nothing more in states 1 and 2, and is dropped with REFUSED where the CQ is smaller than the SQ; ENABLE 0 enters state 3 from 1 and 2, where every fetched command not started is posted and gone; with nothing in flight state 3 ends in state 0, or enabled where an ENABLE is held; a fabric ring is gone. RESTART is dropped outside state 2, held while a command is in flight, else the ring runs again, with DISCARD from its tail. A doorbell writes an index below the queue's size and is refused above. Another agent's write is an address error. -/
def Obligations.RingsAreEnabledStoppedAndRestarted : Prop :=
  ∀ (s : State) (agent k : Nat), s.awake →
    let x := getRing s.m k
    let y := { x with st := .running, enable := true, pendEnable := false, sqHead := 0, sqTail := 0, cqHead := 0, cqTail := 0, phase := true }
    (k < 64 ∧ (agent = 0x70 ∨ isCore agent = true) →
      (∀ irq, (x.st = .disabled ∧ x.sqLog ≤ x.cqLog → Ends (.ringEnable agent k irq) s (RingIs k { y with irqEn := irq } s.m)) ∧
        (x.st = .stopping ∧ x.sqLog ≤ x.cqLog →
          Ends (.ringEnable agent k irq) s (RingIs k { x with irqEn := irq, pendEnable := true, enable := true } s.m)) ∧
        ((x.st = .disabled ∨ x.st = .stopping) ∧ x.cqLog < x.sqLog →
          Ends (.ringEnable agent k irq) s (RingIs k { x with irqEn := irq, refused := true } s.m)) ∧
        (x.st = .running ∨ x.st = .frozen → Ends (.ringEnable agent k irq) s (RingIs k { x with irqEn := irq } s.m)) ∧
        (x.st = .disabled ∨ x.st = .stopping → Ends (.ringDisable agent k irq) s
          (RingIs k { x with irqEn := irq, enable := false, pendEnable := false, pendRestart := none } s.m)) ∧
        ((x.st = .running ∨ x.st = .frozen) ∧ (x.cmds.map RingCmd.seq).Nodup → Ends (.ringDisable agent k irq) s fun m =>
          (getRing m k).st = .stopping ∧ (getRing m k).enable = false ∧ (getRing m k).cmds = (x.cmds.filter fun c => c.started || c.silent) ∧
          (getRing m k).cqTail % 2 ^ x.cqLog = (x.cqTail + (x.cmds.filter fun c => !c.started && !c.silent).length) % 2 ^ x.cqLog ∧
          (∀ k', k' ≠ k → getRing m k' = getRing s.m k') ∧ m.mem = s.m.mem ∧ m.tiles = s.m.tiles)) ∧
      (∀ i, (i < 2 ^ x.sqLog → Ends (.sqTailDoorbell agent k i) s (RingIs k { x with sqTail := i } (sourceEdge s.m 0x187))) ∧
        (2 ^ x.sqLog ≤ i → Ends (.sqTailDoorbell agent k i) s (RingIs k { x with refused := true } (sourceEdge s.m 0x187))) ∧
        (i < 2 ^ x.cqLog → Ends (.cqHeadDoorbell agent k i) s (RingIs k { x with cqHead := i } (sourceEdge s.m 0x187))) ∧
        (2 ^ x.cqLog ≤ i → Ends (.cqHeadDoorbell agent k i) s (RingIs k { x with refused := true } (sourceEdge s.m 0x187)))) ∧
      (let restart := fun (c : Instr) (d : Bool) =>
        (x.st ≠ .frozen → Ends c s (RingIs k { x with refused := true } s.m)) ∧
        (x.st = .frozen ∧ x.inflight ≠ 0 → Ends c s (RingIs k { x with pendRestart := some d } s.m)) ∧
        (x.st = .frozen ∧ x.inflight = 0 ∧ (∀ e ∈ x.cmds, e.started = true) → Ends c s (RingIs k { x with
          st := .running, pendRestart := none, sqHead := if d then x.sqTail else x.sqHead, sqIn := if d then [] else x.sqIn } s.m));
       restart (.ringRestart agent k) false ∧ restart (.ringRestartDiscard agent k) true)) ∧
    (k < 64 ∧ agent ≠ 0x70 ∧ isCore agent = false →
      (∀ irq, Ends (.ringEnable agent k irq) s (AddressErrs agent (0x030001040014 + k * 0x40) s.m) ∧
        Ends (.ringDisable agent k irq) s (AddressErrs agent (0x030001040014 + k * 0x40) s.m)) ∧
      Ends (.ringRestart agent k) s (AddressErrs agent (0x030001040014 + k * 0x40) s.m) ∧
      Ends (.ringRestartDiscard agent k) s (AddressErrs agent (0x030001040014 + k * 0x40) s.m) ∧
      ∀ i, Ends (.sqTailDoorbell agent k i) s (AddressErrs agent (0x030001040020 + k * 0x40) s.m) ∧
        Ends (.cqHeadDoorbell agent k i) s (AddressErrs agent (0x030001040024 + k * 0x40) s.m)) ∧
    (x.st = .stopping ∧ x.inflight = 0 →
      (k < 1024 ∧ x.pendEnable = false → Ends (.ringShutdownDone k) s (RingIs k { x with st := .disabled } s.m)) ∧
      (k < 1024 ∧ x.pendEnable = true → Ends (.ringShutdownDone k) s (RingIs k y s.m)) ∧
      (1024 ≤ k → Ends (.ringShutdownDone k) s fun m => getRing m k = {} ∧ m.mem = s.m.mem ∧ m.tiles = s.m.tiles ∧
        ∀ k', k' ≠ k → getRing m k' = getRing s.m k'))

/-- A running ring with an entry and room in its CQ fetches the entry at its head, with the next command number; with nothing else fetched and starts allowed it starts at once, and an invalid entry is ready with its STATUS and FIELD_OFF. A started command: NOP ends with 0x0000; READ of a namespace range in a readable version puts the pages of that version into host memory and ends with 0x0000, past the namespace with 0x0010, of a version not held 0x0011, over an unreadable codeword 0x0016; WRITE stores its pages in pieces of 64 and ends with their number, with FUA waiting for durability; DISCARD and SECURE_DISCARD journal the unmapped range, SECURE_DISCARD of a pinned LPN ends with 0x0012; FLUSH waits for the writes before it; VERSION_SEAL journals a seal, with eight versions 0x0014; VERSION_RELEASE drops the version, of the pinned one 0x0012. -/
def Obligations.RingCommandsAreFetchedAndWorked : Prop :=
  ∀ (s : State) (k : Nat), s.awake →
    let x := getRing s.m k
    let is := fun (c : RingCmd) (m : M8) => RingIs k (putCmd x c) s.m m
    let fetched := fun (e : Bytes) (x : Ring) (m : M8) => m.rings.nextSeq = s.m.rings.nextSeq + 1 ∧
      (getRing m k).sqHead = (x.sqHead + 1) % 2 ^ x.sqLog ∧ (getRing m k).cmds.length = x.cmds.length + 1 ∧
      (∀ k', k' ≠ k → getRing m k' = getRing s.m k') ∧ m.mem = s.m.mem ∧ m.fl = s.m.fl ∧
      (x.cmds = [] ∧ mayStart s.m = true ∧ startedAll s.m < 4096 → ∃ c, (getRing m k).cmds = [c] ∧ c.seq = s.m.rings.nextSeq ∧
        c.entry = e ∧ c.cid = leField e 2 2 ∧ c.index = x.sqHead ∧ c.started = true ∧
        (∀ st off, entryFault s.m k c = some (st, off) → c.ready = true ∧ c.status = st ∧ c.fieldOff = off) ∧
        (entryFault s.m k c = none → c.ready = false ∧ c.worked = false))
    (∀ entry, k < 1024 ∧ x.st = .running ∧ x.sqHead ≠ x.sqTail ∧ cqRoom x = true ∧ s.m.rings.d0 = true →
      Ends (.sqFetch k entry) s (fetched (slice entry 0 64) x)) ∧
    (∀ entry e l, 1024 ≤ k ∧ x.st = .running ∧ x.sqIn = e :: l → Ends (.sqFetch k entry) s fun m =>
      fetched e x m ∧ (getRing m k).sqIn = l) ∧
    (∀ seq c, Works s k seq 0x00 c → Ends (.cmdNop k seq) s (is (c.finish 0 0))) ∧
    (∀ seq c, Works s k seq 0x14 c → Ends (.cmdFlush k seq) s (is { c with worked := true })) ∧
    (∀ seq c segs err fault, Works s k seq 0x10 c ∧ s.m.fl.mounted = true →
      (nsPages s.m < c.lpn + c.len → Ends (.cmdRead k seq segs err fault) s (is (c.finish 0x0010 0))) ∧
      (c.lpn + c.len ≤ nsPages s.m ∧ c.version ≠ 0 ∧ c.version ∉ s.m.fl.held → Ends (.cmdRead k seq segs err fault) s (is (c.finish 0x0011 0))) ∧
      (c.lpn + c.len ≤ nsPages s.m ∧ (c.version = 0 ∨ c.version ∈ s.m.fl.held) ∧ c.sgl = false →
        (fault = true → Ends (.cmdRead k seq segs err fault) s (is (c.finish 0x0016 0))) ∧
        (fault = false ∧ k < 1024 ∧ err = none → Ends (.cmdRead k seq segs err fault) s fun m =>
          let data := (List.range c.len).flatMap fun i => readLpn s.m.fl c.version (c.lpn + i)
          RingIs k (putCmd x (c.finish 0 0)) { s.m with out := .hostWrite c.addr (data.take (c.len * 4096)) :: s.m.out } m) ∧
        (∀ a, fault = false ∧ k < 1024 ∧ err = some a → Ends (.cmdRead k seq segs err fault) s
          (is ({ c with hostAddr := a }.finish 0x0003 0))) ∧
        (fault = false ∧ 1024 ≤ k → Ends (.cmdRead k seq segs err fault) s fun m =>
          findCmd (getRing m k) seq = some (c.finish 0 c.len) ∧ ∃ l, m.fab.units = s.m.fab.units ++ l ∧ l.length = c.len ∧
            ∀ f ∈ l, f.cls = 7 ∧ f.dst = x.peer ∧ f.payload.take 1 = [5#8]))) ∧
    (∀ seq c segs data, Works s k seq 0x11 c ∧ k < 1024 ∧ s.m.fl.mounted = true ∧ c.lpn + c.len ≤ nsPages s.m ∧ c.sgl = false ∧
        c.machine = false ∧ data.length = c.len * 4096 →
      (∀ n recs d, storePieces none 0 c.lpn (pieces64 c.len (chunks 4096 data)) s.m = (n, recs, 0, d) →
        (c.fua = false → Ends (.cmdWrite k seq segs data none none) s (RingIs k (putCmd x ({ c with recs := recs }.finish 0 n)) d)) ∧
        (c.fua = true → Ends (.cmdWrite k seq segs data none none) s
          (RingIs k (putCmd x { c with worked := true, result := n, recs := recs }) d))) ∧
      (∀ q d, 1 ≤ c.len ∧ c.len ≤ 64 ∧ writePiece s.m c.lpn (chunks 4096 data) = .ok (q, d) ∧
          (∀ b, (s.m.fl.streams.get {} 0).sb = some b → b < 1296) → Ends (.cmdWrite k seq segs data none none) s fun m =>
        ∃ r ∈ m.fl.recs, r.seq = q ∧ r.type = 1 ∧ r.first = c.lpn ∧ r.waits.length = c.len ∧
          r.ents = (r.waits.map fun p => mapEntry (some p)) ∧
          ∀ i (h : i < r.waits.length), m.fl.cw.get (0, []) r.waits[i] = (c.lpn + i, (data.drop (4096 * i)).take 4096))) ∧
    (∀ seq c recs d, Works s k seq 0x12 c ∧ s.m.fl.mounted = true ∧ c.lpn + c.len ≤ nsPages s.m ∧
        discardPieces 2 c.len c.lpn c.len s.m = (recs, 0, d) → Ends (.cmdDiscard k seq) s fun m =>
      RingIs k (putCmd x { c with worked := true, recs := recs }) d m ∧
      (1 ≤ c.len ∧ c.len ≤ 64 → ∃ r ∈ m.fl.recs, r.type = 2 ∧ r.first = c.lpn ∧ r.ents = List.replicate c.len 0)) ∧
    (∀ seq c, Works s k seq 0x13 c ∧ s.m.fl.mounted = true ∧ c.lpn + c.len ≤ nsPages s.m →
      (pinnedMaps s.m c.lpn c.len = true → Ends (.secureDiscard k seq) s (is (c.finish 0x0012 0))) ∧
      (∀ recs d, pinnedMaps s.m c.lpn c.len = false ∧ discardPieces 3 c.len c.lpn c.len s.m = (recs, 0, d) →
        Ends (.secureDiscard k seq) s fun m => findCmd (getRing m k) seq = some { c with worked := true, recs := recs } ∧
          m.fl.secure = d.fl.secure ++ [{ ring := k, seq := seq, sbs := copiesIn s.m.fl c.lpn c.len }] ∧ m.fl.map = d.fl.map)) ∧
    (∀ seq c, Works s k seq 0x15 c ∧ s.m.fl.mounted = true →
      (8 ≤ s.m.fl.held.length + sealsPending s.m.fl → Ends (.versionSeal k seq) s (is (c.finish 0x0014 0))) ∧
      (s.m.fl.held.length + sealsPending s.m.fl < 8 → Ends (.versionSeal k seq) s fun m =>
        m.fl.recs = s.m.fl.recs ++ [{ seq := s.m.fl.nextSeq, type := 5, version := s.m.fl.openVer }] ∧
        m.fl.nextSeq = s.m.fl.nextSeq + 1 ∧ m.fl.map = s.m.fl.map ∧
        getRing m k = (putCmd x { c with
          worked := true, result := s.m.fl.openVer + sealsPending s.m.fl, recs := [s.m.fl.nextSeq] }))) ∧
    (∀ seq c, Works s k seq 0x16 c ∧ s.m.fl.mounted = true →
      (c.version ∉ s.m.fl.held → Ends (.versionRelease k seq) s (is (c.finish 0x0011 0))) ∧
      (c.version ∈ s.m.fl.held ∧ s.m.job.loaded = true ∧ s.m.job.jr.datasetVersion = c.version →
        Ends (.versionRelease k seq) s (is (c.finish 0x0012 0))) ∧
      (c.version ∈ s.m.fl.held ∧ (s.m.job.loaded = false ∨ s.m.job.jr.datasetVersion ≠ c.version) →
        Ends (.versionRelease k seq) s fun m => getRing m k = putCmd x (c.finish 0 0) ∧
          m.fl = { s.m.fl with held := s.m.fl.held.filter (· != c.version), delta := m.fl.delta } ∧
          (∀ d, d ∈ m.fl.delta ↔ d ∈ s.m.fl.delta ∧ ∃ u ∈ m.fl.held, u ≤ d.version)))

/-- A ready command of a PCIe ring with nothing held back behind it: with STATUS 0x0000, 0x0030 or 0x0031 its CQ entry is written to the slot at the CQ's tail, the tail moves on, the phase turns over where it returns to 0, an MSI-X message follows where IRQ_EN is 1, and the command is gone; with an error STATUS, on a running ring without a held RESTART, the ring is frozen with the new ERR_SEQ, the error is the newest log entry and source 0x18C is pending. -/
def Obligations.RingCommandsComplete : Prop :=
  ∀ (s : State) (k seq : Nat) (c : RingCmd) (others : Bool), s.awake →
    let x := getRing s.m k
    k < 1024 ∧ findCmd x seq = some c ∧ c.ready = true ∧ c.silent = false ∧ (∀ d ∈ x.cmds, d.started = true) ∧ x.pendRestart = none →
      (errorStatus c.status = false → Ends (.cmdComplete k seq [] others) s fun m =>
        (let tail := (x.cqTail + 1) % 2 ^ x.cqLog
         getRing m k = { x with cmds := (x.cmds.filter fun d => d.seq != seq), cqTail := tail,
                                phase := if tail = 0 then !x.phase else x.phase }) ∧
        (∀ k', k' ≠ k → getRing m k' = getRing s.m k') ∧ m.mem = s.m.mem ∧ m.tiles = s.m.tiles ∧
        m.out = (if x.irqEn then [.msix x.vector] else []) ++ .hostWrite (x.cqBase + 16 * x.cqTail) (cqEntry x c x.phase) :: s.m.out ∧
        m.fl.map = s.m.fl.map ∧ m.fl.cw = s.m.fl.cw) ∧
      (errorStatus c.status = true ∧ x.st = .running → Ends (.cmdComplete k seq [] others) s fun m =>
        (getRing m k).st = .frozen ∧ (getRing m k).errSeq = (odNat s.m Od.ERR_SEQ_LAST + 1) % 2 ^ 32 ∧
        odNat m Od.ERR_SEQ_LAST = (odNat s.m Od.ERR_SEQ_LAST + 1) % 2 ^ 32 ∧ (∀ d ∈ (getRing m k).cmds, d.seq ≠ seq) ∧
        m.rings.log.getLast? = some (errEntry s.m k c ((odNat s.m Od.ERR_SEQ_LAST + 1) % 2 ^ 32)) ∧
        (getSrc m 0x18C).pending = true ∧ .hostWrite (x.cqBase + 16 * x.cqTail) (cqEntry x c x.phase) ∈ m.out ∧
        (∀ k', k' ≠ k → getRing m k' = getRing s.m k') ∧ m.mem = s.m.mem ∧ m.tiles = s.m.tiles)

/-- FLR disables every PCIe ring and the mailbox, closes every PCIe session, leaves fabric rings, memory and tiles, and source 0x187 is pending; PERST_N also resets the ring registers and takes the link down. A fabric ring opened by a session of its address with a size of 16 to 65,536 entries and a place free is a new running ring, answered by GRANT. Its SUBMIT entries within the credit join its queue; one beyond freezes a running ring. DATA lands in granted cells and is kept by CID. CLOSE enters state 3. RESTART by the ring's session runs a frozen idle ring again. A low-power entry holds while commands wait and else goes on. -/
def Obligations.EndpointResetsAndFabricRings : Prop :=
  ∀ (s : State), s.awake →
    (let reset := fun (m : M8) => (∀ k < 64, (getRing m k).st = .disabled ∧ (getRing m k).enable = false) ∧
        (∀ k, 64 ≤ k → getRing m k = getRing s.m k) ∧ (∀ x ∈ m.dict.sessions, x.path ≠ 3) ∧ (∀ h ∈ m.dict.hellos, h.path ≠ 3) ∧
        m.mbx = {} ∧ m.mem = s.m.mem ∧ m.tiles = s.m.tiles ∧ m.job = s.m.job;
      (Ends .flr s fun m => reset m ∧ (getSrc m 0x187).pending = true ∧
        ∀ k < 64, (getRing m k).sqBase = (getRing s.m k).sqBase ∧ ∀ c ∈ (getRing m k).cmds, c.silent = true ∧ c.started = true) ∧
      (Ends .perstN s fun m => reset m ∧ m.rings.linkUp = false ∧ m.rings.linkRate = 0 ∧ m.rings.linkWidth = 0 ∧
        ∀ k < 64, getRing m k = { cmds := (getRing m k).cmds })) ∧
    (∀ src payload x, (s.m.dict.sessions.find? fun x => x.sid == leField payload 8 4 && x.path == 2 && x.addr == src) = some x ∧
        ringFrameOk s.m x.sid src payload = true ∧ x.sid = leField payload 8 4 →
      let log := leField payload 12 1
      (4 ≤ log ∧ log ≤ 16 ∧ (fabricOpen s.m).length < odInForce s.m Od.FABRIC_RINGS_MAX ∧ (fabricOpen s.m).length < 256 →
        Ends (.fabricRingOpen src payload) s fun m => ∃ k f, 1024 ≤ k ∧ k < 1280 ∧ k ∉ fabricOpen s.m ∧
          getRing m k = { st := .running, enable := true, sqLog := log, cqLog := log, sess := x.sid, peer := src, eseq := 1 } ∧
          (∀ k', k' ≠ k → getRing m k' = getRing s.m k') ∧ m.fab.units = s.m.fab.units ++ [f] ∧ f.dst = src ∧ f.cls = 7 ∧
          f.flow = k - 1024 ∧ f.payload.take 1 = [2#8]) ∧
      ((log < 4 ∨ 16 < log) → Ends (.fabricRingOpen src payload) s fun m => ∃ f, m = { s.m with fab := { s.m.fab with
        units := s.m.fab.units ++ [f] } } ∧ f.dst = src ∧ f.payload.take 1 = [7#8] ∧ (f.payload.drop 8).take 4 = natLe 4 0x05040005)) ∧
    (∀ src payload k, frameRing s.m src payload = some k →
      let x := getRing s.m k
      let es := (chunks 64 (ringBody payload)).take (leField payload 1 1)
      let cid := leField payload 6 2
      (x.st ≠ .stopping ∧ es.length ≤ x.credit → Ends (.fabricRingSubmit src payload) s (RingIs k { x with sqIn := x.sqIn ++ es } s.m)) ∧
      (x.st = .running ∧ x.credit < es.length → Ends (.fabricRingSubmit src payload) s fun m =>
        (getRing m k).st = .frozen ∧ (getRing m k).sqIn = x.sqIn ++ es.take x.credit ∧ (getSrc m 0x18C).pending = true ∧
        odNat m Od.ERR_SEQ_LAST = (odNat s.m Od.ERR_SEQ_LAST + 1) % 2 ^ 32 ∧ m.mem = s.m.mem ∧ m.tiles = s.m.tiles) ∧
      (∀ pieces, grantable s.m 0 0 { id := s.m.hubs.nextHold, owner := 3, cells := ceilDiv (ringBody payload).length 512, chain := true } =
          some pieces → Ends (.fabricRingData src payload) s fun m =>
        (getRing m k).data.get [] cid = x.data.get [] cid ++ ringBody payload ∧
        s.m.hubs.nextHold ∈ (getRing m k).holds.get [] cid ∧ (getRing m k).cmds = x.cmds ∧ (getRing m k).st = x.st ∧
        (∃ h ∈ (getPool m 0 0).held, h.id = s.m.hubs.nextHold ∧ h.pieces = pieces ∧ h.names = [3]) ∧
        (∀ k', k' ≠ k → getRing m k' = getRing s.m k') ∧ m.sync = s.m.sync) ∧
      (x.st = .running ∨ x.st = .frozen → Ends (.fabricRingClose src payload) s fun m =>
        (getRing m k).st = .stopping ∧ (getRing m k).enable = false ∧ m.mem = s.m.mem ∧ m.tiles = s.m.tiles ∧
        (∀ k', k' ≠ k → getRing m k' = getRing s.m k'))) ∧
    (∀ sid n d, n < 65536 →
      let x := getRing s.m (1024 + n)
      s.m.rings.rings.has (1024 + n) = true ∧ x.sess = sid ∧ x.st = .frozen ∧ x.inflight = 0 ∧ (∀ e ∈ x.cmds, e.started = true) →
      Ends (.fabricRingRestart sid (n + b2n d * 65536)) s (RingIs (1024 + n) { x with
        st := .running, pendRestart := none, sqHead := if d then x.sqTail else x.sqHead, sqIn := if d then [] else x.sqIn } s.m)) ∧
    (odNat s.m Od.POWER_STATE = 1 →
      (ringsBusy s.m = false → Ends .lpHoldPoint s fun m => m = { s.m with rings := { s.m.rings with atHold := false } }) ∧
      (ringsBusy s.m = true → Ends .lpHoldPoint s fun m => m.rings.atHold = true ∧ m.mem = s.m.mem ∧ m.tiles = s.m.tiles ∧
        (∀ k, (getRing m k).st = (getRing s.m k).st ∧ (getRing m k).cmds.length = (getRing s.m k).cmds.length)))

/-- Where a load may run: JOB_LOAD of an image and record that pass every check leaves state Armed with the job, its identity, each tile of the mask loaded with its instruction words and threads, and the device unfenced; with a code of R141 it leaves Failed with that code and no tile, no byte of memory and no sync object changed. JOB_STOP of a running job enters Draining. A drained job, or an unload in Done or Failed, whose tiles have nothing running leaves Idle, no job, and tiles empty or quarantined. AUDIT_LOAD that passes starts the mask's tiles, or ends at once where nothing is to be computed or the identity differs; JOB_STATE stays Idle. An audit ends with status 7 when a tile has trapped, else with the status R294 gives what was packed. -/
def Obligations.JobsLoadDrainAndUnload : Prop :=
  ∀ (s : State) (image rec : Bytes) (cmd : Option (Nat × Nat)) (d : M8),
    let tiles := fun (d : M8) => maskTiles d.job.img.tileMask
    let idle := fun (d : M8) => ∀ t ∈ tiles d, (getTile d t).st = .quarantined ∨ (getTile d t).st = .empty ∨
      (getTile d t).dispQ = [] ∧ (getTile d t).cells = []
    let gone := fun (m : M8) => jobState m = 0 ∧ m.job.loaded = false ∧ m.pav.running = false ∧
      ∀ t ∈ tiles d, (getTile m t).st = .empty ∨ (getTile m t).st = .quarantined
    (Takes s cmd 0x20 false d ∧ loadAllowed s.m = true → Ends (.jobLoad cmd image rec none) s fun m =>
      match jobCode (enterJobState d 1) image rec with
      | (0, _) => jobState m = 2 ∧ m.job.loaded = true ∧ m.job.jr = jobRecOf rec ∧ m.job.img = imageTables image ∧
          odNat m Od.JOB_ID = jobIdOf rec % 2 ^ 64 ∧ odNat m Od.JOB_FAIL = 0 ∧ m.grp.fenced = false ∧ m.pav.armedAt = s.m.clk.now ∧
          (∀ t ∈ maskTiles (imageTables image).tileMask, (getTile m t).st = .loaded ∧ (getTile m t).ilen = (codeWords image t).length ∧
            (getTile m t).initThreads = threadTable image t ∧ (getTile m t).retired = (getTile s.m t).retired) ∧
          (∀ t, t ∉ maskTiles (imageTables image).tileMask → getTile m t = getTile s.m t)
      | (c, _) => jobState m = 6 ∧ odNat m Od.JOB_FAIL = c % 2 ^ 16 ∧ m.job = s.m.job ∧ m.tiles = s.m.tiles ∧ m.mem = s.m.mem ∧ m.sync = s.m.sync) ∧
    (Takes s cmd 0x20 true d ∧ loadAllowed s.m = true → Ends (.auditLoad cmd image rec none) s fun m =>
      match auditCode (odSet d Od.AUDIT_STATE 1) image rec with
      | (0, _) => jobState m = 0 ∧ m.job.loaded = true ∧ m.job.audit = true ∧ m.job.auditRec = rec.take 64 ∧
          (odNat m Od.AUDIT_STATE = 2 ∧ (∀ t ∈ maskTiles (imageTables image).tileMask, (getTile m t).st = .running) ∨
            odNat m Od.AUDIT_STATE = 3 ∧ odNat m Od.AUDITS = (odNat s.m Od.AUDITS + 1) % 2 ^ 32)
      | (c, _) => odNat m Od.AUDIT_STATE = 0 ∧ odNat m Od.JOB_FAIL = c % 2 ^ 16 ∧ m.tiles = s.m.tiles ∧ m.mem = s.m.mem ∧ m.sync = s.m.sync) ∧
    (Takes s cmd 0x21 false d ∧ jobState s.m = 3 → Ends (.jobStop cmd) s fun m =>
      jobState m = 4 ∧ EntriesBut [Od.JOB_STATE] d m ∧ m = { d with dict := m.dict, dbg := { d.dbg with rings := m.dbg.rings } }) ∧
    (Takes s cmd 0x22 false d ∧ unloadAllowed s.m = true ∧ idle s.m → Ends (.jobUnload cmd) s gone) ∧
    (s.awake ∧ d = s.m ∧ jobState s.m = 4 ∧ drained s.m = true ∧ idle s.m → Ends .drainComplete s gone) ∧
    (s.awake ∧ odNat s.m Od.AUDIT_STATE = 2 →
      let done := fun (status reason value : Nat) (data : Bytes) (m : M8) => odNat m Od.AUDIT_STATE = 3 ∧
        odBytes m Od.AUDIT_OUT = auditResult s.m status reason value data ∧ odNat m Od.AUDITS = (odNat s.m Od.AUDITS + 1) % 2 ^ 32 ∧
        EntriesBut [Od.AUDIT_STATE, Od.AUDIT_OUT, Od.AUDITS] s.m m ∧ m = { s.m with dict := m.dict }
      (∀ cause, auditTrap s.m = some cause → Ends .auditComplete s (done 7 cause 0 [])) ∧
      (∀ n r k reason vary term data, auditTrap s.m = none ∧ auditMode s.m ≠ 2 ∧ auditSlotsOf s.m = some [(n, r, k)] ∧
          auditSlot s.m k = some (reason, vary, term, data) ∧ term < 2 ^ 64 →
        let flags := leField s.m.job.auditRec 1 1
        Ends .auditComplete s (done (if reason ≠ 0 then 3 else if vary then 4 else if flags.testBit 1 = false then 2
          else if term = leField s.m.job.auditRec 32 8 then 0 else 1) reason term data)))

/-- A programmed word line makes the one before it durable, the last of a block itself too, and the next one starts; a journal record whose word line is durable is ready, a codeword's record waits for it no more. A pad is programmed FUA_PAD_US after the last word line with nothing waiting. The oldest record not yet durable, once ready, is applied: a host write or discard gives its LPNs their entries and no other LPN; a move changes its LPN's entry only where it still names the old place; TYPE 4 gives the directory its copy, TYPE 5 seals the open version, TYPE 7 is the new start of the journal; JOURNAL_SEQ follows. A miss loads its page, evicting the least recent clean one; a dirty page is handed to the map stream; a checkpoint is journaled when due; MOUNT applies what was durable. -/
def Obligations.FlashMapsWhatItsJournalMakesDurable : Prop :=
  ∀ (s : State), s.awake →
    let x := s.m.fl
    let only := fun (m : M8) => m = { s.m with fl := m.fl }
    (∀ k, k < 5 ∧ (x.streams.get {} k).busy = true →
      let st := x.streams.get {} k
      let last := (st.wl + 1) % 736 = 0
      let dur := if last then st.last ++ st.prog else st.last
      Ends (.wordlineProgramDone k) s fun m => only m ∧ m.fl.map = x.map ∧ m.fl.cw = x.cw ∧
        (m.fl.streams.get {} k).wl = st.wl + 1 ∧ (m.fl.streams.get {} k).doneAt = s.m.clk.now ∧
        (m.fl.streams.get {} k).last = (if last then [] else st.prog) ∧
        (∀ seq, FlashItem.record seq ∈ dur ∧ seq < x.nextSeq → ∀ r ∈ m.fl.recs, r.seq = seq → r.ready = true) ∧
        (∀ p seq, FlashItem.data p seq ∈ dur ∧ seq < x.nextSeq → ∀ r ∈ m.fl.recs, r.seq = seq → p ∉ r.waits)) ∧
    (∀ k, let st := x.streams.get {} k
      k < 5 ∧ st.busy = false ∧ st.buf = [] ∧ st.last ≠ [] ∧ st.doneAt + 1000 * odNat s.m Od.FUA_PAD_US ≤ s.m.clk.now →
      Ends (.fuaPadTimeout k) s fun m => only m ∧ m.fl = { x with streams := m.fl.streams } ∧
        m.fl.streams.get {} k = { st with busy := true, prog := [.pad] } ∧
        ∀ k', k' ≠ k → m.fl.streams.get {} k' = x.streams.get {} k') ∧
    (∀ r, nextRec x = some r ∧ r.ready = true →
      let applied := fun (m : M8) => odNat m Od.JOURNAL_SEQ = r.seq % 2 ^ 64 ∧ m.fl.cw = x.cw ∧ m = { s.m with fl := m.fl, dict := m.dict } ∧
        EntriesBut [Od.JOURNAL_SEQ, Od.OPEN_VERSION, Od.VERSIONS_HELD, Od.MAP_WRITEBACKS] s.m m ∧
        ∀ q ∈ m.fl.recs, q.seq = r.seq → q.durable = true
      (r.type = 1 ∧ r.olds = [] ∨ r.type = 2 ∨ r.type = 3 → Ends .journalRecordDurable s fun m => applied m ∧
        (∀ i < r.ents.length, m.fl.map.find (r.first + i) = r.phys i) ∧
        (∀ l, l < r.first ∨ r.first + r.ents.length ≤ l → m.fl.map.find l = x.map.find l)) ∧
      (∀ old p, r.type = 1 ∧ r.olds = [old] ∧ r.phys 0 = some p → Ends .journalRecordDurable s fun m => applied m ∧
        m.fl.map.find r.first = (if x.map.find r.first = some old then some p else x.map.find r.first) ∧
        ∀ l, l ≠ r.first → m.fl.map.find l = x.map.find l) ∧
      (∀ p, r.type = 4 ∧ r.phys 0 = some p → Ends .journalRecordDurable s fun m => applied m ∧ m.fl.map = x.map ∧
        m.fl.dir.find r.first = some { addr := p, seq := r.olds.headD 0, version := r.version, ents := r.pageEnts } ∧
        odNat m Od.MAP_WRITEBACKS = (odNat s.m Od.MAP_WRITEBACKS + 1) % 2 ^ 64) ∧
      (r.type = 5 → Ends .journalRecordDurable s fun m => applied m ∧ m.fl.map = x.map ∧ m.fl.held = x.held ++ [x.openVer] ∧
        m.fl.openVer = x.openVer + 1 ∧ odNat m Od.OPEN_VERSION = (x.openVer + 1) % 2 ^ 32) ∧
      (r.type = 7 → Ends .journalRecordDurable s fun m => applied m ∧ m.fl.map = x.map ∧ m.fl.checkpointSeq = r.seq ∧
        m.fl.checkpointAt = s.m.clk.now ∧ ∀ q ∈ m.fl.recs, r.seq ≤ q.seq)) ∧
    (∀ g, x.cache.has g = false →
      (x.cache.length < cacheSlots s.m → Ends (.mapCacheMiss g) s fun m => m.fl.cache.find g = some { lastUse := s.m.clk.now } ∧
        (∀ h, h ≠ g → m.fl.cache.find h = x.cache.find h) ∧ odNat m Od.MAP_MISSES = (odNat s.m Od.MAP_MISSES + 1) % 2 ^ 64 ∧
        EntriesBut [Od.MAP_MISSES] s.m m ∧ m = { s.m with fl := { x with cache := m.fl.cache }, dict := m.dict }) ∧
      (∀ v, cacheSlots s.m ≤ x.cache.length ∧ evictable x = some v → Ends (.mapCacheMiss g) s fun m =>
        m.fl.cache.find g = some { lastUse := s.m.clk.now } ∧ (v ≠ g → m.fl.cache.find v = none) ∧
        (∀ h, h ≠ g ∧ h ≠ v → m.fl.cache.find h = x.cache.find h) ∧ EntriesBut [Od.MAP_MISSES] s.m m ∧
        m = { s.m with fl := { x with cache := m.fl.cache }, dict := m.dict })) ∧
    (∀ g c p d, x.cache.find g = some c ∧ c.dirty = true ∧ c.writing = false ∧ takePlace x 3 = (some p, d) →
      Ends (.mapWriteback g) s fun m => only m ∧ m.fl.cache.find g = some { c with writing := true } ∧ m.fl.map = x.map ∧
        FlashItem.mapPage g p c.seq (pageEnts d g) ∈ (m.fl.streams.get {} 3).prog ++ (m.fl.streams.get {} 3).buf) ∧
    (checkpointDue s.m = true ∧ (∀ r ∈ x.recs, r.type = 7 → r.durable = true) → Ends .checkpoint s fun m => only m ∧
      m.fl.recs = x.recs ++ [{ seq := x.nextSeq, type := 7, version := x.openVer }] ∧ m.fl.nextSeq = x.nextSeq + 1 ∧ m.fl.map = x.map) ∧
    (x.mounted = false → Ends .mount s fun m => m.fl.mounted = true ∧ (∀ r ∈ m.fl.recs, r.durable = true) ∧ m.fl.cw = x.cw ∧
      (x.recs = [] → m.fl.map = dirMap x) ∧ odNat m Od.JOURNAL_SEQ = (m.fl.nextSeq - 1) % 2 ^ 64 ∧ m = { s.m with fl := m.fl, dict := m.dict })

/-- Below GC_LOW free superblocks a victim is picked, and none while enough are free and no secure discard waits. A valid codeword of the victim is copied to the collection stream, its map entry standing until its record is durable; an empty victim is erased; an erased superblock is free, its wear one higher, its codewords gone and secure discards rid of it. A failed block is retired, counted, and its channel's source is pending. A channel trains at 3,600 MT/s, at 2,800 MT/s degraded, or is retired with its dies. Every second the health record takes the temperature and counts its bin. -/
def Obligations.FlashCollectsErasesAndRetires : Prop :=
  ∀ (s : State), s.awake →
    let x := s.m.fl
    (x.victim = none →
      (freeSbs x < odNat s.m Od.GC_LOW → Ends .gcStart s fun m => m = { s.m with fl := { x with gcOn := true, victim := pickVictim s.m } }) ∧
      (odNat s.m Od.GC_LOW ≤ freeSbs x ∧ x.gcOn = false ∧ x.secure = [] → Ends .gcStart s fun m => m = s.m) ∧
      (odNat s.m Od.GC_LOW ≤ freeSbs x ∧ odNat s.m Od.GC_HIGH ≤ freeSbs x ∧ x.secure ≠ [] → Ends .gcStart s fun m =>
        m = { s.m with fl := { x with gcOn := false, victim := pickVictim s.m } })) ∧
    (∀ v, x.victim = some v →
      (∀ e p d, ((validIn x v).find? fun e => !(movesFrom x).contains e.2) = some e ∧ takePlace x 1 = (some p, d) → Ends .gcMove s fun m =>
        m.fl.cw.get (0, []) p = (e.1, (d.cw.get (0, []) e.2).2) ∧ m.fl.map = x.map ∧
        FlashItem.moved p e.2 e.1 ∈ (m.fl.streams.get {} 1).prog ++ (m.fl.streams.get {} 1).buf ∧
        odNat m Od.GC_BYTES_MOVED = (odNat s.m Od.GC_BYTES_MOVED + 4096) % 2 ^ 64 ∧ EntriesBut [Od.GC_BYTES_MOVED] s.m m ∧
        m = { s.m with fl := m.fl, dict := m.dict }) ∧
      (validIn x v = [] ∧ pagesIn x v = [] → Ends .gcMove s fun m => (m.fl.sbs.get {} v).st = .erasing ∧
        (∀ b, b ≠ v → m.fl.sbs.get {} b = x.sbs.get {} b) ∧
        m = { s.m with fl := { x with sbs := m.fl.sbs }, out := .flashOp 0 "ERASE" v :: s.m.out })) ∧
    (∀ b, (x.sbs.get {} b).st = .erasing → Ends (.blockEraseDone b) s fun m =>
      m.fl.sbs.get {} b = { st := .free, erases := (x.sbs.get {} b).erases + 1 } ∧ (∀ b', b' ≠ b → m.fl.sbs.get {} b' = x.sbs.get {} b') ∧
      (∀ c, c ∈ m.fl.cw ↔ c ∈ x.cw ∧ physBlock c.1 ≠ b) ∧ m.fl.victim = (if x.victim = some b then none else x.victim) ∧
      m.fl.secure = (x.secure.map fun q => { q with sbs := q.sbs.erase b }) ∧ m.fl.map = x.map ∧ m = { s.m with fl := m.fl }) ∧
    (∀ block erase, block ∉ x.retired ∧ bits block 23 17 < 128 → Ends (.blockFail block erase) s fun m =>
      m.fl.retired = block :: x.retired ∧ m.fl.health.retiredBlocks = x.health.retiredBlocks + 1 ∧ m.fl.map = x.map ∧
      m.fl.health.err.get 0 (if erase then 5 else 4) = x.health.err.get 0 (if erase then 5 else 4) + 1 ∧
      (block < 2 ^ 24 → (getSrc m (0x17A + block / 2 ^ 17 / 16)).pending = true) ∧
      m = { s.m with fl := m.fl, intc := m.intc, dict := m.dict }) ∧
    (∀ c ok, c < 128 ∧ x.chanRate.find c ≠ some 0 →
      (Ends (.channelTraining c true ok) s fun m => m.fl.trained.get false c = true ∧ m.fl.chanRate.find c = none ∧
        (∀ c', c' ≠ c → m.fl.chanRate.find c' = x.chanRate.find c') ∧ m = { s.m with fl := m.fl }) ∧
      (Ends (.channelTraining c false true) s fun m => m.fl.trained.get false c = true ∧ m.fl.chanRate.find c = some 2800 ∧
        m.fl.health.degraded = x.health.degraded + (if x.chanRate.find c = some 2800 then 0 else 1) ∧
        (getSrc m (0x17A + c / 16)).pending = true ∧ m = { s.m with fl := m.fl, intc := m.intc, dict := m.dict }) ∧
      (Ends (.channelTraining c false false) s fun m => m.fl.trained.get false c = false ∧ m.fl.chanRate.find c = some 0 ∧
        m.fl.health.retiredDies = x.health.retiredDies + 16 ∧ (getSrc m (0x17A + c / 16)).pending = true ∧ m.mem = s.m.mem ∧
        (jobLoaded s.m = true ∧ s.m.grp.own ≠ [] → m.grp.fenced = true))) ∧
    (∀ t, x.healthAt + 1000000000 ≤ s.m.clk.now → Ends (.healthUpdate t) s fun m =>
      m.fl.healthAt = s.m.clk.now ∧ m.fl.health.tempNow = t ∧ m.fl.health.tempMax = max x.health.tempMax t ∧
      m.fl.health.bins.get 0 (tempBin t) = x.health.bins.get 0 (tempBin t) + 1 ∧ odBytes m Od.HEALTH = healthRecord m ∧
      (∀ k, k ≠ Od.HEALTH → odGet m k = odGet s.m k) ∧ m = { s.m with fl := { x with healthAt := s.m.clk.now, health := m.fl.health }, dict := m.dict })

/-- The holder of a stripe's parity keeps a contribution that comes after a gap; one in order, with none waiting, is applied once: its SEQ and page are kept and the parity page is written anew with the contribution XORed in; the same page under the same SEQ is not applied again. With K other chunks of its stripe at hand, a codeword is rebuilt and handed to the collection stream in place of the failed one, counted as class 2; with fewer, class 3 counts and the device, holding a role of a loaded job, fences itself. -/
def Obligations.ParityAndRebuiltCodewords : Prop :=
  ∀ (s : State), s.awake →
    let x := s.m.fl
    let k := ecK s.m
    (∀ member chunk page seq before data q, 
      let st := (stripeOf (max 1 k) (max 1 (groupW s.m)) member chunk).1
      let key := st * 64 + member
      let p := x.parity.get {} key
      ((List.range (ecM s.m)).find? fun q => holdsRole s.m (parityMember k (groupW s.m) st q)) = some q ∧ p.waiting = [] →
        (p.seq < before → Ends (.parityContribution member chunk page seq before data) s fun m =>
          m.fl.parity.get {} key = { p with waiting := [(seq, before, page, data)] } ∧ m.fl.cw = x.cw ∧
          (∀ k', k' ≠ key → m.fl.parity.get {} k' = x.parity.get {} k') ∧ m = { s.m with fl := m.fl }) ∧
        (before ≤ p.seq ∧ (seq < p.seq ∨ seq = p.seq ∧ page ∈ p.pages) → Ends (.parityContribution member chunk page seq before data) s fun m =>
          m.fl.parity.get {} key = p ∧ m.fl.cw = x.cw ∧ m.fl.recs = x.recs ∧ m = { s.m with fl := m.fl }) ∧
        (∀ n d, before ≤ p.seq ∧ (p.seq < seq ∨ seq = p.seq ∧ page ∉ p.pages) ∧
            (let lpn := parityLpn (ecM s.m) (st / max 1 (groupW s.m)) q page
             writePiece s.m lpn [xorBytes (readLpn x 0 lpn) data] = .ok (n, d)) →
          Ends (.parityContribution member chunk page seq before data) s fun m =>
            m.fl.parity.get {} key = (if seq = p.seq then { p with pages := page :: p.pages } else { p with seq := seq, pages := [page] }) ∧
            m.fl.recs = d.fl.recs ∧ m.fl.cw = d.fl.cw ∧ m.fl.map = x.map ∧ m.mem = s.m.mem ∧ m.tiles = s.m.tiles)) ∧
    (∀ lpn pos pages old, x.map.find lpn = some old →
      let good := pages.filter fun p => p.1 != pos && p.2.length == 4096 && p.1 < k + ecM s.m
      (∀ p d, k ≤ (good.map Prod.fst).eraseDups.length ∧ takePlace x 1 = (some p, d) → Ends (.codewordRebuild lpn pos pages) s fun m =>
        m.fl.cw.get (0, []) p = (lpn, rsRebuild k (ecM s.m) pos good) ∧ m.fl.map = x.map ∧
        FlashItem.moved p old lpn ∈ (m.fl.streams.get {} 1).prog ++ (m.fl.streams.get {} 1).buf ∧
        m.fl.health.err.get 0 2 = x.health.err.get 0 2 + 1 ∧ m = { s.m with fl := m.fl }) ∧
      ((good.map Prod.fst).eraseDups.length < k → Ends (.codewordRebuild lpn pos pages) s fun m =>
        m.fl.health.err.get 0 3 = x.health.err.get 0 3 + 1 ∧ m.fl.cw = x.cw ∧ m.fl.map = x.map ∧ m.mem = s.m.mem ∧
        (jobLoaded s.m = true ∧ s.m.grp.own ≠ [] → m.grp.fenced = true)))

/-- When a thread may issue and the tile's queue has room: behind a PLACE that waits, a FETCH (plain, cached or first-responder) with a valid descriptor, a NOTE, a QUAR or a CFILL joins the queue as its last request, with the descriptor read, the thread's VARY and, for a FETCH, its completion counter; the thread goes on. A PLACE joins behind another or an empty queue, its FLAGS byte written with VARY and its write counted as not acknowledged. With an empty queue a SLOT_DONE notice is held for its canaries and another notice is sent; a QUAR is counted and logged. A completion object that is no counter of the tile traps 0x0C, a counter among the firmware's objects 0x04, an invalid descriptor 0x0B for FETCH and 0x0A for PLACE. SUBST registers a layout once. DEDUP answers the index the table holds for a hash, or enters its candidate in the first free of at most 16 entries, or counts DEDUP_FULL; in an audit it answers its candidate. -/
def Obligations.MovementRequestsQueueInOrder : Prop :=
  ∀ (s : State) (t th : Nat) (f : RFields), Issues s t th →
    let x := getTile s.m t
    let y := getThread s.m t th
    let a := (y.reg f.sa).toNat
    let c := compRef y f
    let r0 : Request := { id := x.nextReq, thread := th, addr := (localToPkg t a).getD 0, counter := c, vary := y.vary }
    let fetches := [(Instr.fetch t th f, ReqKind.fetch false false), (.fetchCached t th f, .fetch true false),
      (.fetchFirst t th f, .fetch (f.func.testBit 1) true)]
    ((queuedReqs x).length < 256 →
      (∀ h, (queuedReqs x).head? = some h ∧ h.kind = .place →
        (∀ b, cellRead s.m t a 40 = .ok b →
          (∀ p ∈ fetches, a % 8 = 0 ∧ fetchDescOk s.m b = true ∧ ownCounter s.m t c = true → Ends p.1 s
            (Requested t th f (x.reqQ ++ [{ r0 with kind := p.2, desc := b }]) x.placesOut s.m)) ∧
          Ends (.note t th f) s (Requested t th f (x.reqQ ++ [{ r0 with kind := .note ((y.reg f.sb).toNat % 65536), addr := 0, counter := 0, desc := b }])
            x.placesOut s.m)) ∧
        (∀ b, cellRead s.m t a 32 = .ok b → Ends (.cfill t th f) s
          (Requested t th f (x.reqQ ++ [{ r0 with kind := .cfill, counter := 0, vary := false, desc := b }]) x.placesOut s.m)) ∧
        Ends (.quar t th f) s (Requested t th f
          (x.reqQ ++ [{ r0 with kind := .quar f.func (a % 2 ^ 48) (f.imm % 256), addr := 0, counter := 0, vary := false }]) x.placesOut s.m)) ∧
      (∀ b, cellRead s.m t a 40 = .ok b →
        ((∀ h, (queuedReqs x).head? = some h → h.kind = .place) ∧ a % 8 = 0 ∧ placeDescOk s.m b = true ∧ ownCounter s.m t c = true →
          Ends (.place t th f) s (Requested t th f (x.reqQ ++ [{ r0 with kind := .place, desc := b }]) (x.placesOut ++ [x.nextReq])
            (writeMem s.m (r0.addr + 22) (natLe 1 (b2n y.vary))))) ∧
        (ownCounter s.m t c = true →
          (∀ p ∈ fetches, a % 8 ≠ 0 ∨ fetchDescOk s.m b = false → Ends p.1 s (Traps t th 0x0B y.pc a s.m)) ∧
          (a % 8 ≠ 0 ∨ placeDescOk s.m b = false → Ends (.place t th f) s (Traps t th 0x0A y.pc a s.m))) ∧
        (queuedReqs x = [] ∧ s.m.grp.fenced = false ∧ s.m.job.audit = false →
          let dst := (y.reg f.sb).toNat % 65536
          let b' := if y.vary then patch b 2 (natLe 1 (leField b 2 1 ||| 1)) else b
          let held : HeldNotice := { hub := t / 16, tile := t, dst := dst, payload := b', heldAt := s.m.clk.now }
          let frame : UnitFrame := { dst := dst, cls := 0x5, flow := leField b 16 4 % 65536, payload := b }
          let sends := fun d => Ends (.note t th f) s (Requested t th f (x.reqQ.filter fun q => q.id != x.nextReq) x.placesOut d)
          (leField b 0 1 = 1 → sends { s.m with safe := { s.m.safe with held := s.m.safe.held ++ [held] } }) ∧
          (leField b 0 1 ≠ 1 → sends { s.m with fab := { s.m.fab with units := s.m.fab.units ++ [frame] } }))) ∧
      (ownCounter s.m t c = false → ∀ p ∈ (Instr.place t th f, ReqKind.place) :: fetches, Ends p.1 s (Traps t th (if c / 4096 = t ∧ (getSync s.m c).kind = 1 then 0x04 else 0x0C) y.pc c s.m)) ∧
      (queuedReqs x = [] → Ends (.quar t th f) s fun m =>
        let n := quarStep s.m (a % 2 ^ 48)
        odNat m Od.QUARANTINED = (odNat s.m Od.QUARANTINED + 1) % 2 ^ 64 ∧ (getThread m t th).pc = y.pc + 8 ∧
        m.job.quarLog.getLast? = some (quarEntry s.m t (a % 2 ^ 48) n (epochOf s.m n) (f.imm % 256) f.func 0xFFFFFFFF) ∧
        m.mem = s.m.mem ∧ m.fl = s.m.fl)) ∧
    Ends (.subst t th f) s (Writes t th f 0 0 (y.pc + 8) { s.m with job := { s.m.job with
      substLayouts := if a % 65536 ∈ s.m.job.substLayouts then s.m.job.substLayouts else s.m.job.substLayouts ++ [a % 65536] } }) ∧
    (∀ h, cellRead s.m t a 32 = .ok h →
      let cand := (y.reg f.sb).toNat % 2 ^ 48
      let n := s.m.job.img.dedupEntries
      let at_ := fun k => (leField h 0 8 + k) % max 1 n
      let busy := fun k => ∃ e, s.m.job.dedup.find (at_ k) = some e ∧ e.1 ≠ h
      let done := fun (v : Nat) (d : M8) => Ends (.dedup t th f) s (Writes t th f f.sd (BitVec.ofNat 64 v) (y.pc + 8) d)
      (s.m.job.audit = true → done cand s.m) ∧
      (s.m.job.audit = false → (∀ k < min 16 n, (∀ j < k, busy j) →
          (∀ e, s.m.job.dedup.find (at_ k) = some e ∧ e.1 = h → done e.2 s.m) ∧
          (s.m.job.dedup.find (at_ k) = none →
            done cand { s.m with job := { s.m.job with dedup := s.m.job.dedup.put (at_ k) (h, cand) } })) ∧
        ((∀ k < min 16 n, busy k) → done cand (odInc s.m Od.DEDUP_FULL))))

/-- A fetch that stands alone at the head of its tile's queue, or again after a failed hit, and that need not end before any read, is admitted when every die it touches has room, and waits else; one too long for CAP completes unread with STATUS 0x0100. Before T_FIX has passed since its admission nothing happens. Then an extent that came from elsewhere and is too long is quarantined; one longer than CAP completes with STATUS 0x0100 and LENGTH 0; else its bytes go to DEST, STATUS 0 and LENGTH are written and the request is gone. A fill whose source has been copied stands as packed bytes in its cells, leaves the tile and queues for a lane. -/
def Obligations.FetchesAndFillsComplete : Prop :=
  ∀ (s : State) (t req : Nat) (r : Request), s.awake → findReq s.m t req = some r →
    let e := sampleEntry s.m (leField r.desc 0 6)
    let ends := fun (status len : Nat) (d m : M8) => m.mem = (writeMem d (r.addr + 20) (natLe 4 status ++ natLe 4 len)).mem ∧
      findReq m t req = none ∧ m.fl = s.m.fl ∧
      ((getSync s.m r.counter).kind = 1 → (getSync m r.counter).value = ((getSync s.m r.counter).value + 1) % 2 ^ 64)
    (schedulable s.m t r = true ∧ (∀ q ∈ queuedReqs (getTile s.m t), q.id = req) → Ends (.flashFetchAdmit t req) s fun m =>
      if sampleLocal s.m (leField r.desc 0 6) = true ∧ maxCoded s.m (entryStream e) < entryLength e then
        findReq m t req = none ∧ odNat m Od.QUARANTINED = (odNat s.m Od.QUARANTINED + 1) % 2 ^ 64
      else if sampleLocal s.m (leField r.desc 0 6) = true ∧ leField r.desc 16 4 < entryLength e then ends 0x0100 0 s.m m
      else if diesFree s.m r = true then
        (getTile m t).reqQ = ((getTile s.m t).reqQ.map fun q => if q.id = req then { r with phase := .flash, admitTime := s.m.clk.now } else q) ∧
        (∀ t', t' ≠ t → getTile m t' = getTile s.m t') ∧ m.fl.map = s.m.fl.map ∧ m.fl.cw = s.m.fl.cw ∧
        m = { s.m with tiles := m.tiles, fl := m.fl, dict := m.dict }
      else m = s.m) ∧
    (∀ other, r.phase = .flash → Ends (.fetchComplete t req other) s fun m =>
      let loc := sampleLocal s.m (leField r.desc 0 6)
      let first := match r.kind with
        | .fetch _ g => g && !s.m.job.audit
        | _ => false
      let b := if loc = true ∧ (first = false ∨ other = []) then
          readNs s.m.fl s.m.job.jr.datasetVersion (4096 * entryLpn e) (entryLength e) else other
      if s.m.clk.now < r.admitTime + (1200000 + ceilDiv (ceilDiv b.length 4096) 64 * 20000) then m = s.m
      else if loc = false ∧ maxCoded s.m (leField r.desc 6 1) < b.length then
        findReq m t req = none ∧ odNat m Od.QUARANTINED = (odNat s.m Od.QUARANTINED + 1) % 2 ^ 64
      else if leField r.desc 16 4 < b.length then ends 0x0100 0 s.m m
      else ends 0 b.length (match localToPkg t (leField r.desc 8 8) with
        | some p => writeMem s.m p b
        | none => s.m) m) ∧
    (r.phase = .copying → Ends (.cfillCopyDone t req) s fun m =>
      m.mem = (match localToPkg t (leField r.desc 24 8), findHold s.m (t / 16) 0 r.hold with
        | some p, some h => writeSpans s.m (holdSpans s.m (t / 16) 0 h) (packedTensor s.m p (imgAt r.desc 8))
        | _, _ => s.m).mem ∧
      (getTile m t).reqQ = ((getTile s.m t).reqQ.filter fun q => q.id != req) ∧ (∀ t', t' ≠ t → getTile m t' = getTile s.m t') ∧
      (let fill : FillJob := ⟨r.slot, leField r.desc 0 6, leField r.desc 6 1, slice r.desc 8 16, r.hold⟩
       (getCodec m (t / 16)).fills = (getCodec s.m (t / 16)).fills ++ [fill]) ∧
      (∀ h, h ≠ t / 16 → getCodec m h = getCodec s.m h) ∧ m = { s.m with mem := m.mem, tiles := m.tiles, hubs := m.hubs })

/-- When a thread may issue, DISP with room, a counter of the tile and a descriptor that passes every check puts the dispatch last in the tile's queue and goes on; another completion object traps 0x0C (a counter of the tile among the firmware's objects 0x04), a failed check 0x09. On a running tile the next item starts on a cell that is neither retired nor busy, and nothing starts on another; a cell whose item's work is done is free when it finishes; the dispatch counts the item; with its last item, of a primitive other than RANGE_PROJ and without an audit's tap, the dispatch leaves the queue and its counter gains 1. -/
def Obligations.DispatchesRunTheirItems : Prop :=
  ∀ (s : State), s.awake →
    (∀ t th f, Issues s t th →
      let x := getTile s.m t
      let y := getThread s.m t th
      let a := (y.reg f.sa).toNat
      let c := compRef y f
      let p := (localToPkg t a).getD 0
      (ownCounter s.m t c = false → Ends (.disp t th f) s (Traps t th (if c / 4096 = t ∧ (getSync s.m c).kind = 1 then 0x04 else 0x0C) y.pc c s.m)) ∧
      (∀ b, ownCounter s.m t c = true ∧ (x.dispQ.filter Dispatch.queued).length < 64 ∧ cellRead s.m t a 128 = .ok b →
        let good := a % 16 = 0 ∧ sramOrHbm p = true ∧ dispatchOk s.m t b = true
        let y' := { y with pc := y.pc + 8, tstate := .ready, wait := .none, vary := f.nd || y.vary }
        let d : Dispatch := { id := x.nextDisp, thread := th, pc := y.pc, addr := p, desc := b, counter := c, waitFills := openFills x }
        (good → Ends (.disp t th f) s (TileIs t { x with
          threads := x.threads.set {} th y', lastIssue := th, nextDisp := x.nextDisp + 1, dispQ := x.dispQ ++ [d] } s.m)) ∧
        (¬good → Ends (.disp t th f) s (Traps t th 0x09 y.pc a s.m)))) ∧
    (∀ t cell,
      let x := getTile s.m t
      (∀ d i, x.st = .running ∧ cell < 16 ∧ x.retired.testBit cell = false ∧ x.cells.has cell = false ∧ nextItem x = some (d, i) ∧
          (t = 0 → x.safeTest = false) → Ends (.dispatchItemStart t cell) s fun m =>
        getTile m t = { putDispatch x d.handOut with cells := x.cells.put cell { disp := d.id, item := i } } ∧
        (∀ t', t' ≠ t → getTile m t' = getTile s.m t') ∧ m = { s.m with tiles := m.tiles }) ∧
      (x.retired.testBit cell = true ∨ x.cells.has cell = true ∨ x.st ≠ .running ∨ nextItem x = none →
        Ends (.dispatchItemStart t cell) s fun m => m = s.m) ∧
      (∀ r d, x.st = .running ∧ x.cells.find cell = some r ∧ r.worked = true ∧ (x.dispQ.find? fun d => d.id == r.disp) = some d →
        (d.finished + 1 ≠ (descOf d.desc).items → Ends (.itemFinish t cell) s
          (TileIs t (putDispatch { x with cells := x.cells.drop cell } { d with finished := d.finished + 1 }) s.m)) ∧
        (d.finished + 1 = (descOf d.desc).items ∧ (descOf d.desc).prim ≠ 0x0050 ∧ s.m.job.tap = none → Ends (.itemFinish t cell) s fun m =>
          (getTile m t).cells = x.cells.drop cell ∧ (getTile m t).dispQ = (x.dispQ.filter fun q => q.id != d.id) ∧
          ((getSync s.m d.counter).kind = 1 → (getSync m d.counter).value = ((getSync s.m d.counter).value + 1) % 2 ^ 64) ∧
          (∀ k, k ≠ d.counter → getSync m k = getSync s.m k) ∧ m = { s.m with tiles := m.tiles, sync := m.sync, dbg := m.dbg, dict := m.dict })) ∧
      (∀ r, x.cells.find cell = some r ∧ r.worked = false → Ends (.itemFinish t cell) s fun m => m = s.m))

/-- The work of an item on a cell. IDCT8, CCONV, CROP_RESIZE, RAND_CROP, FLIP_ROT, PHOTO, NOISE, NORM and CHECK write the bytes their rule gives and the STATUS word and nothing else; RANGE_PROJ keeps the smallest key of each pixel; VOXEL sets its planes to 0 first, and applies its updates; GATE writes status 0 and the gate record of an extent that passes, which the tile remembers, or the reason of one that fails, which is quarantined; JPEG_DECODE writes the image of an extent that decodes, and of one that does not free bytes. The item's work has then passed its last check. An access to a hole or to the firmware reserve traps the running tile 0x04 with the thread and PC of the DISP, and the item writes nothing. A cell without such an item changes nothing. -/
def Obligations.ItemsWriteWhatTheirPrimitiveGives : Prop :=
  ∀ (s : State) (t cell : Nat), s.awake →
    let plain := [(Instr.idct8Item t cell, 0x0011, idctItem), (.cconvItem t cell, 0x0020, cconvItem), (.cropResizeItem t cell, 0x0030, cropItem),
      (.randCropItem t cell, 0x0031, randCropItem), (.flipRotItem t cell, 0x0032, flipItem), (.photoItem t cell, 0x0040, photoItem),
      (.noiseItem t cell, 0x0041, noiseItem), (.normItem t cell, 0x0060, normItem), (.checkItem t cell, 0x0070, checkItem)]
    let x := getTile s.m t
    let marked := x.cells.adjust cell fun r => { r with worked := true }
    let writes := fun (e : Desc) (i : Nat) (o : ItemOut) => o.writes ++ (if e.status = 0 then [] else [(e.status + 4 * i, natLe 4 o.status)])
    let allowed := fun (e : Desc) (i : Nat) (o : ItemOut) => writesAllowed t (writes e i o) = .ok ()
    let written := fun (e : Desc) (i : Nat) (o : ItemOut) => (writes e i o).foldl (fun m w => cellWrite m t w.1 w.2) s.m
    let does := fun (x' : Tile) (d m : M8) => getTile m t = { x' with cells := marked } ∧ (∀ t', t' ≠ t → getTile m t' = getTile s.m t') ∧
      m.mem = d.mem ∧ m = { s.m with mem := m.mem, tiles := m.tiles }
    let trapped := fun (d : Dispatch) (m : M8) => (getTile m t).cells = x.cells.drop cell ∧ (getTile m t).st = .trapped ∧ m.mem = s.m.mem ∧
      (x.trapValid = false → (getTile m t).trapThread = d.thread ∧ (getTile m t).trapPc = d.pc ∧ (getTile m t).trapCause = 0x04)
    (∀ p ∈ plain, ∀ d i, itemAt s.m t cell p.2.1 = some (d, i) →
      (∀ o, p.2.2 s.m t (descOf d.desc) i = .ok o ∧ allowed (descOf d.desc) i o → Ends p.1 s (does x (written (descOf d.desc) i o))) ∧
      (∀ a, p.2.2 s.m t (descOf d.desc) i = .error a ∧ x.st = .running → Ends p.1 s (trapped d))) ∧
    (∀ p ∈ plain, itemAt s.m t cell p.2.1 = none → Ends p.1 s fun m => m = s.m) ∧
    (∀ d i us, itemAt s.m t cell 0x0050 = some (d, i) ∧ rangeUpdates s.m t (descOf d.desc) i = .ok us ∧
        ((outExtents (descOf d.desc)).mapM fun e => cellWritable t e.1 e.2).toOption.isSome = true ∧ allowed (descOf d.desc) i {} →
      Ends (.rangeProjItem t cell) s (does (putDispatch x { d with keys := applyRange d.keys us }) (written (descOf d.desc) i {}))) ∧
    (∀ d i us, itemAt s.m t cell 0x0051 = some (d, i) ∧ voxelUpdates s.m t (descOf d.desc) i = .ok us ∧
        ((outExtents (descOf d.desc)).mapM fun e => cellWritable t e.1 e.2).toOption.isSome = true ∧ allowed (descOf d.desc) i {} →
      Ends (.voxelItem t cell) s (does (putDispatch x { d with zeroed := true }) (us.foldl (fun m u => voxelApply m t (descOf d.desc) u)
        (if d.zeroed then written (descOf d.desc) i {}
         else (outExtents (descOf d.desc)).foldl (fun m e => cellWrite m t e.1 (zeros e.2)) (written (descOf d.desc) i {}))))) ∧
    (∀ d i len ext, itemAt s.m t cell 0x0001 = some (d, i) →
      let e := descOf d.desc
      let k := e.par 8 1
      let z := s.m.job.img.streams.getD k {}
      let out := e.outAddr + i * e.outStride
      gateInputs s.m t e i z = .ok (len, ext) →
        (∀ rec, gateExtent z (e.par 9 1) (e.par 12 4) len ext = .pass rec ∧ allowed e i { writes := [(out, rec)] } → Ends (.gateItem t cell) s
          (does { x with gates := x.gates.put out (k, len) } (written e i { writes := [(out, rec)] }))) ∧
        (∀ tag reason off, gateTag s.m t e i = .ok tag ∧ gateExtent z (e.par 9 1) (e.par 12 4) len ext = .fail reason off ∧ allowed e i { status := reason } →
          Ends (.gateItem t cell) s fun m => m.mem = (written e i { status := reason }).mem ∧
            odNat m Od.QUARANTINED = (odNat s.m Od.QUARANTINED + 1) % 2 ^ 64 ∧ m.job.quarLog.getLast? =
              some (quarEntry s.m t (leField tag 0 6) (leField tag 6 6) (leField tag 12 3) reason k off))) ∧
    (∀ d i rec ext, itemAt s.m t cell 0x0010 = some (d, i) →
      let e := descOf d.desc
      let g := (x.gates.find e.inAddr).getD (0, 0)
      let o := jpegItem e i rec ext (s.m.job.img.streams.getD g.1 {}).maxScans
      cellRead s.m t e.inAddr (gateRecLen s.m t e.inAddr) = .ok rec ∧ cellRead s.m t (e.par 8 8) g.2 = .ok ext ∧
          cellWritable t e.outAddr (e.img 16).extent = .ok () ∧ allowed e i o →
        Ends (.jpegDecodeItem t cell) s fun m => (getTile m t).cells = marked ∧
          (o.status = 0 → m.mem = (written e i o).mem ∧ m.freeCtr = s.m.freeCtr) ∧
          (o.status ≠ 0 → m.freeCtr = s.m.freeCtr + (e.img 16).extent) ∧
          m = { s.m with mem := m.mem, tiles := m.tiles, freeCtr := m.freeCtr })

/-- Under implicit release the buffer of a target is released once the timebase has reached it and the seal NBUF steps back is issued, and not before. A credit word is stored; one that is not newer than the last does nothing more; one before its step's seal counts CREDIT_EARLY; one without a usable key counts CREDIT_BAD; another releases the buffers up to its step and gives the key. CREDIT_STALL_STEPS without a credit count once and raise the source. The PLACE at the head of a queue is packed into its cells, its term computed over the bytes and stored in the descriptor; other requests are not. A packed slot is not written before it may go; one held for packet life counts once; one of the readback area stands in memory and is acknowledged; another is handed to its connection under its buffer's key; one no grant covers is not sent and counts BOUNDS_BLOCKED. -/
def Obligations.BuffersCreditsAndSlotWrites : Prop :=
  ∀ (s : State), s.awake →
    let j := s.m.job
    (∀ r n, r < j.jr.ranks.length →
      let k := rankOf s.m r
      let x := getRank s.m r
      (k.credit = 0 →
        (s.m.pav.tb / 65536 + k.nbuf < n + 1 → Ends (.bufferRelease r n) s fun m => m = s.m) ∧
        (s.m.pav.running = true ∧ isTarget s.m n = true ∧ n + 1 ≤ s.m.pav.tb / 65536 + k.nbuf ∧
            (n < j.jr.firstStep + k.nbuf ∨ ownsRank s.m r = true → n < j.jr.firstStep + k.nbuf ∨ sealedTo s.m (n - k.nbuf) r = true) →
          Ends (.bufferRelease r n) s fun m => bufFree m r n = true ∧ RankIs r { x with released := (getRank m r).released } s.m m ∧
            m = { s.m with job := m.job })) ∧
      (jobLoaded s.m = true → ∀ w,
        let n := expandStep (x.sealedTo.getD j.jr.firstStep) (w % 2 ^ 32)
        let key := w / 2 ^ 32 % 2 ^ 32
        let d := writeMem s.m (j.creditArea + 8 * r) (natLe 8 w)
        let fresh := k.credit ≠ 0 ∧ (∀ c, x.credit = some c → c < n) ∧ (x.credit = none → j.jr.firstStep ≤ n)
        let early := ownsRank s.m r = true ∧ sealedTo s.m n r = false
        (¬fresh → Ends (.creditWrite r w) s fun m => m = d) ∧
        (fresh ∧ early → Ends (.creditWrite r w) s (CountsUp Od.CREDIT_EARLY 32 d)) ∧
        (fresh ∧ ¬early ∧ creditKeyOk s.m r n key = false → Ends (.creditWrite r w) s (CountsUp Od.CREDIT_BAD 32 d)) ∧
        (fresh ∧ ¬early ∧ creditKeyOk s.m r n key = true → Ends (.creditWrite r w) s fun m =>
          RankIs r { x with credit := some n, creditStep := s.m.pav.tb / 65536, stallCounted := false,
                            keys := x.keys.put (bufOf s.m r n) key } s.m m ∧
          m.mem = d.mem ∧ (∀ i, i ≠ 0x149 → getSrc m i = getSrc s.m i) ∧ EntriesBut [Od.INT_OVERRUNS] s.m m ∧
          m = { s.m with mem := m.mem, job := m.job, intc := m.intc, dict := m.dict })) ∧
      (k.credit = 1 ∧ s.m.pav.running = true →
        (x.stallCounted = true → Ends (.creditStall r) s fun m => m = s.m) ∧
        (x.stallCounted = false ∧ max x.creditStep (j.jr.firstStep - j.img.lead) + odNat s.m Od.CREDIT_STALL_STEPS ≤ s.m.pav.tb / 65536 →
          Ends (.creditStall r) s fun m => RankIs r { x with stallCounted := true } s.m m ∧
            odNat m Od.CREDIT_WAITS = (odNat s.m Od.CREDIT_WAITS + 1) % 2 ^ 32 ∧ (getSrc m 0x149).line = true ∧
            (∀ i, i ≠ 0x149 → getSrc m i = getSrc s.m i) ∧ EntriesBut [Od.CREDIT_WAITS, Od.INT_OVERRUNS] s.m m ∧
            m = { s.m with job := m.job, intc := m.intc, dict := m.dict }))) ∧
    (∀ t req, (∀ r, (queuedReqs (getTile s.m t)).head? = some r → r.id ≠ req ∨ r.kind ≠ .place) →
      Ends (.cotillionPack t req) s fun m => m = s.m) ∧
    (∀ t r h p, (queuedReqs (getTile s.m t)).head? = some r ∧ r.kind = .place ∧ (∀ q ∈ queuedReqs (getTile s.m t), q.id = r.id) →
      let b := r.desc
      let n := leField b 8 6
      let rk := leField b 14 2
      let k := leField b 16 4
      let lay := leField b 20 2
      let l := layoutOf (j.img.layouts.getD lay [])
      let data := packLayout l fun off => leNat (readMemOnes s.m (p + off) (elemSize l.srcType))
      let term := crc64xz (natLe 6 n ++ natLe 2 rk ++ natLe 4 k ++ natLe 3 (epochOf s.m n) ++ natLe 1 lay ++ data)
      let y := getThread s.m t r.thread
      let slot : PackedSlot := { tile := t, step := n, rank := rk, slot := k, sample := leField b 24 6, mayVary := r.vary, term := term, data := data }
      let own := packOwner (entryStream (sampleEntry s.m (leField b 24 6)))
      (r.hold ≠ 0 ∧ findHold s.m (t / 16) 0 r.hold = some h ∧ localToPkg t (leField b 0 8) = some p ∧ j.audit = false ∧
          (n, rk, k) ∉ j.never ∧ fanoutPorts s.m rk = [] ∧ l.format < 15 →
        Ends (.cotillionPack t r.id) s fun m =>
          m.job.packed = j.packed ++ [{ slot with id := j.nextId, chan := if y.locked then some y.channel else none,
                                                  hold := some (t / 16, h.id, own), req := r.id }] ∧
          m.mem = (writeMem (writeSpans s.m (holdSpans s.m (t / 16) 0 h) data) (r.addr + 32) (natLe 8 term)).mem ∧
          (getTile m t).reqQ = ((getTile s.m t).reqQ.map fun q => if q.id = r.id then { r with phase := .packing } else q) ∧
          (∀ t', t' ≠ t → getTile m t' = getTile s.m t') ∧
          m = { s.m with mem := m.mem, tiles := m.tiles, job := m.job, dbg := m.dbg, dict := m.dict })) ∧
    (∀ id p, findPacked s.m id = some p →
      let k := rankOf s.m p.rank
      let a := slotAddr k p.step p.slot
      let covered := granted s.m k.conn (bufKeyOf s.m p.rank p.step) a p.data.length 1
      (¬SlotMayGo s p → Ends (.slotWriteIssue id) s fun m => m = s.m) ∧
      (SlotMayGo s p ∧ lifeHold s.m p = true →
        (p.id ∈ s.m.rem.lifeHeld → Ends (.slotWriteIssue id) s fun m => m = s.m) ∧
        (p.id ∉ s.m.rem.lifeHeld → Ends (.slotWriteIssue id) s
          (CountsUp Od.LIFE_HOLDS 32 { s.m with rem := { s.m.rem with lifeHeld := p.id :: s.m.rem.lifeHeld } }))) ∧
      (SlotMayGo s p ∧ lifeHold s.m p = false →
        (k.kind = 1 ∧ p.reason = 0 → Ends (.slotWriteIssue id) s fun m =>
          m.mem = (writeMem s.m (partBase s.m 1 + a) p.data).mem ∧ m.job.fenceAt.find p.step = some s.m.pav.tb ∧
          findPacked m id = some { p with issued := true, acked := true, data := [], hold := none } ∧
          m = { s.m with mem := m.mem, job := m.job, tiles := m.tiles, sync := m.sync, dbg := m.dbg, hubs := m.hubs, rem := m.rem }) ∧
        (k.kind ≠ 1 ∧ covered = true ∧ givenUp s.m k.conn = false → Ends (.slotWriteIssue id) s fun m =>
          Handed k.conn (bufKeyOf s.m p.rank p.step) a p.data (.slot p.id) s.m m ∧ findPacked m id = some { p with issued := true } ∧
          m.mem = s.m.mem) ∧
        (k.kind ≠ 1 ∧ covered = false → Ends (.slotWriteIssue id) s fun m =>
          m.rem.msgs = s.m.rem.msgs ∧ odNat m Od.BOUNDS_BLOCKED = (odNat s.m Od.BOUNDS_BLOCKED + 1) % 2 ^ 32 ∧ m.mem = s.m.mem ∧
          m.safe.reacting = true)))

/-- A SLOT_DONE notice of the loaded job for an owned rank's target enters the bitmap, the digest sum and the exceptions; the same term again counts DUP_NOTICES; another term withholds the commit, SEAL_HOLD is 1 and a detection counts; any other notice does nothing. A commit that is ready writes its exceptions and the first 56 bytes of its record, one that is not does nothing. A seal that is ready writes the last 8 bytes, the step is committed to the rank and COMMITS counts; under R543 it is refused. A CANCEL is answered IN_FLIGHT 1 for a write that has started, else 0, and that slot is never written. On CANCEL_ACK with IN_FLIGHT 0 the owner substitutes its last packed sample of the layout or a fill, and SUBSTITUTED counts. After the grace every owned unsealed rank of a registered layout has asked. A grammar reply's SEQ word goes out once nothing before it waits. -/
def Obligations.TheOwnerCommitsAndSubstitutes : Prop :=
  ∀ (s : State), s.awake →
    let j := s.m.job
    (∀ src b,
      let r := leField b 14 2
      let n := leField b 8 6
      let k := leField b 16 4
      let term := leField b 28 8
      let a := getAsm s.m n r
      let good := b.length = 40 ∧ leField b 0 1 = 1 ∧ jobLoaded s.m = true ∧ leField b 4 4 = jobTag s.m ∧ ownsRank s.m r = true ∧
        isTarget s.m n = true ∧ k < (rankOf s.m r).slots ∧ s.m.grp.fenced = false
      (¬good → Ends (.slotDoneReceive src b) s fun m => m = s.m) ∧
      (good →
        (a.terms.find k = none → Ends (.slotDoneReceive src b) s fun m =>
          let v := a.mayVary || (leField b 2 1).testBit 0
          AsmIs n r { a with terms := a.terms.put k term, digest := (a.digest + term) % 2 ^ 64, mayVary := v, exc := (getAsm m n r).exc,
                             senders := a.senders.put k src, inFlight := a.inFlight.filter (· != k) } s.m m ∧
          (leField b 1 1 = 0 → (getAsm m n r).exc = a.exc) ∧
          (leField b 1 1 ≠ 0 → (k, leField b 1 1, leField b 20 6) ∈ (getAsm m n r).exc) ∧
          m = { s.m with job := { s.m.job with asm := m.job.asm } }) ∧
        (a.terms.find k = some term → Ends (.slotDoneReceive src b) s (CountsUp Od.DUP_NOTICES 32 s.m)) ∧
        (∀ old, a.terms.find k = some old ∧ old ≠ term → Ends (.slotDoneReceive src b) s fun m =>
          getAsm m n r = { a with conflict := true } ∧ odNat m Od.SEAL_HOLD = 1 ∧ m.safe.reacting = true ∧
          odNat m Od.DETECTIONS = (odNat s.m Od.DETECTIONS + 1) % 2 ^ 32 ∧ m.mem = s.m.mem))) ∧
    (∀ n r,
      let k := rankOf s.m r
      let a := getAsm s.m n r
      let base := partBase s.m 1
      (commitReady s.m n r = false → Ends (.commitIssue n r) s fun m => m = s.m) ∧
      (commitReady s.m n r = true ∧ recordHeld s.m n r = false ∧ k.kind = 1 → Ends (.commitIssue n r) s fun m =>
        AsmIs n r { a with bodyDone := true, record := commitRecord s.m a, excData := excBytes s.m a } s.m m ∧
        m.mem = (writeMem (writeMem s.m (base + excAddr s.m n r) (excBytes s.m a)) (base + recordAddr s.m n r) ((commitRecord s.m a).take 56)).mem ∧
        m = { s.m with job := m.job, mem := m.mem, rem := m.rem, grp := m.grp, fab := m.fab }) ∧
      (sealReady s.m n r = false → Ends (.sealIssue n r) s fun m => m = s.m) ∧
      (sealReady s.m n r = true →
        (sealAllowed s.m r = false → Ends (.sealIssue n r) s fun m => AsmIs n r { a with refused := true } s.m m ∧
          m = { s.m with job := { s.m.job with asm := m.job.asm } }) ∧
        (sealAllowed s.m r = true ∧ a.rewrite = false ∧ k.kind = 1 → Ends (.sealIssue n r) s fun m =>
          AsmIs n r { a with sealed := true } s.m m ∧ (getRank m r).sealedTo = some n ∧ (∀ r', r' ≠ r → getRank m r' = getRank s.m r') ∧
          odNat m Od.COMMITS = (odNat s.m Od.COMMITS + 1) % 2 ^ 64 ∧
          m.mem = (writeMem s.m (base + recordAddr s.m n r + 56) (a.record.drop 56)).mem ∧
          m = { s.m with job := m.job, mem := m.mem, dict := m.dict, safe := m.safe, dbg := m.dbg, fab := m.fab }))) ∧
    (∀ src b,
      let n := leField b 8 6
      let r := leField b 14 2
      let k := leField b 16 4
      let lay := (rankOf s.m r).layout
      (noticeOk s.m b 2 = false ∨ s.m.grp.fenced = true → Ends (.cancelReceive src b) s fun m => m = s.m) ∧
      (noticeOk s.m b 2 = true ∧ s.m.grp.fenced = false → Ends (.cancelReceive src b) s fun m =>
        let started := (j.packed.find? fun p => p.step == n && p.rank == r && p.slot == k).any fun p => p.issued
        let answer : UnitFrame := { dst := src, cls := 0x5, flow := k % 65536, payload := notice 3 0 (b2n started) (jobTag s.m) n r k (leField b 20 6) 0 }
        m.fab.units = s.m.fab.units ++ [answer] ∧ (started = true → m = { s.m with fab := m.fab }) ∧
        (started = false → (n, r, k) ∈ m.job.never ∧ m.mem = s.m.mem ∧ m.rem = s.m.rem ∧
          ∀ p, (j.packed.find? fun p => p.step == n && p.rank == r && p.slot == k) = some p → findPacked m p.id = none)) ∧
      (noticeOk s.m b 3 = true →
        let asked := j.cancels.any fun c => c.step == n && c.rank == r && c.slot == k
        (asked = false → Ends (.cancelAckReceive src b) s fun m => m = s.m) ∧
        (asked = true ∧ (leField b 2 1).testBit 0 = true → Ends (.cancelAckReceive src b) s fun m =>
          AsmIs n r { getAsm s.m n r with inFlight := k :: (getAsm s.m n r).inFlight } s.m m ∧ m.job.packed = j.packed ∧ m = { s.m with job := m.job }) ∧
        (asked = true ∧ (leField b 2 1).testBit 0 = false ∧ (getAsm s.m n r).terms.has k = false ∧ j.audit = false →
          Ends (.cancelAckReceive src b) s fun m =>
            let e := match j.lastPacked.find lay with
              | some e => e
              | none => (fillBytes s.m r, 0xFFFFFFFFFFFF)
            let slot : PackedSlot := { id := j.nextId, step := n, rank := r, slot := k, sample := e.2, mayVary := true, reason := 0xF0, data := e.1 }
            m.job.packed = j.packed ++ [{ slot with term := slotTerm n r k (epochOf s.m n) lay e.1 }] ∧
            odNat m Od.SUBSTITUTED = (odNat s.m Od.SUBSTITUTED + 1) % 2 ^ 64 ∧ EntriesBut [Od.SUBSTITUTED] s.m m ∧
            m.job.cancels = (j.cancels.filter fun c => !(c.step == n && c.rank == r && c.slot == k)) ∧
            m = { s.m with job := m.job, dict := m.dict }))) ∧
    (∀ n,
      let due := odNat s.m Od.LATE_SUBST_GRACE ≠ 0 ∧ mayWrite s.m = true ∧ graceOver s.m n = true
      (¬due → Ends (.lateSubstStart n) s fun m => m = s.m) ∧
      (due → Ends (.lateSubstStart n) s fun m =>
        (∀ r ∈ ownedRanks s.m, sealedTo s.m n r = false ∧ (rankOf s.m r).layout ∈ j.substLayouts → (getAsm m n r).cancelSent = true) ∧
        m.mem = s.m.mem ∧ m.job.ranks = j.ranks)) ∧
    (∀ id p, (s.m.hubs.replies.find? fun p => p.id == id) = some p →
      (p.waits ≠ 0 → Ends (.flaggedWriteIssue id) s fun m => m = s.m) ∧
      (p.waits = 0 ∧ granted s.m p.conn p.key p.addr p.seq.length 1 = true ∧ givenUp s.m p.conn = false → Ends (.flaggedWriteIssue id) s fun m =>
        Handed p.conn p.key p.addr p.seq (.replySeq id) s.m m ∧ m.mem = s.m.mem ∧
        m.hubs = { s.m.hubs with replies := s.m.hubs.replies.filter fun q => q.id != id }))

/-- A control core's write of CDC_SUBMIT queues a descriptor, or sets ALIGN, FULL or DUP; another agent's is an address error. A free lane takes the next work: a firmware call to compress or to decompress takes its result and its output stands in memory, a call on a descriptor that breaks the rules has STATUS 0x10 and one in no memory 0x15, without output; a fill and a staged hit take the lane; at most 15 lanes decompress. A call's end writes STATUS, counts and state into the descriptor and raises the interrupt it asks for; a fill's end makes data and entry visible and counts, an abandoned one leaves the slot dead and counts. A hit's bytes are staged T_stage after it was accepted; T_dec after its lane started the tensor goes to DEST with STATUS 1, or, on a mismatch, the entry is dropped and the fetch goes to flash. -/
def Obligations.CodecEnginesRunFillsHitsAndJobs : Prop :=
  ∀ (s : State) (hub lane : Nat), s.awake → hub < 4 →
    let x := getCodec s.m hub
    let hubsOnly := fun (m : M8) => m = { s.m with hubs := m.hubs }
    let same := fun c => Ends c s fun m => m = s.m
    (∀ agent addr,
      let a := addr % 2 ^ 48
      let sets := fun x' => Ends (.cdcSubmit agent hub addr) s fun m => CodecIs hub x' s.m m ∧ hubsOnly m
      (isCore agent = false → Ends (.cdcSubmit agent hub addr) s (AddressErrs agent (codecReg hub 0) s.m)) ∧
      (isCore agent = true →
        let taken := a ∈ x.jobs ∨ (x.lanes.any fun l => l.2.names a) = true
        (a % 64 ≠ 0 → sets { x with align := true }) ∧ (a % 64 = 0 ∧ 64 ≤ x.jobs.length → sets { x with full := true }) ∧
        (a % 64 = 0 ∧ x.jobs.length < 64 ∧ taken → sets { x with dup := true }) ∧
        (a % 64 = 0 ∧ x.jobs.length < 64 ∧ ¬taken → sets { x with jobs := x.jobs ++ [a] }))) ∧
    (x.lanes.has lane = true ∨ nextWork s.m hub lane = none → same (.codecCompress hub lane) ∧ same (.codecDecompress hub lane)) ∧
    (15 ≤ decompressing x → same (.codecDecompress hub lane)) ∧
    (lane < 16 ∧ x.lanes.has lane = false →
      (∀ d, nextWork s.m hub lane = some (.fw d) →
        let b := readMemOnes s.m d 64
        let takes := fun (j : LaneJob) (mem : List Host.Cell) (m : M8) =>
          CodecIs hub { x with jobs := x.jobs.drop 1, lanes := x.lanes.put lane j } s.m m ∧ m.mem = mem ∧
          m = { s.m with hubs := m.hubs, mem := m.mem }
        let irq := (leField b 1 1).testBit 3
        let st := cdcStateOf b
        (leField b 0 1 ≠ 2 →
          (inMem d 64 = false → Ends (.codecCompress hub lane) s (takes (.fw d 0x15 0 0 0 0 0 irq false) s.m.mem)) ∧
          (inMem d 64 = true ∧ cdcDescOk b = false → Ends (.codecCompress hub lane) s
            (takes (.fw d 0x10 st.plane st.row (b2n st.header + 2 * b2n st.last) 0 0 irq false) s.m.mem)) ∧
          (inMem d 64 = true ∧ cdcDescOk b = true → Ends (.codecCompress hub lane) s
            (takes (fwCompress s.m d b).1 (fwCompress s.m d b).2.mem))) ∧
        (leField b 0 1 = 2 ∧ decompressing x < 15 → Ends (.codecDecompress hub lane) s fun m =>
          if inMem d 64 = false then takes (.fw d 0x15 0 0 0 0 0 irq true) s.m.mem m
          else takes (fwDecompress s.m d b).1 (fwDecompress s.m d b).2.mem m)) ∧
      (∀ f, nextWork s.m hub lane = some (.fill f) → Ends (.codecCompress hub lane) s fun m => ∃ status out off,
        CodecIs hub { x with fills := x.fills.drop 1, lanes := x.lanes.put lane (.fill f status out off) } s.m m ∧ hubsOnly m) ∧
      (∀ h, nextWork s.m hub lane = some (.hit h) ∧ decompressing x < 15 → Ends (.codecDecompress hub lane) s fun m => ∃ status out,
        let rest := x.hits.filter fun g => !(g.tile == h.tile && g.req == h.req)
        CodecIs hub { x with hits := rest, lanes := x.lanes.put lane (.hit h status out s.m.clk.hclk) } s.m m ∧ hubsOnly m)) ∧
    (∀ d status plane row flags consumed produced irq dec, x.lanes.find lane = some (.fw d status plane row flags consumed produced irq dec) →
      Ends (.codecJobEnd hub lane) s fun m =>
        let m1 := writeMem s.m (d + 6) (natLe 1 status ++ natLe 1 plane)
        let m2 := writeMem m1 (d + 36) (natLe 4 consumed)
        m.mem = (writeMem m2 (d + 52) (natLe 4 produced ++ natLe 2 row ++ natLe 1 flags)).mem ∧
        CodecIs hub { x with lanes := x.lanes.drop lane, doneBit := x.doneBit || irq } s.m m ∧
        (irq = true → (getSrc m (0x140 + hub)).pending = true) ∧ (irq = false → m = { s.m with hubs := m.hubs, mem := m.mem }) ∧
        m = { s.m with hubs := m.hubs, mem := m.mem, intc := m.intc, dict := m.dict }) ∧
    (∀ f status out off, x.lanes.find lane = some (.fill f status out off) →
      let freed := { x with lanes := x.lanes.drop lane }
      let g := fillStream s.m f.stream f.img
      let entry := natLe 8 off ++ natLe 4 out.length ++ natLe 4 g.ulen ++ natLe 8 (crc64xz (heldBytes s.m hub f.hold g.ulen))
      Ends (.codecJobEnd hub lane) s fun m => CodecIs hub freed s.m m ∧ m = { s.m with hubs := m.hubs, mem := m.mem, dict := m.dict } ∧
        (status = 0 → odNat m Od.CACHE_FILLS = (odNat s.m Od.CACHE_FILLS + 1) % 2 ^ 64 ∧
          m.mem = (setSlotState (writeMem (writeMem s.m (cacheAddr s.m off) out) (dirSlot s.m f.slot + 24) entry) f.slot 2).mem) ∧
        (status ≠ 0 → odNat m Od.CACHE_FILL_ABANDONED = (odNat s.m Od.CACHE_FILL_ABANDONED + 1) % 2 ^ 64 ∧
          m.mem = (setSlotState s.m f.slot 3).mem)) ∧
    (∀ tile req h, tile / 16 = hub ∧ (x.hits.find? fun h => h.tile == tile && h.req == req && h.released.isNone) = some h →
      (∀ c, findHold s.m hub 0 h.hold = some c ∧ h.accepted + (1024 + ceilDiv h.clen 256) ≤ s.m.clk.hclk →
        Ends (.hitStageRelease tile req) s fun m =>
          m.mem = (writeSpans s.m (holdSpans s.m hub 0 c) (readMemOnes s.m (cacheAddr s.m h.off) h.clen)).mem ∧
          (let rel := fun (g : HitJob) => if g.tile == tile && g.req == req then { g with released := some s.m.clk.hclk } else g
           CodecIs hub { x with hits := x.hits.map rel } s.m m) ∧ m = { s.m with hubs := m.hubs, mem := m.mem }) ∧
      (findHold s.m hub 0 h.hold = none ∨ s.m.clk.hclk < h.accepted + (1024 + ceilDiv h.clen 256) → same (.hitStageRelease tile req))) ∧
    (∀ h status out start, x.lanes.find lane = some (.hit h status out start) →
      (s.m.clk.hclk < start + (128 + ceilDiv h.ulen 125) → same (.hitDecodeDone hub lane)) ∧
      (∀ r, start + (128 + ceilDiv h.ulen 125) ≤ s.m.clk.hclk ∧ findReq s.m h.tile h.req = some r →
        (status = 0 ∧ crc64xz out = h.check → Ends (.hitDecodeDone hub lane) s fun m =>
          let d := match localToPkg h.tile (leField r.desc 8 8) with
            | some p => writeMem s.m p out
            | none => s.m
          m.mem = (writeMem d (r.addr + 20) (natLe 4 1 ++ natLe 4 h.ulen)).mem ∧ findReq m h.tile h.req = none ∧
          odNat m Od.CACHE_HITS = (odNat s.m Od.CACHE_HITS + 1) % 2 ^ 64 ∧ (getCodec m hub).lanes = x.lanes.drop lane) ∧
        (status ≠ 0x15 ∧ ¬(status = 0 ∧ crc64xz out = h.check) → Ends (.hitDecodeDone hub lane) s fun m =>
          m.mem = (setSlotState s.m h.slot 3).mem ∧ (findReq m h.tile h.req) = some { r with phase := .again } ∧
          odNat m Od.CACHE_MISSES = (odNat s.m Od.CACHE_MISSES + 1) % 2 ^ 64 ∧ (getCodec m hub).lanes = x.lanes.drop lane ∧
          m = { s.m with mem := m.mem, hubs := m.hubs, tiles := m.tiles, dict := m.dict })))

/-- A read of a TAKE port by an agent that may not use it answers all ones and is an address error; by another it is granted the cells RUN_M1 + 1 asks for, the reader sees count and address, or it waits and POOL_WAITS counts. A waiting request is granted, those within their owner's reserve first, when its cells can be had, and only then. A GIVE of a run's first cell by a holder takes its name from the run, and the cells return with the last name; one by a port it may not use is an address error; another counts POOL_BAD_GIVE, is an address error and raises the pool's source. Sharing names a further owner, at most four. Reading POOL_AUDIT takes the snapshot, and cells unaccounted for are a fault. -/
def Obligations.CellPoolsGrantShareAndTakeBack : Prop :=
  ∀ (s : State) (hub pool : Nat), s.awake → hub < 4 → pool < 2 →
    let x := getPool s.m hub pool
    let first := fun (h : Holding) => cellAddr s.m hub pool (h.pieces.headD (0, 0)).1
    let holding := fun (q : PoolReq) (ps : List (Nat × Nat)) =>
      ({ id := q.id, pieces := ps, chain := q.chain, names := [q.owner], time := s.m.clk.now } : Holding)
    (∀ agent owner,
      let port := 0x030001000000 + hub * 0x100000 + (if pool = 0 then 0x11000 else 0x13000) + owner * 0x20
      let may := (isCore agent = true ∧ ¬(0x05 ≤ owner ∧ owner ≤ 0x7F)) ∨ (agent < 0x40 ∧ 0x80 ≤ owner ∧ owner ≤ 0xFF)
      let q : PoolReq := { id := s.m.hubs.nextHold, owner := owner, cells := (ownCfg s.m pool x owner).runM1 + 1, agent := agent, who := .read agent }
      (¬may → Ends (.poolTake agent hub pool owner) s fun m => m.out = .readData agent 0xFFFFFFFFFFFFFFFF :: s.m.out ∧
        AddressErrs agent (port + 0x10) { s.m with out := m.out } m) ∧
      (may → Ends (.poolTake agent hub pool owner) s fun m => m.hubs.nextHold = s.m.hubs.nextHold + 1 ∧
        match (if x.waiting.any fun w => w.owner == owner then none else grantable s.m hub pool q) with
        | some ps =>
          let h := holding q ps
          PoolIs hub pool { x with used := x.used + h.cells, held := h :: x.held, waiting := x.waiting.filter fun w => w.id != q.id } s.m m ∧
            m.out = .readData agent (first h + q.cells * 2 ^ 48) :: s.m.out ∧ m = { s.m with hubs := m.hubs, out := m.out }
        | none => PoolIs hub pool { x with waiting := x.waiting ++ [q] } s.m m ∧ EntriesBut [Od.POOL_WAITS] s.m m ∧
            odNat m Od.POOL_WAITS = (odNat s.m Od.POOL_WAITS + 1) % 2 ^ 64 ∧ m = { s.m with hubs := m.hubs, dict := m.dict }) ∧
      (∀ addr,
        let given := x.held.find? fun h => h.names.contains owner && first h == addr % 2 ^ 48
        (¬may → Ends (.poolGive agent hub pool owner addr) s (AddressErrs agent (port + 0x18) s.m)) ∧
        (∀ h, may ∧ given = some h ∧ (∀ g ∈ x.held, g.id = h.id → g = h) ∧ h.names.erase owner = [] → Ends (.poolGive agent hub pool owner addr) s fun m =>
          PoolIs hub pool { x with used := x.used - h.cells, held := x.held.filter fun g => g.id != h.id } s.m m ∧ m = { s.m with hubs := m.hubs }) ∧
        (may ∧ given = none → Ends (.poolGive agent hub pool owner addr) s fun m =>
          odNat m Od.POOL_BAD_GIVE = (odNat s.m Od.POOL_BAD_GIVE + 1) % 2 ^ 32 ∧ (getSrc m (0x14E + hub)).pending = true ∧
          (m.intc.addrErr.get {} (agentHub agent)).valid = true ∧ m = { s.m with intc := m.intc, dict := m.dict }))) ∧
    (let firsts := firstOfOwner [] x.waiting
     let inReserve := fun (q : PoolReq) => decide (x.heldBy q.owner + q.cells ≤ (ownCfg s.m pool x q.owner).reserve)
     let order := firsts.filter inReserve ++ firsts.filter fun q => !inReserve q
     ((∀ q ∈ order, grantable s.m hub pool q = none) → Ends (.poolGrant hub pool) s fun m => m = s.m) ∧
     (∀ pre q post ps, order = pre ++ q :: post ∧ (∀ p ∈ pre, grantable s.m hub pool p = none) ∧ grantable s.m hub pool q = some ps ∧ q.who = .unit →
       Ends (.poolGrant hub pool) s fun m =>
         let h := holding q ps
         PoolIs hub pool { x with used := x.used + h.cells, held := h :: x.held, waiting := x.waiting.filter fun w => w.id != q.id } s.m m ∧
         m = { s.m with hubs := m.hubs })) ∧
    (∀ owner addr newOwner,
      let shared := x.held.find? fun h => h.names.contains owner && first h == addr
      (shared = none → Ends (.poolShare hub pool owner addr newOwner) s fun m => m = s.m) ∧
      (∀ h, shared = some h → Ends (.poolShare hub pool owner addr newOwner) s fun m =>
        let named := fun (g : Holding) => if g.id = h.id && g.names.length < 4 then { g with names := g.names ++ [newOwner] } else g
        PoolIs hub pool { x with held := x.held.map named } s.m m ∧ m = { s.m with hubs := m.hubs })) ∧
    Ends .poolAuditRead s fun m => odBytes m Od.POOL_AUDIT = poolAudit s.m ∧ m.hubs = s.m.hubs ∧ m.mem = s.m.mem ∧
      ((∀ h < 4, unaccounted s.m h 0 + unaccounted s.m h 1 = 0) → m = { s.m with dict := m.dict } ∧ EntriesBut [Od.POOL_AUDIT] s.m m) ∧
      (∀ h < 4, unaccounted s.m h 0 + unaccounted s.m h 1 ≠ 0 → (getSrc m (0x14E + h)).pending = true ∧
        (jobLoaded s.m = true ∧ s.m.grp.own ≠ [] → m.grp.fenced = true))

/-- Only control cores write a channel; another agent's write is an address error. START in state 1 reads the descriptor and runs it, one that breaks the rules or stands at a misaligned address halts the channel with code 4; in another state, with an enable pending or with PACE bounds out of order it is refused. ABORT ends a paced or preempted channel with code 1, lets a running one finish its burst, and is refused in the other states. ENABLE 1 and 0 move the channel between its states; a shutdown that has nothing left to write reaches state 0, or 1 with an enable pending. A free mover goes to the best waiting channel; with none free the worst running one of lower priority loses its own. A paced channel resumes by its level. A finished descriptor writes its record or goes on to the next. A failing access is issued again up to RETRIES times, then the channel halts with code 3. -/
def Obligations.DmaChannelsFollowTheirStates : Prop :=
  ∀ (s : State) (hub c : Nat), s.awake → hub < 4 → c < 64 →
    let x := getDma s.m hub c
    let same := fun i => Ends i s fun m => m = s.m
    let is := fun i x' => Ends i s (DmaIs hub c x' s.m)
    let halted := fun (m : M8) => DmaRecorded hub c s.m m ∧ (getDma m hub c).st = .halted ∧ (getDma m hub c).err = true ∧
      (getDma m hub c).mover = false ∧ odNat m Od.DMA_HALTS = (odNat s.m Od.DMA_HALTS + 1) % 2 ^ 32 ∧
      (getSrc m (0x40 + 64 * hub + c)).pending = true
    (∀ agent, isCore agent = false → ∀ i ∈ [Instr.dmaStart agent hub c, .dmaAbort agent hub c, .dmaEnable agent hub c, .dmaDisable agent hub c],
      Ends i s (AddressErrs agent (0x030001020000 + hub * 0x100000 + c * 0x40) s.m)) ∧
    (∀ agent, isCore agent = true →
      let refused := x.st ≠ .idle ∨ x.pendingEn = true ∨ (x.isPaced = true ∧ x.high ≤ x.low)
      (refused → is (.dmaStart agent hub c) { x with refused := true }) ∧
      (¬refused →
        (∀ b, x.desc % 32 = 0 ∧ readMem s.m x.desc 32 = some b ∧ dmaDescOk s.m b = true →
          let run := { x with retriesUsed := 0, cur := x.desc, done := 0, buf := [], descRetries := 0, accRetries := 0, st := .running, since := s.m.clk.hclk }
          is (.dmaStart agent hub c) { run with src := leField b 0 8, dst := leField b 8 8, len := leField b 16 4, flags := leField b 20 1,
                                                next := leField b 24 8 }) ∧
        (x.desc % 32 ≠ 0 ∨ (∃ b, readMem s.m x.desc 32 = some b ∧ dmaDescOk s.m b = false) → Ends (.dmaStart agent hub c) s halted)) ∧
      (x.st = .running ∧ x.buf ≠ [] → is (.dmaAbort agent hub c) { x with st := .stopping, stopCode := 1, shut := false }) ∧
      (x.st = .paced ∨ x.st = .preempted ∨ (x.st = .running ∧ x.buf = []) → Ends (.dmaAbort agent hub c) s fun m => DmaRecorded hub c s.m m ∧
        (getDma m hub c).st = .idle ∧ (getDma m hub c).mover = false ∧ (getDma m hub c).buf = [] ∧
        (getSrc m (0x40 + 64 * hub + c)).pending = true) ∧
      (x.st = .stopping → same (.dmaAbort agent hub c)) ∧
      (x.st = .disabled ∨ x.st = .idle ∨ x.st = .halted → is (.dmaAbort agent hub c) { x with refused := true }) ∧
      (x.st = .disabled → is (.dmaEnable agent hub c) { x with st := .idle, enable := true }) ∧
      (x.st = .stopping ∧ x.shut = true → is (.dmaEnable agent hub c) { x with pendingEn := true, enable := true }) ∧
      (x.st ≠ .disabled ∧ ¬(x.st = .stopping ∧ x.shut = true) → is (.dmaEnable agent hub c) { x with enable := true }) ∧
      (let off := { x with enable := false, pendingEn := false }
       (x.st = .disabled → is (.dmaDisable agent hub c) off) ∧
       (x.st = .idle ∨ x.st = .halted → is (.dmaDisable agent hub c) { off with st := .stopping, stopCode := 0, shut := true, buf := [] }) ∧
       (x.st = .running → is (.dmaDisable agent hub c) { off with st := .stopping, stopCode := 2, shut := true }) ∧
       (x.st = .paced ∨ x.st = .preempted → is (.dmaDisable agent hub c) { off with st := .stopping, stopCode := 2, shut := true, buf := [] }) ∧
       (x.st = .stopping → is (.dmaDisable agent hub c) { off with shut := true }))) ∧
    (let ended := x.st = .stopping ∧ x.shut = true ∧ x.buf = []
     let after := if x.pendingEn then DmaSt.idle else .disabled
     (¬ended → same (.dmaShutdownDone hub c)) ∧
     (ended ∧ x.stopCode = 0 → is (.dmaShutdownDone hub c) { x with st := after, pendingEn := false, mover := false, shut := false }) ∧
     (ended ∧ x.stopCode ≠ 0 → Ends (.dmaShutdownDone hub c) s fun m => DmaRecorded hub c s.m m ∧ (getDma m hub c).st = after ∧
       (getDma m hub c).mover = false ∧ (getDma m hub c).pendingEn = false ∧ (getSrc m (0x40 + 64 * hub + c)).pending = true)) ∧
    (let l := hubDma s.m hub
     (dmaBest l = none → same (.dmaMoverGrant hub)) ∧
     (∀ y, dmaBest l = some (c, y) →
       ((l.filter fun p => p.2.mover).length < 8 → is (.dmaMoverGrant hub) { x with mover := true, st := .running }) ∧
       (∀ d z, 8 ≤ (l.filter fun p => p.2.mover).length ∧ dmaWorst l = some (d, z) →
         (¬(z.prio < y.prio ∧ z.st = .running) → same (.dmaMoverGrant hub)) ∧
         (z.prio < y.prio ∧ z.st = .running ∧ c ≠ d ∧ (getDma s.m hub d).st = .running → Ends (.dmaMoverGrant hub) s fun m =>
           getDma m hub c = { x with mover := true, st := .running } ∧
           getDma m hub d = { getDma s.m hub d with mover := false, since := s.m.clk.hclk, st := .preempted } ∧ m = { s.m with hubs := m.hubs })))) ∧
    (x.st ≠ .paced → same (.dmaPacePoll hub c)) ∧
    (∀ v, x.st = .paced ∧ dmaLevel s.m hub x = some v →
      (x.resumes v = false → same (.dmaPacePoll hub c)) ∧
      (x.resumes v = true → is (.dmaPacePoll hub c) { x with st := .running, since := s.m.clk.hclk })) ∧
    (x.st ≠ .running ∨ x.len = 0 ∨ x.done < x.len → same (.dmaDescEnd hub c)) ∧
    (x.st = .running ∧ x.len ≠ 0 ∧ x.len ≤ x.done →
      (x.flags.testBit 1 = true → Ends (.dmaDescEnd hub c) s fun m => DmaRecorded hub c s.m m ∧ (getDma m hub c).st = .idle ∧
        (getDma m hub c).mover = false) ∧
      (∀ b, x.flags.testBit 1 = false ∧ x.flags.testBit 0 = false ∧ x.next % 32 = 0 ∧ readMem s.m x.next 32 = some b ∧ dmaDescOk s.m b = true →
        let run := { x with cur := x.next, done := 0, buf := [], descRetries := 0, accRetries := 0, since := s.m.clk.hclk }
        is (.dmaDescEnd hub c) { run with src := leField b 0 8, dst := leField b 8 8, len := leField b 16 4, flags := leField b 20 1,
                                          next := leField b 24 8 })) ∧
    (∀ addr, x.st ≠ .running ∧ ¬(x.st = .stopping ∧ x.buf ≠ []) → same (.dmaBusError hub c addr)) ∧
    (∀ addr, x.st = .running ∧ spaceSee (odInc s.m Od.DMA_BUS_ERRORS) (0x48 + hub) addr 1 ≠ .hole ∧ x.flags.testBit 2 = false ∧ x.flags.testBit 3 = false →
      (x.accRetries < x.retries → Ends (.dmaBusError hub c addr) s fun m =>
        DmaIs hub c { x with accRetries := x.accRetries + 1, descRetries := x.descRetries + 1, retriesUsed := x.retriesUsed + 1 }
          { s.m with dict := m.dict } m ∧ EntriesBut [Od.DMA_BUS_ERRORS] s.m m ∧
        odNat m Od.DMA_BUS_ERRORS = (odNat s.m Od.DMA_BUS_ERRORS + 1) % 2 ^ 32) ∧
      (x.retries ≤ x.accRetries → Ends (.dmaBusError hub c addr) s halted))

/-- A vocabulary or machine that keeps its rules replaces the one before, one that breaks a rule leaves it and names the rule in TEXT_LOAD_FAIL; a vocabulary waits while the text units are busy; a new machine closes every context on it. TXT_SUBMIT queues a descriptor or sets ALIGN, FULL or DUP. On a free lane the next descriptor starts: an invalid one ends with 0x10, one whose input cannot be read with 0x15, another with what its operation gives, the output in memory. Its end writes STATUS and counts and raises the interrupt it asks for; a rejection counts. A tail word is taken, or counts GRAMMAR_TAIL_REJECTS. The next request of a hub is served: OPEN opens a context at its machine's start state, ADVANCE applies tokens until one is rejected, CLOSE closes; HEAD moves on by one. An idle context closes after CTX_IDLE_MS, and not before. -/
def Obligations.TextUnitsLoadRunAndServe : Prop :=
  ∀ (s : State) (hub : Nat), s.awake → hub < 4 →
    let x := getText s.m hub
    let same := fun c => Ends c s fun m => m = s.m
    let hubsOnly := fun (m : M8) => m = { s.m with hubs := m.hubs }
    let is := fun (x' : TextHub) (m : M8) => getText m hub = x' ∧ ∀ h, h ≠ hub → getText m h = getText s.m h
    (∀ blob,
      let rule := if blob = [] then 0 else vocabRule s.m blob
      (textBusy s.m = true → Ends (.vocabLoad blob) s fun m => m = { s.m with out := .fwStatus 0x08000021 :: s.m.out }) ∧
      (textBusy s.m = false ∧ rule ≠ 0 → Ends (.vocabLoad blob) s fun m => odNat m Od.TEXT_LOAD_FAIL = rule ∧
        EntriesBut [Od.TEXT_LOAD_FAIL] s.m m ∧ m = { s.m with dict := m.dict, out := .fwStatus 0x06090030 :: s.m.out }) ∧
      (textBusy s.m = false ∧ rule = 0 → Ends (.vocabLoad blob) s fun m => odBytes m Od.VOCAB = blob ∧ odNat m Od.TEXT_LOAD_FAIL = 0 ∧
        odNat m Od.VOCAB_SIZE = vocabSize blob % 2 ^ 32 ∧ EntriesBut [Od.VOCAB, Od.VOCAB_SIZE, Od.TEXT_LOAD_FAIL] s.m m ∧
        m = { s.m with dict := m.dict, mem := m.mem })) ∧
    (∀ k blob,
      let rule := if blob = [] then 0 else machRule blob
      (16 ≤ k → same (.machineLoad k blob)) ∧
      (k < 16 ∧ rule ≠ 0 → Ends (.machineLoad k blob) s fun m => odNat m Od.TEXT_LOAD_FAIL = rule ∧
        EntriesBut [Od.TEXT_LOAD_FAIL] s.m m ∧ m = { s.m with dict := m.dict, out := .fwStatus 0x06090030 :: s.m.out }) ∧
      (k < 16 ∧ rule = 0 → Ends (.machineLoad k blob) s fun m => machineOf m k = blob ∧ odNat m Od.TEXT_LOAD_FAIL = 0 ∧
        EntriesBut [machineKey k, Od.TEXT_LOAD_FAIL, Od.CTX_OPEN] s.m m ∧
        getText m hub = { x with ctxs := x.ctxs.filter fun c => c.2.machine != k } ∧ m = { s.m with dict := m.dict, hubs := m.hubs })) ∧
    (∀ agent addr,
      let a := addr % 2 ^ 48
      let sets := fun x' => Ends (.txtSubmit agent hub addr) s fun m => is x' m ∧ hubsOnly m
      (isCore agent = false → Ends (.txtSubmit agent hub addr) s (AddressErrs agent (textReg hub 0) s.m)) ∧
      (isCore agent = true →
        let taken := a ∈ x.jobs ∨ (x.lanes.any fun l => l.2.desc == a) = true
        (a % 64 ≠ 0 → sets { x with align := true }) ∧ (a % 64 = 0 ∧ 64 ≤ x.jobs.length → sets { x with full := true }) ∧
        (a % 64 = 0 ∧ x.jobs.length < 64 ∧ taken → sets { x with dup := true }) ∧
        (a % 64 = 0 ∧ x.jobs.length < 64 ∧ ¬taken → sets { x with jobs := x.jobs ++ [a] }))) ∧
    (∀ lane,
      let starts := [Instr.tokenise hub lane, .detokenise hub lane, .validate hub lane]
      (laneFree s.m hub lane = false ∨ x.jobs = [] → ∀ c ∈ starts, same c) ∧
      (∀ d ds, laneFree s.m hub lane = true ∧ x.jobs = d :: ds →
        let b := readMemOnes s.m d 64
        let op := leField b 0 1
        let n := if op = 2 then 4 * leField b 16 4 else leField b 16 4
        let c := if op = 2 then Instr.detokenise hub lane else if op = 3 then .validate hub lane else .tokenise hub lane
        let takes := fun (j : TextJob) (m : M8) =>
          is { x with jobs := ds, lanes := x.lanes.put lane { j with desc := d, irq := (leField b 1 1).testBit 3 } } m
        let ends := fun (j : TextJob) (out : Bytes) => Ends c s fun m =>
          if inMem (leField b 24 8) out.length = true then takes { j with produced := out.length } m ∧ m.mem = (writeMem s.m (leField b 24 8) out).mem ∧
            m = { s.m with hubs := m.hubs, mem := m.mem }
          else takes { j with status := 0x15, consumed := 0, produced := 0 } m ∧ hubsOnly m
        (∀ c' ∈ starts, c' ≠ c → same c') ∧
        (textDescOk s.m b = false → Ends c s fun m => takes { status := 0x10 } m ∧ hubsOnly m) ∧
        (textDescOk s.m b = true ∧ readMem s.m (leField b 8 8) n = none → Ends c s fun m => takes { status := 0x15 } m ∧ hubsOnly m) ∧
        (∀ i, textDescOk s.m b = true ∧ readMem s.m (leField b 8 8) n = some i →
          (op = 1 → let r := tokenise (vocabOf s.m) ((leField b 1 1).testBit 0) ((leField b 1 1).testBit 1) ((leField b 1 1).testBit 2) (leField b 32 4) i
            ends { status := r.status, consumed := r.consumed } r.out) ∧
          (op = 2 → let merges := (leField b 1 1).testBit 0
            let r := detokeniseFrom (if merges then tokenTable (vocabOf s.m) else []) (if merges then vocabSize (vocabOf s.m) else 258)
              (leField b 32 4) ((chunks 4 i).map leNat) 0 []
            ends { status := r.status, consumed := r.consumed } r.out) ∧
          (op = 3 → let r := validate (machineOf s.m (leField b 2 1)) i
            Ends c s fun m => takes { consumed := if r.1 = 0 ∨ r.1 = 2 then i.length else r.2, result := r.1, offset := r.2, isValidate := true } m ∧
              hubsOnly m))) ∧
      (∀ j, x.lanes.find lane = some j → Ends (.textJobEnd hub lane) s fun m =>
        let m1 := writeMem (writeMem s.m (j.desc + 3) (natLe 1 j.status)) (j.desc + 20) (natLe 4 j.consumed)
        let m2 := writeMem m1 (j.desc + 36) (natLe 4 j.produced ++ natLe 1 j.result)
        m.mem = (writeMem m2 (j.desc + 44) (natLe 4 j.offset)).mem ∧ is { x with lanes := x.lanes.drop lane, doneBit := x.doneBit || j.irq } m ∧
        (j.irq = true → (getSrc m (0x144 + hub)).pending = true) ∧
        (j.isValidate = true ∧ j.result ≠ 0 → odNat m Od.VALIDATE_REJECTS = (odNat s.m Od.VALIDATE_REJECTS + 1) % 2 ^ 64) ∧
        m = { s.m with hubs := m.hubs, mem := m.mem, intc := m.intc, dict := m.dict })) ∧
    (∀ q value whole, q < 64 →
      let bad := whole = false ∨ value / 65536 ≠ 0 ∨ 64 < serialDiff 16 (value % 65536) (x.heads.get 0 q)
      (bad → Ends (.grammarTailWrite hub q value whole) s (CountsUp Od.GRAMMAR_TAIL_REJECTS 32 s.m)) ∧
      (¬bad → Ends (.grammarTailWrite hub q value whole) s fun m => is { x with tails := x.tails.set 0 q value } m ∧
        m.mem = (writeMem s.m (tailAddr hub q) (natLe 8 value)).mem ∧ m = { s.m with hubs := m.hubs, mem := m.mem })) ∧
    (nextGrammar s.m hub = none → ∀ c ∈ [Instr.grammarOpen hub, .grammarAdvance hub, .grammarClose hub], same c) ∧
    (∀ q h, nextGrammar s.m hub = some (q, h) →
      let b := readMemOnes s.m (grammarArea hub + q * 0x1000 + h % 64 * 0x40) 64
      let k := leField b 2 2
      let seq := leField b 4 4
      let mb := machineOf s.m (leField b 8 1)
      let served := fun (m : M8) => (getText m hub).heads = x.heads.set 0 q ((h + 1) % 65536) ∧ (getText m hub).tails = x.tails ∧
        (∀ k', k' ≠ k → (getText m hub).ctxs.find k' = x.ctxs.find k') ∧ m.mem = s.m.mem ∧ m.fl = s.m.fl
      (grammarOk b = true →
        (leField b 0 1 = 1 ∧ (∀ c, x.ctxs.find k = some c → c.seq ≠ seq) ∧ mb ≠ [] → Ends (.grammarOpen hub) s fun m => served m ∧
          (getText m hub).ctxs.find k = some { machine := leField b 8 1, state := machStart mb, seq := seq, active := s.m.clk.now }) ∧
        (∀ c, leField b 0 1 = 2 ∧ x.ctxs.find k = some c ∧ seq = (c.seq + 1) % 2 ^ 32 ∧ seq ≠ c.seq → Ends (.grammarAdvance hub) s fun m => served m ∧
          (let toks := (List.range (leField b 9 1)).map fun i => leField b (24 + 4 * i) 4
           let r := applyTokens (machineOf s.m c.machine) (tokenTable (vocabOf s.m)) (vocabSize (vocabOf s.m)) toks { c with seq := seq } 0
           (getText m hub).ctxs.find k =
             some { r.2.2 with status := if r.2.1 then 0 else 1, accepted := r.1, active := s.m.clk.now })) ∧
        (∀ c, leField b 0 1 = 3 ∧ x.ctxs.find k = some c ∧ seq = (c.seq + 1) % 2 ^ 32 ∧ seq ≠ c.seq → Ends (.grammarClose hub) s fun m => served m ∧
          (getText m hub).ctxs.find k = none))) ∧
    (∀ k c, x.ctxs.find k = some c →
      (s.m.clk.now < c.active + odNat s.m Od.CTX_IDLE_MS * 1000000 → same (.ctxIdleTimeout hub k)) ∧
      (c.active + odNat s.m Od.CTX_IDLE_MS * 1000000 ≤ s.m.clk.now → Ends (.ctxIdleTimeout hub k) s fun m =>
        is { x with ctxs := x.ctxs.drop k } m ∧ EntriesBut [Od.CTX_OPEN] s.m m ∧ m = { s.m with hubs := m.hubs, dict := m.dict }))

/-- On an up Acsal port bytes with a bad LCRC count BAD_FRAMES, they and a break of the sequence send a NAK once; a frame in sequence moves the expected LSEQ on; a malformed one counts BAD_FRAMES; one for another device is put at the end of the egress queue of the port its route gives, HOPS one less, or counts NO_ROUTE or HOPS_EXPIRED; one for a unit of this device is delivered. Units' frames enter the switch; the eligible frame of the highest class leaves and stands in the replay buffer until it is acknowledged. ACK, NAK and CREDIT give their grants; ACK frees frames, NAK frees those before it and sends the rest again. Without an ACK for 500 ns the buffer is sent again; an ACK goes out 200 ns after the first frame, or at 32. -/
def Obligations.LinksCarryFramesInSequence : Prop :=
  ∀ (s : State) (p : Nat), s.awake → p < 32 →
    let x := getLink s.m p
    let same := fun c => Ends c s fun m => m = s.m
    let credited := fun (grants : List Nat) (m : M8) => ∀ tc < 8, (getLink m p).credits.get 0 tc = x.credits.get 0 tc + grants.getD tc 0
    let framed := fun (m : M8) => ∃ b, m.out = .frame p b :: s.m.out
    (acsalUp s.m p = false → (∀ b, same (.frameReceive p b)) ∧ same (.linkReplayTimeout p) ∧ same (.linkAckTimer p) ∧
      ∀ lseq grants, same (.linkAck p lseq grants) ∧ same (.linkNak p lseq grants) ∧ same (.linkCredit p grants)) ∧
    (portUp s.m p = false → Ends (.egressSend p) s fun m => m.fab.units = [] ∧ m.rem = s.m.rem) ∧
    (acsalUp s.m p = true →
      (∀ b, lcrcOk b = false →
        (x.nak = true → Ends (.frameReceive p b) s (CountsUp Od.BAD_FRAMES 32 s.m)) ∧
        (x.nak = false → Ends (.frameReceive p b) s fun m => odNat m Od.BAD_FRAMES = (odNat s.m Od.BAD_FRAMES + 1) % 2 ^ 32 ∧ framed m ∧
          LinkIs p { x with nak := true, owed := (getLink m p).owed } s.m m ∧ m = { s.m with fab := m.fab, dict := m.dict, out := m.out })) ∧
      (∀ b f lseq, lcrcOk b = true ∧ parseFrame b = (f, lseq) ∧ f.cls ≠ 0 →
        (lseq ≠ x.rxSeq →
          (x.nak = true → same (.frameReceive p b)) ∧
          (x.nak = false → Ends (.frameReceive p b) s fun m => framed m ∧
            LinkIs p { x with nak := true, owed := (getLink m p).owed } s.m m ∧ m = { s.m with fab := m.fab, out := m.out })) ∧
        (lseq = x.rxSeq ∧ x.toAck + 1 < 32 →
          let accepted := fun (m : M8) => (getLink m p).rxSeq = (x.rxSeq + 1) % 65536 ∧ (getLink m p).nak = false ∧ (getLink m p).toAck = x.toAck + 1 ∧
            (∀ p', p' ≠ p → getLink m p' = getLink s.m p')
          (frameFormOk b = false → Ends (.frameReceive p b) s fun m => accepted m ∧ odNat m Od.BAD_FRAMES = (odNat s.m Od.BAD_FRAMES + 1) % 2 ^ 32 ∧
            m = { s.m with fab := m.fab, dict := m.dict }) ∧
          (let plain := frameFormOk b = true ∧ leField (policerRec s.m p ((tcOf f.cls).getD 7)) 0 1 = 0 ∧ f.mc = false ∧
             (∀ n, s.m.fab.nbrs.find p = some n → n.mismatch = false)
           (plain ∧ forUs s.m f = false ∧ f.hops = 0 → Ends (.frameReceive p b) s fun m => accepted m ∧
             odNat m Od.HOPS_EXPIRED = (odNat s.m Od.HOPS_EXPIRED + 1) % 2 ^ 32 ∧ m.fab.egress = s.m.fab.egress) ∧
           (plain ∧ forUs s.m f = false ∧ f.hops ≠ 0 → Ends (.frameReceive p b) s fun m => accepted m ∧
             (let f' := { f with hops := f.hops - 1 }
              match routePort s.m f', tcOf f.cls with
              | some q, some tc => m.fab.egress.get [] (q * 8 + tc) = s.m.fab.egress.get [] (q * 8 + tc) ++ [f'] ∧
                  (∀ k, k ≠ q * 8 + tc → m.fab.egress.get [] k = s.m.fab.egress.get [] k) ∧ m = { s.m with fab := m.fab }
              | none, _ => odNat m Od.NO_ROUTE = (odNat s.m Od.NO_ROUTE + 1) % 2 ^ 32 ∧ m.fab.egress = s.m.fab.egress
              | _, none => True)) ∧
           (plain ∧ f.dst = ownAddr s.m ∧ f.dst ≠ 0xFFFF ∧ f.cls ∉ [0, 1, 4, 7, 8] → Ends (.frameReceive p b) s fun m => accepted m ∧
             m.out = .deliver f.cls f.src f.flow f.payload :: s.m.out ∧ m = { s.m with fab := m.fab, out := m.out })))) ∧
      (s.m.fab.units = [] →
        (nextFrame s.m p = none → same (.egressSend p)) ∧
        (∀ tc f, nextFrame s.m p = some (tc, f) → Ends (.egressSend p) s fun m =>
          getLink m p = { x with txSeq := (x.txSeq + 1) % 65536, replay := x.replay ++ [(x.txSeq, f)], sentAt := s.m.clk.now,
                                 credits := (getLink m p).credits } ∧
          (getLink m p).credits.get 0 tc = x.credits.get 0 tc - f.units ∧ (∀ tc', tc' ≠ tc → (getLink m p).credits.get 0 tc' = x.credits.get 0 tc') ∧
          (∀ p', p' ≠ p → getLink m p' = getLink s.m p') ∧
          m.fab.egress.get [] (p * 8 + tc) = (s.m.fab.egress.get [] (p * 8 + tc)).drop 1 ∧
          (∀ k, k ≠ p * 8 + tc → m.fab.egress.get [] k = s.m.fab.egress.get [] k) ∧
          m.out = .frame p (f.bytes x.txSeq) :: s.m.out ∧ m = { s.m with fab := m.fab, out := m.out })) ∧
      (∀ lseq grants,
        (Ends (.linkAck p lseq grants) s fun m => credited grants m ∧ m = { s.m with fab := m.fab } ∧
          LinkIs p { x with credits := (getLink m p).credits, replay := x.replay.filter fun e => serialNewer 16 e.1 lseq, sentAt := s.m.clk.now } s.m m) ∧
        (Ends (.linkNak p lseq grants) s fun m => credited grants m ∧
          (let kept := x.replay.filter fun e => serialNewer 16 e.1 ((lseq + 65535) % 65536)
           let again := kept.filter fun e => e.1 == lseq || serialNewer 16 e.1 lseq
           LinkIs p { x with credits := (getLink m p).credits, replay := kept, sentAt := if again = [] then x.sentAt else s.m.clk.now } s.m m ∧
           m.out = (again.map fun e => .frame p (e.2.bytes e.1)).reverse ++ s.m.out ∧
           (again ≠ [] → odNat m Od.LINK_REPLAYS = (odNat s.m Od.LINK_REPLAYS + 1) % 2 ^ 32) ∧
           m = { s.m with fab := m.fab, out := m.out, dict := m.dict })) ∧
        (Ends (.linkCredit p grants) s fun m => credited grants m ∧ m = { s.m with fab := m.fab } ∧
          LinkIs p { x with credits := (getLink m p).credits } s.m m)) ∧
      (x.replay = [] ∨ s.m.clk.now < x.sentAt + 500 → same (.linkReplayTimeout p)) ∧
      (∀ e es, x.replay = e :: es ∧ x.sentAt + 500 ≤ s.m.clk.now → Ends (.linkReplayTimeout p) s fun m =>
        LinkIs p { x with sentAt := s.m.clk.now } s.m m ∧ odNat m Od.LINK_REPLAYS = (odNat s.m Od.LINK_REPLAYS + 1) % 2 ^ 32 ∧
        Output.frame p (e.2.bytes e.1) ∈ m.out ∧ m = { s.m with fab := m.fab, out := m.out, dict := m.dict }) ∧
      (let due := 0 < x.toAck ∧ (32 ≤ x.toAck ∨ x.ackFrom + 200 ≤ s.m.clk.now)
       (¬due → same (.linkAckTimer p)) ∧
       (due → Ends (.linkAckTimer p) s fun m => LinkIs p { x with toAck := 0, owed := (getLink m p).owed } s.m m ∧ framed m ∧
         m = { s.m with fab := m.fab, out := m.out })))

/-- A HELLO goes to a port's neighbour every HELLO_MS, or when one is due; a HELLO received is the neighbour on its port, one of another DOMAIN_ID counts; a neighbour silent for three intervals is forgotten. A device without an address asks the neighbour nearest a master. The acting master answers with the address of the one position that matches, unless another holds it, and refuses else with the code R473 gives; another addressed device forwards the request to its master. ADDR_ASSIGN sets FABRIC_ADDRESS, ADDR_REFUSE sets ADDR_STATUS and counts; answers for another device go back where its request came from. A refused device asks again after 10 s; without a master for 1 s ADDR_STATUS is 7. A newer LSA of the group is kept, an older one discarded; the own LSA is sent every second. -/
def Obligations.NeighboursAddressesAndLinkState : Prop :=
  ∀ (s : State) (p : Nat), s.awake → p < 32 →
    let same := fun c => Ends c s fun m => m = s.m
    let fabOnly := fun (m : M8) => m = { s.m with fab := m.fab }
    let sends := fun (u : UnitFrame) (m : M8) => m.fab.units = s.m.fab.units ++ [u]
    let wants := ownAddr s.m = 0xFFFF ∧ odInForce s.m Od.FIXED_ADDRESS = 0xFFFF
    let serial := odNat s.m Od.SERIAL
    let hello := odNat s.m Od.HELLO_MS * 1000000
    (let due := ∀ t, s.m.fab.helloAt.find p = some t → t + hello ≤ s.m.clk.now
     (acsalUp s.m p = false ∨ ¬due → same (.helloSend p)) ∧
     (acsalUp s.m p = true ∧ due → Ends (.helloSend p) s fun m => sends (toNeighbour p (helloBytes s.m p)) m ∧
       m.fab.helloAt.find p = some s.m.clk.now ∧ fabOnly m)) ∧
    (∀ b,
      let good := acsalUp s.m p = true ∧ b.length = 32 ∧ leField b 0 1 = 1
      let n := neighbourOf s.m b
      (¬good → same (.helloReceive p b)) ∧
      (good → Ends (.helloReceive p b) s fun m => m.fab.nbrs.find p = some n ∧ (∀ p', p' ≠ p → m.fab.nbrs.find p' = s.m.fab.nbrs.find p') ∧
        (n.mismatch = true → odNat m Od.DOMAIN_MISMATCH = (odNat s.m Od.DOMAIN_MISMATCH + 1) % 2 ^ 32) ∧
        EntriesBut [Od.DOMAIN_MISMATCH] s.m m ∧ m = { s.m with fab := m.fab, grp := m.grp, out := m.out, dict := m.dict })) ∧
    (s.m.fab.nbrs.find p = none → same (.neighbourLost p)) ∧
    (∀ n, s.m.fab.nbrs.find p = some n →
      (s.m.clk.now < n.seen + 3 * hello → same (.neighbourLost p)) ∧
      (n.seen + 3 * hello ≤ s.m.clk.now → Ends (.neighbourLost p) s fun m => m.fab.nbrs.find p = none ∧
        (∀ p', p' ≠ p → m.fab.nbrs.find p' = s.m.fab.nbrs.find p') ∧ m = { s.m with fab := m.fab, grp := m.grp })) ∧
    (¬wants → same .addrReqSend ∧ same .addrRetry ∧ same .addrMasterTimeout) ∧
    (odNat s.m Od.ADDR_STATUS < 3 ∨ s.m.clk.now < s.m.fab.reqAt + 10000000000 → same .addrRetry) ∧
    (∀ q n, wants ∧ bestNeighbour s.m = some (q, n) →
      let asks := fun c => Ends c s fun m => sends (toNeighbour q (addrReqBytes s.m)) m ∧ m.fab.reqAt = s.m.clk.now ∧ fabOnly m
      (odNat s.m Od.ADDR_STATUS = 0 → asks .addrReqSend) ∧
      (3 ≤ odNat s.m Od.ADDR_STATUS ∧ s.m.fab.reqAt + 10000000000 ≤ s.m.clk.now → asks .addrRetry)) ∧
    (wants ∧ ownLinks s.m = [] →
      (s.m.clk.now < s.m.fab.reqAt + 1000000000 → same .addrMasterTimeout) ∧
      (s.m.fab.reqAt + 1000000000 ≤ s.m.clk.now → Ends .addrMasterTimeout s fun m => odNat m Od.ADDR_STATUS = 7 ∧ m.fab.reqAt = s.m.clk.now ∧
        EntriesBut [Od.ADDR_STATUS] s.m m ∧ m = { s.m with fab := m.fab, dict := m.dict })) ∧
    (∀ src b, ownAddr s.m ≠ 0xFFFF ∧ leField b 0 1 = 2 →
      let z := leField b 4 8
      let found := (positions s.m).filter fun q => positionMatches s.m q (observations b)
      (s.m.fab.acting = true ∧ src = 0xFFFF →
        (found = [] → Ends (.addrReqReceive p src b) s fun m =>
          sends (toNeighbour p (refuseBytes z (if domainFull s.m z then 6 else 3))) m ∧ fabOnly m) ∧
        (∀ q, found = [q] ∧ sameGroup q.addr (ownAddr s.m) = true →
          (positionHeld s.m q.addr z = true → Ends (.addrReqReceive p src b) s fun m =>
            sends (toNeighbour p (refuseBytes z (if domainFull s.m z then 6 else 4))) m ∧ fabOnly m) ∧
          (positionHeld s.m q.addr z = false → Ends (.addrReqReceive p src b) s fun m =>
            sends (toNeighbour p (assignBytes z q.addr)) m ∧ m.fab.granted.find q.addr = some z ∧ fabOnly m)) ∧
        (2 ≤ found.length → Ends (.addrReqReceive p src b) s fun m => sends (toNeighbour p (refuseBytes z 5)) m ∧ fabOnly m)) ∧
      (s.m.fab.acting = false ∧ src = 0xFFFF ∧ s.m.grp.master ≠ 0xFFFF → Ends (.addrReqReceive p src b) s fun m =>
        sends { dst := s.m.grp.master, cls := 1, payload := b } m ∧
        m.fab.proxies = (z, p) :: (s.m.fab.proxies.filter fun q => q.1 != z) ∧ fabOnly m)) ∧
    (∀ b,
      (leField b 4 8 = serial →
        (¬wants → same (.addrAssignReceive b) ∧ same (.addrRefuseReceive b)) ∧
        (wants ∧ leField b 0 1 = 3 → Ends (.addrAssignReceive b) s fun m => ownAddr m = leField b 12 2 ∧ odNat m Od.ADDR_STATUS = 1 ∧
          EntriesBut [Od.FABRIC_ADDRESS, Od.ADDR_STATUS] s.m m ∧ m.fab.nbrs = s.m.fab.nbrs ∧ m = { s.m with fab := m.fab, grp := m.grp, dict := m.dict }) ∧
        (wants ∧ leField b 0 1 = 4 → Ends (.addrRefuseReceive b) s fun m => odNat m Od.ADDR_STATUS = leField b 1 1 ∧
          odNat m Od.ADDR_REFUSALS = (odNat s.m Od.ADDR_REFUSALS + 1) % 2 ^ 32 ∧ m.fab.reqAt = s.m.clk.now ∧
          EntriesBut [Od.ADDR_REFUSALS, Od.ADDR_STATUS] s.m m ∧ m = { s.m with fab := m.fab, dict := m.dict })) ∧
      (leField b 4 8 ≠ serial → ∀ c ∈ [Instr.addrAssignReceive b, .addrRefuseReceive b],
        ((∀ q ∈ s.m.fab.proxies, q.1 ≠ leField b 4 8) → same c) ∧
        (∀ q, (s.m.fab.proxies.find? fun q => q.1 == leField b 4 8) = some q ∧ q.2 < 32 → Ends c s fun m => sends (toNeighbour q.2 b) m ∧
          m.fab.proxies = (s.m.fab.proxies.filter fun r => r.1 != leField b 4 8) ∧ fabOnly m))) ∧
    (∀ b,
      let a := leField b 2 2
      let newer := ∀ l, s.m.fab.lsas.find a = some l → serialNewer 32 (leField b 4 4) l.seq = true
      let good := acsalUp s.m p = true ∧ leField b 0 1 = 5 ∧ sameGroup a (ownAddr s.m) = true ∧ a ≠ ownAddr s.m ∧ newer
      (¬good → same (.lsaReceive p b)) ∧
      (good → Ends (.lsaReceive p b) s fun m => (m.fab.lsas.find a).any (fun l => l.seq == leField b 4 4) = true ∧
        (∀ a', a' ≠ a → m.fab.lsas.find a' = s.m.fab.lsas.find a') ∧ m = { s.m with fab := m.fab, grp := m.grp })) ∧
    (s.m.clk.now < s.m.fab.lsaAt + 1000000000 ∨ ownAddr s.m = 0xFFFF → same .lsaPeriodic) ∧
    (s.m.fab.lsaAt + 1000000000 ≤ s.m.clk.now ∧ ownAddr s.m ≠ 0xFFFF → Ends .lsaPeriodic s fun m =>
      m.fab.lsaSeq = (s.m.fab.lsaSeq + 1) % 2 ^ 32 ∧ m.fab.lsaAt = s.m.clk.now ∧ fabOnly m)

/-- A cable map, route table, policer or shaper table that keeps its rules replaces the one before, one that breaks them is refused with 0x06090030 and changes nothing; policer records written are full, a changed shaper record starts full or empty, an unchanged one goes on. One of 16 exchanges with a peer goes out 1 ms after the last; a request of 32 bytes is answered with the timestamps, one of another length counts BAD_FRAMES; an answer to the outstanding exchange keeps the smallest round trip. A port that has delivered a fan-out copy writes 1 and gives its name up, one that has failed writes 2; with the last delivery the record goes. -/
def Obligations.FabricTablesOffsetsAndFanout : Prop :=
  ∀ (s : State), s.awake →
    let same := fun c => Ends c s fun m => m = s.m
    let refused := fun c => Ends c s fun m => m = { s.m with out := .fwStatus 0x06090030 :: s.m.out }
    (∀ b,
      (cableMapOk b = false → refused (.cableMapWrite b)) ∧ (routeTableOk s.m b = false → refused (.routeTableWrite b)) ∧
      (policersOk b = false → refused (.policerWrite b)) ∧ (shapersOk b = false → refused (.shaperWrite b)) ∧
      (cableMapOk b = true → Ends (.cableMapWrite b) s fun m => odBytes m Od.CABLE_MAP = b ∧ EntriesBut [Od.CABLE_MAP] s.m m ∧
        m = { s.m with dict := m.dict, fab := m.fab, grp := m.grp }) ∧
      (routeTableOk s.m b = true → Ends (.routeTableWrite b) s fun m => odBytes m Od.ROUTE_TABLE = b ∧ EntriesBut [Od.ROUTE_TABLE] s.m m ∧
        m = { s.m with dict := m.dict }) ∧
      (policersOk b = true → Ends (.policerWrite b) s fun m => odBytes m Od.POLICERS = b ∧ EntriesBut [Od.POLICERS] s.m m ∧
        m = { s.m with dict := m.dict, fab := { s.m.fab with policers := [] } }) ∧
      (shapersOk b = true → Ends (.shaperWrite b) s fun m => odBytes m Od.SHAPERS = b ∧ EntriesBut [Od.SHAPERS] s.m m ∧
        m = { s.m with dict := m.dict, fab := { s.m.fab with shapers := m.fab.shapers } } ∧
        ∀ i < 256,
          let r := slice b (16 * i) 16
          m.fab.shapers.find i = if r = slice (odBytes s.m Od.SHAPERS) (16 * i) 16 then s.m.fab.shapers.find i
            else if leField r 1 1 = 1 then some { since := s.m.clk.hclk } else none)) ∧
    (∀ peer, (s.m.fab.offsets.find? fun o => o.peer == peer) = none → same (.offsetExchange peer)) ∧
    (∀ peer o, (s.m.fab.offsets.find? fun o => o.peer == peer) = some o →
      let due := 2 ≤ jobState s.m ∧ o.done < 16 ∧ ((o.done = 0 ∧ o.out = none) ∨ o.last + 1000000 ≤ s.m.clk.now)
      let put := fun (o' : OffsetMeas) => s.m.fab.offsets.map fun x => if x.peer = o'.peer then o' else x
      (¬due → same (.offsetExchange peer)) ∧
      (due → Ends (.offsetExchange peer) s fun m =>
        let seq := (s.m.fab.offsetSeq + 1) % 2 ^ 32
        let u : UnitFrame := { dst := peer, cls := 2, flow := 1, payload := offsetBytes s.m.clk.now 0 0 seq (jobTag s.m) }
        m = { s.m with fab := { s.m.fab with offsetSeq := seq, offsets := put { o with out := some (seq, s.m.clk.now), last := s.m.clk.now },
                                             units := s.m.fab.units ++ [u] } }) ∧
      (∀ b, b.length = 32 →
        (o.out ≠ some (leField b 24 4, leField b 0 8) → same (.offsetRespReceive peer b)) ∧
        (o.out = some (leField b 24 4, leField b 0 8) ∧ o.done + 1 < 16 → Ends (.offsetRespReceive peer b) s fun m =>
          let t1 : Int := leField b 0 8
          let t2 : Int := leField b 8 8
          let t3 : Int := leField b 16 8
          let t4 : Int := s.m.clk.now
          let rtt := (t4 - t1) - (t3 - t2)
          let new := some (rtt, Int.tdiv ((t1 - t2) + (t4 - t3)) 2)
          let best := match o.best with
            | some c => if rtt < c.1 then new else some c
            | none => new
          m = { s.m with fab := { s.m.fab with offsets := put { o with out := none, done := o.done + 1, best := best } } }))) ∧
    (∀ src b,
      (b.length ≠ 32 → Ends (.offsetReqReceive src b) s (CountsUp Od.BAD_FRAMES 32 s.m) ∧
        Ends (.offsetRespReceive src b) s (CountsUp Od.BAD_FRAMES 32 s.m)) ∧
      (b.length = 32 → Ends (.offsetReqReceive src b) s fun m =>
        let t := s.m.clk.now
        let u : UnitFrame := { dst := src, cls := 2, flow := 2, payload := offsetBytes (leField b 0 8) t t (leField b 24 4) (leField b 28 4) }
        m = { s.m with fab := { s.m.fab with units := s.m.fab.units ++ [u] } })) ∧
    (∀ id j ok, (s.m.fab.fanouts.find? fun f => f.id == id) = none → same (.fanoutPortAck id j ok)) ∧
    (∀ id j f, (s.m.fab.fanouts.find? fun f => f.id == id) = some f →
      (f.status.getD j 1 = 1 → ∀ ok, same (.fanoutPortAck id j ok)) ∧
      (f.status.getD j 1 ≠ 1 →
        (∀ h, ((getPool s.m f.hub f.pool).held.find? fun h => h.id == f.hold) = some h → Ends (.fanoutPortAck id j true) s fun m =>
          let status := f.status.set j 1
          m.fab.fanouts = (if status.all (fun v => v == 1) then s.m.fab.fanouts.filter fun g => g.id != id
            else s.m.fab.fanouts.map fun g => if g.id = id then { f with status := status } else g) ∧
          (h.names.erase f.owner = [] → (getPool m f.hub f.pool).used = (getPool s.m f.hub f.pool).used - h.cells) ∧
          m = { s.m with fab := m.fab, hubs := m.hubs }) ∧
        Ends (.fanoutPortAck id j false) s fun m => m = { s.m with fab := m.fab } ∧
          m.fab.fanouts = s.m.fab.fanouts.map fun g => if g.id = id then { f with status := f.status.set j 2 } else g))

/-- ENABLE 1 powers the engine of a disabled port, lights its lasers and starts state 1, or waits in a stopping one; ENABLE 0 stops the port, returns its queued commands with status 0x03 and darkens its lasers; RETRAIN takes an up port to state 3 and is REFUSED elsewhere. Writes by others than the hub's cores, or to an engine that is off, are address errors. Lasers at set lead to state 2, the synthesiser's lock to 3, its loss back to 2, good lanes to 4, where the queue is sent; a lost lock leads from 4 to 3 or 2, 10 ms without state 4 to 6; a dark stopping port is disabled, or starts again. A transmit command is sent, queued or refused by R447. A core reset abandons lane commands with RESULT 4; an engine idle for 1 s powers off and loses its state. -/
def Obligations.PortsFollowTheirStates : Prop :=
  ∀ (s : State) (p : Nat), s.awake → p < 32 →
    let same := fun c => Ends c s fun m => m = s.m
    let x := getPort s.m p
    let k := p / 4
    let now := s.m.clk.now
    let lanes := portLanes s.m p
    let reg := oeReg k (0x10000 + (p % 4) * 0x100)
    let events := fun (m : M8) => m = { s.m with opt := m.opt, intc := m.intc, dict := m.dict }
    let ready := rampDone s.m p = true
    (∀ agent,
      (oeMayWrite agent k = false → Ends (.portEnable agent p) s (AddressErrs agent reg s.m)) ∧
      (oeMayWrite agent k = true ∧ x.st = .disabled ∧ s.m.pwr.domOff.get false (76 + k) = false → Ends (.portEnable agent p) s fun m =>
        PortIs p { x with enable := true, pending := false, st := .ramping, away := now } s.m m ∧ m.pwr.oeOn.get false k = true ∧
        (∀ c ∈ lanes, getLaser m c = litLaser s.m c ∧ (getLane m c).lstate = if 4 ≤ (getLane s.m c).lstate then (getLane s.m c).lstate else 1) ∧
        m = { s.m with opt := m.opt, intc := m.intc, dict := m.dict, pwr := m.pwr }) ∧
      (oeMayWrite agent k = true ∧ x.st = .stopping → Ends (.portEnable agent p) s fun m =>
        PortIs p { x with pending := true } s.m m ∧ m = { s.m with opt := m.opt }) ∧
      (oeMayWrite agent k = true ∧ ((x.st = .disabled ∧ s.m.pwr.domOff.get false (76 + k) = true) ∨ x.st ∉ [.disabled, .stopping]) → same (.portEnable agent p)) ∧
      (let may := oeMayWrite agent k = true ∧ s.m.pwr.oeOn.get false k = true
       (¬may → Ends (.portDisable agent p) s (AddressErrs agent reg s.m) ∧ Ends (.portRetrain agent p) s (AddressErrs agent reg s.m)) ∧
       (may ∧ x.st = .disabled → same (.portDisable agent p)) ∧
       (may ∧ x.st = .stopping → Ends (.portDisable agent p) s fun m => PortIs p { x with pending := false } s.m m ∧ m = { s.m with opt := m.opt }) ∧
       (may ∧ x.st ∉ [.disabled, .stopping] → Ends (.portDisable agent p) s fun m =>
         PortIs p { x with enable := false, st := .stopping, away := if x.st = .up then now else x.away, queue := [] } s.m m ∧
         m.out = List.replicate x.queue.length (.fwStatus 0x03) ++ s.m.out ∧ ∀ c ∈ lanes, getLaser m c = dimLaser s.m c) ∧
       (may ∧ x.st = .up → Ends (.portRetrain agent p) s (PortIs p { x with st := .acquiring, away := now } s.m)) ∧
       (may ∧ x.st ≠ .up → Ends (.portRetrain agent p) s fun m => PortIs p { x with refused := true } s.m m ∧ m = { s.m with opt := m.opt }))) ∧
    (let good := ∀ c ∈ lanes, (getLaser s.m c).faulted = false ∧ (getLane s.m c).lstate < 4
     (¬(x.st = .ramping ∧ ready) → same (.portRampDone p)) ∧
     (x.st = .ramping ∧ ready ∧ good → Ends (.portRampDone p) s fun m => PortIs p { x with st := .settling } s.m m ∧ events m) ∧
     (x.st = .ramping ∧ ready ∧ ¬good → Ends (.portRampDone p) s fun m => (getPort m p).st ∈ [.ramping, .settling, .fault])) ∧
    (x.st ≠ .settling → same (.synthLock p)) ∧
    (x.st = .settling → Ends (.synthLock p) s fun m => PortIs p { x with st := .acquiring } s.m m ∧ events m) ∧
    (x.st ≠ .acquiring → same (.synthLockLost p)) ∧
    (x.st = .acquiring → Ends (.synthLockLost p) s fun m => PortIs p { x with st := .settling } s.m m ∧ events m) ∧
    (let works := x.st = .acquiring ∧ ready ∧ ∀ c ∈ lanes, (getLane s.m c).lstate = 1 ∧ (getLaser s.m c).faulted = false
     (¬works → same (.portAcquired p)) ∧
     (works → Ends (.portAcquired p) s (PortMoves p { x with st := .up, queue := [] } s.m)) ∧
     (works ∧ x.acsal = true → Ends (.portAcquired p) s fun m => PortIs p { x with st := .up, queue := [] } s.m m ∧
       (∀ tc < 8, m.fab.policers.find (8 * p + tc) = none) ∧
       (getLink m p).rxSeq = 0 ∧ (getLink m p).txSeq = 0 ∧ (getLink m p).replay = [] ∧ (getLink m p).nak = false)) ∧
    (∀ lost synth,
      (x.st ≠ .up → same (.portLockLost p lost synth)) ∧
      (x.st = .up → Ends (.portLockLost p lost synth) s fun m =>
        PortIs p { x with st := if synth then .settling else .acquiring, away := now } s.m m ∧
        ∀ i < 4, bit lost i = true → (portMap s.m p).getD i 0x1F ≠ 0x1F →
          (getLane m (18 * k + (portMap s.m p).getD i 0x1F)).flaps.head? = some now)) ∧
    (let late := x.st ∈ [.ramping, .settling, .acquiring] ∧ x.away + 10000000 ≤ now
     (¬late → same (.portFaultTimeout p)) ∧
     (late → Ends (.portFaultTimeout p) s (PortMoves p { x with st := .fault, queue := [] } s.m))) ∧
    (let dark := x.st = .stopping ∧ ∀ c ∈ lanes, (getLaser s.m c).dark = true
     (¬dark → same (.portStopDone p)) ∧
     (dark → Ends (.portStopDone p) s fun m =>
       (getPort m p).st = (if x.pending = true ∧ s.m.pwr.domOff.get false (76 + k) = false then .ramping else .disabled) ∧
       (x.pending = false → ∀ c ∈ lanes, (getLane m c).lstate = if 4 ≤ (getLane s.m c).lstate then (getLane s.m c).lstate else 0) ∧
       (∀ p', p' ≠ p → getPort m p' = getPort s.m p') ∧ m = { s.m with opt := m.opt, intc := m.intc, dict := m.dict, pwr := m.pwr })) ∧
    (∀ b,
      (x.st = .up → Ends (.txCommand p b) s fun m => m = { s.m with out := .fwStatus 0x00 ::
        (if s.m.safe.faultN = true ∧ x.acsal = false then s.m.out else .frame p b :: s.m.out) }) ∧
      (x.st ∈ [.ramping, .settling, .acquiring] ∧ x.queue.length < 16 → Ends (.txCommand p b) s fun m =>
        PortIs p { x with queue := x.queue ++ [.bytes b] } s.m m ∧ m = { s.m with opt := m.opt, out := .fwStatus 0x01 :: s.m.out }) ∧
      (let turned := fun (code : Nat) => Ends (.txCommand p b) s fun m => odNat m Od.TX_REFUSED = (odNat s.m Od.TX_REFUSED + 1) % 2 ^ 32 ∧
         EntriesBut [Od.TX_REFUSED] s.m m ∧ m = { s.m with dict := m.dict, out := .fwStatus code :: s.m.out }
       (x.st ∈ [.ramping, .settling, .acquiring] ∧ 16 ≤ x.queue.length → turned 0x02) ∧ (x.st ∈ [.disabled, .stopping, .fault] → turned 0x03))) ∧
    (∀ hub < 4, Ends (.coreReset hub) s fun m => m.opt.ports = s.m.opt.ports ∧ m = { s.m with opt := m.opt } ∧ ∀ e,
      if e / 2 = hub ∧ (getEngine s.m e).cmd.any (fun c => c.own && c.phase < 3) = true then (getEngine m e).cmd = none ∧ (getEngine m e).result = 4
      else getEngine m e = getEngine s.m e) ∧
    (∀ e < 8,
      let idle := s.m.pwr.oeOn.get false e = true ∧ (∀ i < 4, (getPort s.m (4 * e + i)).st = .disabled) ∧ (getEngine s.m e).idleSince + 1000000000 ≤ now
      (¬idle → same (.oeIdlePowerOff e)) ∧
      (idle → Ends (.oeIdlePowerOff e) s fun m => m.pwr.oeOn.get false e = false ∧ (∀ e', e' ≠ e → m.pwr.oeOn.get false e' = s.m.pwr.oeOn.get false e') ∧
        EngineIs e {} s.m m ∧ (∀ j < 18, getLane m (18 * e + j) = {} ∧ getLaser m (18 * e + j) = {}) ∧ m = { s.m with opt := m.opt, pwr := m.pwr }))

/-- A lane beyond a retire value, or whose trend crosses one while it may go, is retired in the order of R450; one under test ends its return. LANE_SWAP, LANE_RETURN and LANE_RETIRE start where R451 to R453 admit them, set RESULT 3 where not, and REFUSED while one is in progress; the partner's requests start this end's part. At the agreed marker the lane moves, RESULT is 2 and LANE_SWAPS counts; 10 ms without it fail the command; a soak that ends waits for its marker. ON ramps a laser up unless SHORT or RAIL_FAIL is set, OFF ramps it down, in 64 steps, down 8 at a time; without the target light at the last one LOWPWR is latched. A short cuts its channel and pauses its rail, whose recovery resumes; a rail down for 1 ms fails with its six channels. -/
def Obligations.LanesAndLasersAreKept : Prop :=
  ∀ (s : State) (k j : Nat), s.awake → k < 8 → j < 18 →
    let same := fun c => Ends c s fun m => m = s.m
    let c := 18 * k + j
    let x := getLaser s.m c
    let l := getLane s.m c
    let e := getEngine s.m k
    let now := s.m.clk.now
    let optics := fun (m : M8) => m = { s.m with opt := m.opt }
    let started := fun (q : LaneJobCmd) (m : M8) => EngineIs k { e with cmd := some q, result := if q.own then 1 else e.result } s.m m
    (∀ agent,
      let may := oeMayWrite agent k = true ∧ s.m.pwr.oeOn.get false k = true
      let busy := e.result = 1 ∨ e.cmd ≠ none
      let no := fun i => Ends i s fun m => EngineIs k { e with result := 3 } s.m m ∧ optics m
      (¬may → (∀ i ∈ [Instr.laserOn agent c, .laserOff agent c], Ends i s (AddressErrs agent (oeReg k (0x40000 + j * 0x40)) s.m)) ∧
        ∀ t, ∀ i ∈ [Instr.laneSwap agent k j t, .laneReturn agent k j t, .laneRetireCmd agent k j], Ends i s (AddressErrs agent (oeReg k 0x10) s.m)) ∧
      (may →
        (Ends (.laserOn agent c) s fun m => LaserIs c (litLaser s.m c) s.m m ∧ optics m) ∧
        (Ends (.laserOff agent c) s fun m => LaserIs c (dimLaser s.m c) s.m m ∧ optics m) ∧
        (busy → ∀ t, ∀ i ∈ [Instr.laneSwap agent k j t, .laneReturn agent k j t, .laneRetireCmd agent k j], Ends i s fun m =>
          EngineIs k { e with refused := true } s.m m ∧ optics m) ∧
        (¬busy →
          (∀ t,
            let goes := fun p => l.lstate = 1 ∧ acsalUp s.m p = true ∧ (t = 16 ∨ t = 17) ∧ spareHome s.m k t = some p ∧ spareFree s.m k t = true
            ((∀ p, lanePort s.m k j = some p → ¬goes p) → no (.laneSwap agent k j t)) ∧
            (∀ p, lanePort s.m k j = some p ∧ goes p → Ends (.laneSwap agent k j t) s fun m =>
              started { op := 1, port := p, lane := j, target := t, phase := 1, since := now } m ∧
              getLaser m (18 * k + t) = litLaser s.m (18 * k + t) ∧ optics m)) ∧
          (∀ t,
            let home := if j < 16 then some (4 * k + j / 4) else spareHome s.m k j
            let goes := fun p => (l.lstate = 4 ∨ l.lstate = 5) ∧ acsalUp s.m p = true ∧ x.short = false ∧ x.railFail = false ∧
              t ∈ portMap s.m p ∧ (t = 0x1F ∨ t = 16 ∨ t = 17)
            ((∀ p, home = some p → ¬goes p) → no (.laneReturn agent k j t)) ∧
            (∀ p, home = some p ∧ goes p → Ends (.laneReturn agent k j t) s fun m =>
              started { op := 2, port := p, lane := j, target := t, phase := 1, since := now } m ∧ (getLane m c).lstate = 3 ∧
              getLaser m c = litLaser s.m c ∧ optics m)) ∧
          ((∀ p, lanePort s.m k j = some p → ¬(l.lstate = 1 ∧ (getPort s.m p).acsal = true)) → no (.laneRetireCmd agent k j)) ∧
          (∀ p, lanePort s.m k j = some p ∧ l.lstate = 1 ∧ (getPort s.m p).acsal = true → Ends (.laneRetireCmd agent k j) s fun m =>
            Retires k j 4 s.m m ∧ (getEngine m k).result = if (freeSpare s.m p).isSome = true ∧ (getPort s.m p).st = .up then 1 else 2)))) ∧
    (∀ errs syms eye bias,
      let y := ({ l with eye := eye % 256, bias := bias % 65536, symErr := (l.symErr + errs) % 2 ^ 32, samples := l.samples + 1,
                         eyeSum := l.eyeSum + eye % 256, biasSum := l.biasSum + bias % 65536 } : Lane).hour now
      let bad := odNat s.m Od.BER_RETIRE * syms < errs * 1000000000 ∨ eye % 256 < odNat s.m Od.EYE_MIN_RETIRE ∨
        odNat s.m Od.DRIFT_RETIRE < bias % 65536 ∨ odNat s.m Od.FLAP_LIMIT ≤ (l.flaps.filter fun t => now < t + 3600000000000).length
      let moving := ∃ q, e.cmd = some q ∧ q.lane = j
      (¬((l.lstate = 1 ∨ l.lstate = 2 ∨ l.lstate = 3) ∧ x.on = true) → same (.laneMonitorUpdate c errs syms eye bias)) ∧
      (x.on = true →
        (l.lstate = 3 ∧ bad → Ends (.laneMonitorUpdate c errs syms eye bias) s fun m => (getEngine m k).cmd = none) ∧
        ((l.lstate = 1 ∨ l.lstate = 2) ∧ ¬moving ∧ (bad ∨ (y.trend = true ∧ jobState s.m ≠ 3)) →
          Ends (.laneMonitorUpdate c errs syms eye bias) s (Retires k j 4 s.m)) ∧
        ((l.lstate = 3 ∧ ¬bad) ∨ ((l.lstate = 1 ∨ l.lstate = 2) ∧ (moving ∨ (¬bad ∧ ¬(y.trend = true ∧ jobState s.m ≠ 3)))) →
          Ends (.laneMonitorUpdate c errs syms eye bias) s fun m => getLane m c = y ∧ (∀ c', c' ≠ c → getLane m c' = getLane s.m c') ∧ optics m))) ∧
    (let y := l.hour now
     let w := odNat s.m Od.TREND_WINDOW_H
     let ahead := 24 * odNat s.m Od.TREND_HORIZON_D
     let crosses := lineCrosses (y.eyeHours.take w) (odNat s.m Od.EYE_MIN_RETIRE) ahead true = true ∨
       lineCrosses (y.biasHours.take w) (odNat s.m Od.DRIFT_RETIRE) ahead false = true
     let free := ∀ p, lanePort s.m k j = some p → (getPort s.m p).acsal = true ∧ (freeSpare s.m p).isSome = true ∧ e.cmd = none
     let is := fun (z : Lane) => Ends (.laneTrendFit c) s fun m => getLane m c = z ∧ (∀ c', c' ≠ c → getLane m c' = getLane s.m c') ∧ optics m
     (l.lstate ≠ 1 → same (.laneTrendFit c)) ∧ (l.lstate = 1 ∧ ¬crosses → is y) ∧
     (l.lstate = 1 ∧ crosses ∧ (free ∨ jobState s.m ≠ 3) → Ends (.laneTrendFit c) s (Retires k j 4 s.m)) ∧
     (l.lstate = 1 ∧ crosses ∧ ¬free ∧ jobState s.m = 3 → is { y with trend := true })) ∧
    (e.cmd = none → ∀ i ∈ [Instr.swapMarkerAgree k, .swapPartnerTimeout k, .returnSoakEnd k], same i) ∧
    (∀ q, e.cmd = some q →
      let comes := if q.op = 1 then q.target else q.lane
      let leaves := if q.op = 1 then q.lane else q.target
      let agrees := portUp s.m q.port = true ∧ (getLaser s.m (18 * k + comes)).atSet = true ∧ (q.op = 1 ∨ q.phase = 3)
      (¬agrees → same (.swapMarkerAgree k)) ∧
      (agrees ∧ comes ≠ leaves → Ends (.swapMarkerAgree k) s fun m =>
        EngineIs k { e with cmd := none, result := if q.own then 2 else e.result } s.m m ∧ (getLane m (18 * k + comes)).lstate = 1 ∧
        (leaves ≠ 0x1F → (getLane m (18 * k + leaves)).lstate = if q.op = 2 then 0 else if (getLane s.m (18 * k + leaves)).lstate = 5 then 5 else 4) ∧
        (∀ i, ((List.range 4).find? fun i => (portMap s.m q.port).getD i 0x1F == leaves) = some i → portMap m q.port = (portMap s.m q.port).set i comes) ∧
        odNat m Od.LANE_SWAPS = (odNat s.m Od.LANE_SWAPS + 1) % 2 ^ 32 ∧ m = { s.m with opt := m.opt, intc := m.intc, dict := m.dict }) ∧
      (let late := (q.op = 1 ∨ q.phase = 3) ∧ q.since + 10000000 ≤ now
       (¬late → same (.swapPartnerTimeout k)) ∧
       (late → Ends (.swapPartnerTimeout k) s fun m => (getEngine m k).cmd = none ∧ (q.own = true → (getEngine m k).result = 4))) ∧
      (let ended := q.op = 2 ∧ q.phase = 2 ∧ q.since + odNat s.m Od.RETURN_SOAK_S * 1000000000 ≤ now
       (¬ended → same (.returnSoakEnd k)) ∧
       (ended → Ends (.returnSoakEnd k) s fun m => EngineIs k { e with cmd := some { q with phase := 3, since := now } } s.m m ∧
         m = { s.m with opt := m.opt, out := .marker q.port 2 q.lane :: s.m.out }))) ∧
    (∀ p, p / 4 = k → ∀ op lane,
      let phys := (portMap s.m p).getD lane 0x1F
      let back := 4 * (p % 4) + lane
      let b := getLane s.m (18 * k + back)
      let returns := e.cmd = none ∧ (b.lstate = 4 ∨ b.lstate = 5) ∧ phys ≠ back ∧ (getLaser s.m (18 * k + back)).short = false ∧
        (getLaser s.m (18 * k + back)).railFail = false
      (¬(acsalUp s.m p = true ∧ lane < 4) ∨ op ∉ [1, 2, 3] → same (.partnerLaneControl p op lane)) ∧
      (acsalUp s.m p = true ∧ lane < 4 →
        (∀ sp, freeSpare s.m p = some sp ∧ e.cmd = none ∧ phys ≠ 0x1F → Ends (.partnerLaneControl p 1 lane) s fun m =>
          started { op := 1, port := p, lane := phys, target := sp, phase := 1, since := now, own := false } m ∧ optics m) ∧
        (freeSpare s.m p = none ∨ e.cmd ≠ none ∨ phys = 0x1F → same (.partnerLaneControl p 1 lane)) ∧
        (¬returns → same (.partnerLaneControl p 2 lane)) ∧
        (returns → Ends (.partnerLaneControl p 2 lane) s fun m =>
          started { op := 2, port := p, lane := back, target := phys, phase := 1, since := now, own := false } m ∧
          (getLane m (18 * k + back)).lstate = 3 ∧ optics m) ∧
        (phys = 0x1F → same (.partnerLaneControl p 3 lane)) ∧
        (phys ≠ 0x1F → Ends (.partnerLaneControl p 3 lane) s fun m => (getLane m (18 * k + phys)).lstate = 4 ∧
          portMap m p = (portMap s.m p).map fun l => if l = phys then 0x1F else l))) ∧
    (∀ reached,
      let i := Instr.laserRampStep c reached
      let step := min 64 (x.step + 1)
      let drawn := fun (y : Laser) (m : M8) => LaserIs c { y with bias := (getLaser m c).bias } s.m m ∧ (getLaser m c).bias ≤ x.biasMax ∧
        m = { s.m with opt := m.opt, freeCtr := m.freeCtr }
      (x.paused = true ∨ x.ramp = 0 → same i) ∧
      (x.paused = false ∧ x.ramp ≠ 0 ∧ x.ramp ≠ 1 →
        (x.step ≤ 8 → Ends i s fun m => LaserIs c { x with step := 0, bias := 0, ramp := 0 } s.m m ∧ optics m) ∧
        (8 < x.step → Ends i s (drawn { x with step := x.step - 8 }))) ∧
      (x.paused = false ∧ x.ramp = 1 →
        (reached = true ∧ x.apc = true → Ends i s fun m => (getLaser m c).bias ≤ x.biasMax ∧
          getLaser m c = { x with step := step, bias := (getLaser m c).bias, ramp := 0, atSet := true } ∧
          ∀ q, e.cmd = some q → q.phase = 1 ∧ (q.op = 1 ∧ q.target = j ∨ q.op = 2 ∧ q.lane = j) →
            getEngine m k = { e with cmd := some { q with phase := 2, since := if q.op = 1 then q.since else now } } ∧
            m.out = .marker q.port q.op j :: s.m.out) ∧
        (¬(reached = true ∧ x.apc = true) →
          (step < 64 → Ends i s (drawn { x with step := step })) ∧
          (step = 64 ∧ x.apc = false → Ends i s fun m => LaserIs c { x with step := step, ramp := 0, bias := x.biasMax } s.m m ∧
            m = { s.m with opt := m.opt, freeCtr := m.freeCtr }) ∧
          (step = 64 ∧ x.apc = true → Ends i s fun m => (getLaser m c).lowpwr = true ∧ (getLaser m c).bias = x.biasMax)))) ∧
    (let rail := railOf c
     let on := fun (i : Nat) => 18 * (rail / 3) + 6 * (rail % 3) + i
     (x.on = false ∧ x.ramp = 0 → same (.laserShort c)) ∧
     (x.on = true ∨ x.ramp ≠ 0 → Ends (.laserShort c) s fun m => (getLaser m c).short = true ∧ (getLaser m c).on = false ∧
       odNat m Od.LASER_SHORTS = (odNat s.m Od.LASER_SHORTS + 1) % 2 ^ 32 ∧ Sparse.has m.opt.rails rail = true ∧
       ∀ i < 6, on i ≠ c → (getLaser s.m (on i)).ramp ≠ 0 → (getLaser m (on i)).paused = true) ∧
     (Sparse.find s.m.opt.rails rail = none → same (.railRecover rail) ∧ same (.railFailTimeout rail)) ∧
     (∀ t, Sparse.find s.m.opt.rails rail = some t →
       (Ends (.railRecover rail) s fun m => Sparse.find m.opt.rails rail = none ∧
         (∀ i < 6, getLaser m (on i) = { getLaser s.m (on i) with paused := false }) ∧ optics m) ∧
       (now < t + 1000000 → same (.railFailTimeout rail)) ∧
       (t + 1000000 ≤ now → Ends (.railFailTimeout rail) s fun m => Sparse.find m.opt.rails rail = none ∧
         odNat m Od.RAIL_FAULTS = (odNat s.m Od.RAIL_FAULTS + 1) % 2 ^ 32 ∧
         ∀ i < 6, getLaser m (on i) = { laserCut (getLaser s.m (on i)) with railFail := true })))

/-- An acknowledgement or NAK outside the unacknowledged window counts STALE_ACKS and does nothing else. Inside it the path makes progress: the oldest unacknowledged PSN moves past it, the retry count is 0. A sequence-error NAK and a time-out without progress resend from the named PSN, counting RDMA_RETRANSMITS, RESENDS and a retry; above RETRY_CNT the path fails with REASON 1. Other NAKs put it in error with REASON 4, 5 or 6, counted in KEY_NAKS; a path suspended for PATH_HOLD_MS fails with REASON 2. CONN_REARM starts a failed path from its record and refuses another. Valid tables are stored, outside a job paths of changed records start from them; others are refused. A hold of R500 that is over ends. -/
def Obligations.RemoteWritePathsRecoverFromLoss : Prop :=
  ∀ (s : State) (c j : Nat), s.awake → j < 4 →
    let same := fun i => Ends i s fun m => m = s.m
    let x := getPath s.m c j
    let i := connInfo s.m c
    let now := s.m.clk.now
    let counts := fun key (m : M8) => odNat m key = (odNat s.m key + 1) % 2 ^ 32
    let is := fun st reason (m : M8) => (getPath m c j).state = st ∧ (getPath m c j).reason = reason
    let resent := fun una retries (m : M8) =>
      if i.retry < retries + 1 then is 3 1 m ∧ counts Od.PATH_FAILS m
      else (getPath m c j).state = 1 ∧ (getPath m c j).una = una ∧ (getPath m c j).retries = retries + 1 ∧
        (getPath m c j).resends = (x.resends + 1) % 2 ^ 32 ∧ counts Od.RDMA_RETRANSMITS m
    (∀ psn, psnOut s.m c j psn = false → ∀ syn, ∀ i ∈ [Instr.roceAckReceive c j psn, .roceNakReceive c j psn syn], Ends i s (CountsUp Od.STALE_ACKS 32 s.m)) ∧
    (∀ psn, psnOut s.m c j psn = true →
      (Ends (.roceAckReceive c j psn) s fun m => (getPath m c j).una = (psn + 1) % 2 ^ psnBits i ∧ (getPath m c j).retries = 0 ∧
        (getPath m c j).state = 1) ∧
      Ends (.roceNakReceive c j psn 0x60) s (resent psn (if psn = x.una then x.retries else 0)) ∧
      (∀ syn reason, (syn, reason) ∈ [(0x61, 5), (0x62, 4), (0x63, 6)] → Ends (.roceNakReceive c j psn syn) s fun m =>
        is 4 reason m ∧ counts Od.PATH_FAILS m ∧ counts Od.KEY_NAKS m) ∧
      (∀ syn, syn ∉ [0x60, 0x61, 0x62, 0x63] → Ends (.roceNakReceive c j psn syn) s fun m => (getPath m c j).una = psn ∧ (getPath m c j).state = 1)) ∧
    (let late := i.sr = false ∧ x.state = 1 ∧ x.high ≠ x.una ∧ x.active + i.timeout ≤ now
     (¬late → same (.roceAckTimeout c j)) ∧ (late → Ends (.roceAckTimeout c j) s (resent x.una x.retries))) ∧
    (let ended := x.state = 2 ∧ x.heldFrom + odNat s.m Od.PATH_HOLD_MS * 1000000 ≤ now
     (¬ended → same (.pathHoldTimeout c j)) ∧ (ended → Ends (.pathHoldTimeout c j) s fun m => is 3 2 m ∧ counts Od.PATH_FAILS m)) ∧
    (x.state ≠ 3 ∧ x.state ≠ 4 → Ends (.connRearm c j) s fun m => m = { s.m with out := .fwStatus 0x08000021 :: s.m.out }) ∧
    (x.state = 3 ∨ x.state = 4 → Ends (.connRearm c j) s fun m => is 1 0 m ∧ (getPath m c j).una = (pathInfo s.m c j).tx0 ∧
      (getPath m c j).rx = (pathInfo s.m c j).rx0 ∧ (getPath m c j).retries = 0) ∧
    (∀ b,
      (∀ a, connAbort s.m b = some a → Ends (.connTableWrite b) s fun m => m = { s.m with out := .fwStatus a :: s.m.out }) ∧
      (connAbort s.m b = none → Ends (.connTableWrite b) s fun m => odBytes m Od.CONN_TABLE = b ∧ EntriesBut [Od.CONN_TABLE] s.m m ∧
        m = { s.m with dict := m.dict, rem := { s.m.rem with paths := m.rem.paths } } ∧
        (jobLoaded s.m = true → m.rem = s.m.rem) ∧
        (jobLoaded s.m = false ∧ c < connCount s.m b →
          let new := connRecOf b c
          let p := pathInfoOf (pathRecOf new j)
          getPath m c j =
            if slice new 0 64 = slice (connRec s.m c) 0 64 ∧ pathRecOf new j = pathRecOf (connRec s.m c) j then x
            else if j < (connInfoOf new).npaths then { state := 1, next := p.tx0, high := p.tx0, una := p.tx0, rx := p.rx0, active := now }
            else {})) ∧
      (∀ a, grantAbort s.m b = some a → Ends (.grantsWrite b) s fun m => m = { s.m with out := .fwStatus a :: s.m.out }) ∧
      (grantAbort s.m b = none → Ends (.grantsWrite b) s fun m => odBytes m Od.GRANTS = b ∧ EntriesBut [Od.GRANTS] s.m m ∧
        m = { s.m with dict := m.dict })) ∧
    (∀ h,
      (¬(h ∈ s.m.rem.lifeHeld ∧ holdOver s.m h = true) → same (.reuseHoldExpire h)) ∧
      (h ∈ s.m.rem.lifeHeld ∧ holdOver s.m h = true → Ends (.reuseHoldExpire h) s fun m =>
        m = { s.m with rem := { s.m.rem with lifeHeld := s.m.rem.lifeHeld.filter fun q => q ≠ h } }))

/-- A PFC frame for ROCE_PRIO pauses it for its quanta or resumes it; an expired pause ends; XOFF goes out at PFC_XOFF_KIB, again every 50 us, and is cancelled 32 KiB lower; a pause of PFC_STORM_MS fails the port's paths with REASON 3. A frame with a bad FCS is dropped, one that is not RoCE v2 for PORT_IP or for no local QPN is foreign; a CNP counts. An inbound packet behind the expected PSN is counted and acknowledged, one ahead is answered with a sequence error, one that the keys do not admit with its NAK; the next one admitted is written and acknowledged. Acsal-SR executes each PSN once, sends a SACK on request, on a gap, after 16 frames or on its timer; a SACK moves CUM, STATUS 1 is an error, a PSN not acknowledged in time is sent again until RETRY_CNT. -/
def Obligations.InboundWritesPfcAndAcsalSr : Prop :=
  ∀ (s : State) (p c j : Nat), s.awake → p < 32 → j < 4 →
    let same := fun i => Ends i s fun m => m = s.m
    let now := s.m.clk.now
    let prio := odNat s.m Od.ROCE_PRIO
    let port := getPort s.m p
    let f := getPfc s.m p
    let counts := fun key (m : M8) => odNat m key = (odNat s.m key + 1) % 2 ^ 32
    let held := fun q => { f with until_ := now + ceilDiv (q * 512) 800, from_ := if now < f.until_ then f.from_ else now, storm := f.storm && q != 0 }
    let paused := fun q (m : M8) => getPfc m p = held q
    let pfcIs := fun (y : Pfc) (m : M8) => getPfc m p = y ∧ (∀ p', p' ≠ p → getPfc m p' = getPfc s.m p') ∧ m = { s.m with rem := { s.m.rem with pfc := m.rem.pfc } }
    let pfcSends := fun (y : Pfc) (quanta : Nat) (m : M8) => getPfc m p = y ∧ (∀ p', p' ≠ p → getPfc m p' = getPfc s.m p') ∧
      m = { s.m with rem := { s.m.rem with pfc := m.rem.pfc },
                     out := if s.m.safe.faultN = true ∧ port.acsal = false then s.m.out else .frame p (pfcFrame s.m p quanta) :: s.m.out }
    (∀ mask q,
      (mask.testBit prio = true → Ends (.pfcReceive p mask q) s (paused q)) ∧
      (mask.testBit prio = true ∧ q ≠ 0 → Ends (.pfcReceive p mask q) s (pfcIs (held q))) ∧
      (mask.testBit prio = false ∧ mask ≠ 0 → Ends (.pfcReceive p mask q) s (pfcIs { f with others := f.others + 1 })) ∧
      same (.pfcReceive p 0 q)) ∧
    (¬(f.until_ ≠ 0 ∧ f.until_ ≤ now) → same (.pfcPauseExpire p)) ∧
    (f.until_ ≠ 0 ∧ f.until_ ≤ now → Ends (.pfcPauseExpire p) s fun m => getPfc m p = { f with until_ := 0, storm := false }) ∧
    (∀ occ,
      let hi := odNat s.m Od.PFC_XOFF_KIB * 1024
      let g := { f with occupied := occ }
      (f.xoff = false ∧ hi ≤ occ → Ends (.pfcXoffRepeat p occ) s (pfcSends { g with xoff := true, xoffAt := now } 0xFFFF)) ∧
      (f.xoff = false ∧ occ < hi → Ends (.pfcXoffRepeat p occ) s (pfcIs g)) ∧
      (f.xoff = true ∧ occ < hi - 32768 → Ends (.pfcXoffRepeat p occ) s (pfcSends { g with xoff := false } 0)) ∧
      (f.xoff = true ∧ hi - 32768 ≤ occ →
        (f.xoffAt + 50000 ≤ now → Ends (.pfcXoffRepeat p occ) s (pfcSends { g with xoffAt := now } 0xFFFF)) ∧
        (now < f.xoffAt + 50000 → Ends (.pfcXoffRepeat p occ) s (pfcIs g)))) ∧
    (let storm := now < f.until_ ∧ f.storm = false ∧ f.from_ + odNat s.m Od.PFC_STORM_MS * 1000000 ≤ now
     (¬storm → same (.pfcStorm p)) ∧
     (storm → Ends (.pfcStorm p) s fun m => getPfc m p = { f with storm := true } ∧ counts Od.PFC_STORMS m ∧
       ∀ cj ∈ pathsOn s.m p, (getPath s.m cj.1 cj.2).state ∈ [1, 2] → (getPath m cj.1 cj.2).state = 3 ∧ (getPath m cj.1 cj.2).reason = 3)) ∧
    (∀ occ b,
      let i := Instr.ethFrameReceive p occ b
      let n := b.length - 4
      let t := b.take n
      (port.acsal = true ∨ leField b n 4 ≠ crc32 t → same i) ∧
      (port.acsal = false ∧ leField b n 4 = crc32 t →
        let pause := beField t 0 6 = 0x0180C2000001 ∧ beField t 12 2 = 0x8808 ∧ beField t 14 2 = 0x0101
        (pause ∧ (beField t 16 2).testBit prio = true → Ends i s (paused (beField t (18 + 2 * prio) 2))) ∧
        (¬pause ∧ (roceParse t).isNone = true → Ends i s (CountsUp Od.FOREIGN_DROPS 32 s.m)) ∧
        (∀ r, roceParse t = some r ∧ ¬pause →
          let own := odBytes s.m (Od.PORT_IP + p)
          let q := beField r.trans 5 3
          let cq := (q - 0x100000) / 4
          let known := 0x100000 ≤ q ∧ cq < 4096 ∧ (getPath s.m cq (q % 4)).state ≠ 0
          (r.dst ≠ own ++ zeros (16 - own.length) → Ends i s (CountsUp Od.FOREIGN_DROPS 32 s.m)) ∧
          (r.dst = own ++ zeros (16 - own.length) ∧ leField (policerRec s.m p r.pcp) 0 1 = 0 ∧ r.icrc = crc32 r.masked →
            (¬known → Ends i s (counts Od.FOREIGN_DROPS)) ∧
            (known ∧ beField r.trans 0 1 = 0x81 → Ends i s (counts Od.CNP_RX)) ∧
            (known ∧ beField r.trans 0 1 = 0x11 ∧ beField r.trans 12 1 < 0x20 ∧ psnOut s.m cq (q % 4) (beField r.trans 9 3) = true → Ends i s fun m =>
              (getPath m cq (q % 4)).una = (beField r.trans 9 3 + 1) % 2 ^ psnBits (connInfo s.m cq)))))) ∧
    (∀ psn op key addr dlen data,
      let i := Instr.inboundWrite c j psn op key addr dlen data
      let x := getPath s.m c j
      let d := serialDiff 24 psn x.rx
      let out := (pathInfo s.m c j).port
      let answers := fun syn at_ (m : M8) => portUp s.m out = true ∧ s.m.safe.faultN = false →
        m.out = .packet c j at_ (ackPacket s.m c j syn at_) :: s.m.out
      let stays := fun (m : M8) => m.rem = s.m.rem ∧ m.mem = s.m.mem
      let rejects := fun syn => Ends i s fun m => answers syn psn m ∧ counts Od.INBOUND_REJECTS m ∧ stays m
      (x.state ≠ 1 ∨ (connInfo s.m c).sr = true → same i) ∧
      (x.state = 1 ∧ (connInfo s.m c).sr = false →
        (2 ^ 23 ≤ d → Ends i s fun m => answers 0 ((x.rx + 2 ^ 24 - 1) % 2 ^ 24) m ∧ counts Od.DUP_INBOUND m ∧ stays m) ∧
        (0 < d ∧ d < 2 ^ 23 → Ends i s fun m => answers 0x60 x.rx m ∧ stays m) ∧
        (d = 0 ∧ op ∉ [0x06, 0x07, 0x08, 0x0A] → Ends i s fun m => answers 0x61 psn m ∧ stays m) ∧
        (d = 0 ∧ op ∈ [0x06, 0x07, 0x08, 0x0A] →
          let first := op = 0x06 ∨ op = 0x0A
          let last := op = 0x08 ∨ op = 0x0A
          (¬first ∧ x.rxAddr = none → Ends i s fun m => answers 0x61 psn m ∧ stays m) ∧
          (∀ k a left, (if first then some (key, addr, dlen) else x.rxAddr) = some (k, a, left) →
            let wrong := left < data.length ∨ (last ∧ data.length ≠ left)
            let nak := inboundNak s.m k a (if first then left else data.length) (op = 0x0A)
            ((connInfo s.m c).inbound = false → rejects 0x62) ∧
            ((connInfo s.m c).inbound = true ∧ wrong → rejects 0x61) ∧
            (∀ syn, (connInfo s.m c).inbound = true ∧ ¬wrong ∧ nak = some syn → rejects syn) ∧
            ((connInfo s.m c).inbound = true ∧ ¬wrong ∧ nak = none → Ends i s fun m => (getPath m c j).rx = (psn + 1) % 2 ^ 24 ∧
              (getPath m c j).rxAddr = (if last then none else some (k, a + data.length, left - data.length)) ∧
              (portUp s.m out = true ∧ s.m.safe.faultN = false → ∃ b, m.out.head? = some (.packet c j psn b)) ∧
              ∀ h, ((inboundKeys s.m).find? fun q => q.1 == k && q.2.1 ≤ a && a + data.length ≤ q.2.1 + q.2.2.1) = some h →
                h.2.2.2 = false ∧ a - h.2.1 + data.length ≤ 0x40000 → m.mem = (writeMem s.m a data).mem))))) ∧
    (∀ src b,
      let peer := (pathInfo s.m c 0).peer
      let x := getPath s.m c 0
      let psn := leField b 8 4
      let n := leField b 24 4
      let d := serialDiff 32 psn x.rx
      let sacks := fun (rx status bad : Nat) (m : M8) => ∃ q, m.fab.units = s.m.fab.units ++ [{ dst := peer, cls := 6, payload := q }] ∧
        leField q 0 1 = 2 ∧ leField q 1 1 = status ∧ leField q 8 4 = rx % 2 ^ 32 ∧ leField q 12 4 = bad % 2 ^ 32 ∧ (getPath m c 0).toSack = 0
      (srConn s.m src b = none → same (.srWriteReceive src b) ∧ same (.srSackReceive src b)) ∧
      (srConn s.m src b = some c →
        let formed := leField b 0 1 = 1 ∧ leField b 1 1 ≤ 1 ∧ leField b 2 2 = 0 ∧ leField b 28 4 = 0 ∧ 0 < n ∧ n ≤ 4096 ∧ b.length = 32 + n
        let again := 2 ^ 31 ≤ d ∨ psn ∈ x.got
        (¬formed → same (.srWriteReceive src b)) ∧
        (formed ∧ again → Ends (.srWriteReceive src b) s fun m => counts Od.DUP_INBOUND m ∧ sacks x.rx 0 0 m ∧ m.mem = s.m.mem) ∧
        (formed ∧ ¬again ∧ 65 ≤ d → same (.srWriteReceive src b)) ∧
        (formed ∧ ¬again ∧ d < 65 →
          let nak := if (connInfo s.m c).inbound = true then inboundNak s.m (leField b 12 4) (leField b 16 8) n true else some 0x62
          let y := cumFuel 66 { x with got := psn :: x.got }
          let soon := bit (leField b 1 1) 0 = true ∨ (d ≠ 0 ∧ ∀ g ∈ x.got, serialDiff 32 g x.rx < d) ∨ 16 ≤ x.toSack + 1
          (nak ≠ none → Ends (.srWriteReceive src b) s fun m => counts Od.INBOUND_REJECTS m ∧ sacks x.rx 1 psn m ∧ m.mem = s.m.mem) ∧
          (nak = none → Ends (.srWriteReceive src b) s fun m => (getPath m c 0).rx = y.rx ∧ (getPath m c 0).got = y.got ∧
            (soon → sacks y.rx 0 0 m) ∧ (¬soon → (getPath m c 0).toSack = x.toSack + 1))) ∧
        (let cum := leField b 8 4
         let sack := leField b 0 1 = 2 ∧ leField b 1 1 ≤ 1 ∧ leField b 2 2 = 0 ∧ leField b 24 8 = 0
         let stale := serialDiff 32 x.high x.una < serialDiff 32 cum x.una
         (¬sack → same (.srSackReceive src b)) ∧
         (sack ∧ leField b 1 1 = 1 → Ends (.srSackReceive src b) s fun m => (getPath m c 0).state = 4 ∧ (getPath m c 0).reason = 4) ∧
         (sack ∧ leField b 1 1 = 0 ∧ stale → Ends (.srSackReceive src b) s (CountsUp Od.STALE_ACKS 32 s.m)) ∧
         (sack ∧ leField b 1 1 = 0 ∧ ¬stale → Ends (.srSackReceive src b) s fun m => (getPath m c 0).una = cum)))) ∧
    (let x := getPath s.m c 0
     let i := connInfo s.m c
     let late := i.sr = true ∧ x.state = 1 ∧ x.next ≠ x.una ∧ x.active + i.timeout ≤ now
     (¬late → same (.srAckTimeout c)) ∧
     (late ∧ x.next < 2 ^ 32 ∧ x.una < 2 ^ 32 ∧ x.una ∉ x.sacked →
       (i.retry ≤ x.tries.get 0 x.una → Ends (.srAckTimeout c) s fun m => (getPath m c 0).state = 3 ∧ (getPath m c 0).reason = 1) ∧
       (∀ q w, x.tries.get 0 x.una < i.retry ∧ (x.msgs.find? fun m => m.begun && serialDiff 32 x.una m.psn < m.pkts) = some q ∧ findMsg s.m q.msg = some w →
         Ends (.srAckTimeout c) s fun m => (getPath m c 0).tries.get 0 x.una = x.tries.get 0 x.una + 1 ∧ ∃ u ∈ m.fab.units,
           u = { dst := (pathInfo s.m c 0).peer, cls := 6, payload := srFrame s.m c w (serialDiff 32 x.una q.psn) q.pkts x.una })) ∧
     (¬(i.sr = true ∧ x.toSack ≠ 0) → same (.srSackTimer c)) ∧
     (i.sr = true ∧ x.toSack ≠ 0 → Ends (.srSackTimer c) s fun m => getPath m c 0 = { x with toSack := 0 } ∧ ∃ q,
       m.fab.units = s.m.fab.units ++ [{ dst := (pathInfo s.m c 0).peer, cls := 6, payload := q }] ∧ leField q 0 1 = 2 ∧ leField q 1 1 = 0))

/-- Every HB_US a device with a role sends its HEARTBEAT to its neighbours' holders and the acting master; a partner that hears nothing for HB_MISS of them declares KIND 1, once; a holder that hears nobody fences itself and halts its tiles; an owner whose CANCEL is not answered for 1 ms declares KIND 5. Unanswered messages are sent again after 100 us. The coordinator of a FAULT marks the role as lost, forwards it to the job coordinator and asks the free spare, else the partner's holder, to take the role; a third role fails the job with 0x0014. Messages of another job or of an older RB_ID change nothing. Parts of intents and mirrors are stored, intents answered; a rebuild that ends leaves REBUILD_LEFT 0; each step the slack is evaluated. -/
def Obligations.HeartbeatsFaultsAndMirrors : Prop :=
  ∀ (s : State), s.awake →
    let same := fun c => Ends c s fun m => m = s.m
    let g := s.m.grp
    let now := s.m.clk.now
    let own := ownAddr s.m
    let W := groupW s.m
    let sent := fun (m : M8) => m = { s.m with grp := m.grp, fab := { s.m.fab with units := m.fab.units } }
    let faultTo := fun role kind => Recovering (coordFor s.m role) [(0, 1, 2), (12, 2, role), (14, 1, bits own 9 6), (15, 1, kind), (16, 8, now)]
    (let due := g.own ≠ [] ∧ g.hbSent + odNat s.m Od.HB_US * 1000 ≤ now
     (¬due → same .heartbeatSend) ∧
     (due → Ends .heartbeatSend s fun m => m.grp = { g with hbSent := now } ∧ sent m ∧ ∃ b,
       m.fab.units = s.m.fab.units ++ (hbTargets s.m).map (fun a => { dst := a, cls := 4, payload := b }) ∧
       ∀ f ∈ [(0, 1, 1), (2, 2, ownRole s.m), (4, 4, jobTag s.m), (8, 4, g.rbId), (12, 4, unsigned 32 g.slack), (16, 1, jobState s.m)],
         leField b f.1 f.2.1 = f.2.2 % 2 ^ (8 * f.2.1))) ∧
    (∀ role,
      let h := roleHolder s.m role
      let miss := role < W ∧ jobRuns s.m = true ∧ g.fenced = false ∧ holdsRole s.m (nextRole s.m role) = true ∧ h ≠ own ∧ h ≠ 0xFFFF ∧
        silent s.m h = true ∧ (role, 1) ∉ g.pastFaults
      (¬miss → same (.heartbeatMiss role)) ∧
      (miss → Ends (.heartbeatMiss role) s fun m => m.grp = { g with pastFaults := (role, 1) :: g.pastFaults } ∧ faultTo role 1 m ∧ sent m)) ∧
    (let alone := jobRuns s.m = true ∧ g.own ≠ [] ∧ g.fenced = false ∧ hbTargets s.m ≠ [] ∧ ∀ a ∈ hbTargets s.m, silent s.m a = true
     (¬alone → same .selfFence) ∧
     (alone → Ends .selfFence s fun m => m.grp = { g with fenced := true, fencedAt := now } ∧
       (∀ t, (getTile s.m t).st = .running → (getTile m t).busy = some .halt) ∧
       odNat m Od.SELF_FENCES = (odNat s.m Od.SELF_FENCES + 1) % 2 ^ 32 ∧ odNat m Od.SAFETY_STATE = (if s.m.safe.faultN then 3 else 2) ∧
       EntriesBut [Od.SELF_FENCES, Od.SAFETY_STATE] s.m m ∧ m = { s.m with dict := m.dict, grp := m.grp, tiles := m.tiles })) ∧
    (let late := fun (a : AwaitMsg) => decide (a.time + 100000 ≤ now)
     Ends .recoveryResend s fun m => m.grp = { g with awaits := g.awaits.map fun a => if late a then { a with time := now } else a } ∧ sent m ∧
       m.fab.units = s.m.fab.units ++ (g.awaits.filter late).map fun a => { dst := a.dst, cls := 4, payload := a.payload }) ∧
    ((∀ c ∈ s.m.job.cancels, now < c.time + 1000000) → same .cancelAckTimeout) ∧
    (Ends .cancelAckTimeout s fun m => sent m ∧ ∀ c ∈ s.m.job.cancels, c.time + 1000000 ≤ now → ∀ i, roleOfAddr s.m c.home = some i →
      (i, 5) ∈ m.grp.pastFaults ∧ ((i, 5) ∉ g.pastFaults → faultTo i 5 m)) ∧
    (∀ src b,
      let role := leField b 12 2
      let takes := heard s.m b 2 ∧ 24 ≤ b.length ∧ leField b 14 1 = bits own 9 6 ∧ role < W ∧ coordFor s.m role = own ∧
        ¬((getRole s.m role).holder = 0xFFFF ∧ g.roles.has role = true)
      (¬takes → same (.faultReceive src b)) ∧
      (takes ∧ role ≠ 63 →
        let lost := fun (m : M8) => Sparse.find m.grp.roles role = some { holder := 0xFFFF, state := 0xFF } ∧
          (jobCoordinator s.m (roleAddr s.m role) ≠ own → ({ dst := jobCoordinator s.m (roleAddr s.m role), cls := 4, payload := b } : UnitFrame) ∈ m.fab.units)
        let h := roleHolder s.m (nextRole s.m role)
        let two := 2 ≤ ((List.range W).filter fun i => i != role && roleHolder s.m i == h).length
        (spareIdle s.m = true → Ends (.faultReceive src b) s fun m => lost m ∧ sent m ∧
          RoleSent 3 g.spareAddr role 1 0 (nowStep s.m) m ∧ (role, 1) ∈ m.grp.wanted ∧ Sparse.find m.grp.roles 63 = some { holder := g.spareAddr, state := 5 }) ∧
        (spareIdle s.m = false ∧ 2 ≤ W ∧ h ≠ 0xFFFF →
          (¬two → Ends (.faultReceive src b) s fun m => lost m ∧ sent m ∧ RoleSent 3 h role 1 0 (nowStep s.m) m ∧ (role, 1) ∈ m.grp.wanted) ∧
          (two ∧ jobLoaded s.m = true ∧ jobState s.m ≠ 5 ∧ jobState s.m ≠ 6 → Ends (.faultReceive src b) s fun m => lost m ∧
            jobState m = 6 ∧ odNat m Od.JOB_FAIL = 0x0014)))) ∧
    (∀ src b,
      let part := leField b 12 2
      let n := leField b 24 6
      let r := leField b 30 2
      let takes := heard s.m b 6 ∧ 80 ≤ b.length ∧ part < leField b 14 2
      (¬takes → same (.sealIntentReceive src b)) ∧
      (takes → Ends (.sealIntentReceive src b) s fun m => sent m ∧
        Recovering src [(0, 1, 7), (12, 6, n), (18, 2, r), (20, 2, part)] m ∧
        ∃ i is, m.grp.intents = i :: is ∧ i.step = n ∧ i.rank = r ∧ i.parts = leField b 14 2 ∧ i.commit = slice b 16 64 ∧
          Sparse.find i.got part = some (b.drop 80) ∧ ∀ x ∈ is, x ∈ g.intents)) ∧
    (∀ src b,
      let n := leField b 12 6
      let r := leField b 18 2
      let part := leField b 20 2
      let takes := heard s.m b 7 ∧ 24 ≤ b.length
      (¬takes → same (.intentAckReceive src b)) ∧
      (takes → Ends (.intentAckReceive src b) s fun m =>
        m = { s.m with grp := { g with awaits := m.grp.awaits, acks := m.grp.acks } } ∧
        m.grp.awaits = (g.awaits.filter fun a => !(a.kind == 6 && a.key == intentKey n r part && a.dst == src)) ∧
        m.grp.acks.length = g.acks.length ∧ ∀ x ∈ m.grp.acks, x.step = n → x.rank = r → (src, part) ∈ x.acks)) ∧
    (∀ src b,
      let part := leField b 12 1
      let off := leField b 16 8
      let takes := heard s.m b 9 ∧ 24 ≤ b.length
      (¬(takes ∧ part ≤ 2) → same (.mirrorReceive src b)) ∧
      (takes ∧ part ≤ 2 → Ends (.mirrorReceive src b) s fun m => m = { s.m with grp :=
        if part = 0 then { g with mirrorJob := putMirror g.mirrorJob off (b.drop 24), jobPartHeld := true }
        else if part = 1 then { g with mirrorMap := putMirror g.mirrorMap off (b.drop 24) }
        else { g with mirrorHot := putMirror g.mirrorHot off (b.drop 24) } })) ∧
    (g.rebuilding = false → same .rebuildDone) ∧
    (g.rebuilding = true → Ends .rebuildDone s fun m => m.grp = { g with rebuilding := false } ∧ odNat m Od.REBUILD_LEFT = 0 ∧
      EntriesBut [Od.REBUILD_LEFT] s.m m ∧ m = { s.m with grp := m.grp, dict := m.dict }) ∧
    (let due := jobRuns s.m = true ∧ s.m.pav.running = true ∧ g.slackSeen ≠ nowStep s.m
     (¬due → same .recoverySlackEval) ∧
     (due → Ends .recoverySlackEval s fun m => m.grp.slackSeen = nowStep s.m ∧ m.grp.slack = ownSlack s.m ∧
       Sparse.find m.grp.slacks own = some (unsigned 32 (ownSlack s.m)) ∧ odNat m Od.RECOVERY_SLACK_NS = unsigned 64 (recoverySlack s.m) ∧
       EntriesBut [Od.RECOVERY_SLACK_NS] s.m m ∧ m = { s.m with grp := m.grp, dict := m.dict }))

/-- A ROLE_REQ is answered with RESULT 2 by a device that takes or gives another role, by R532 where two cross, else it is accepted: for a fault until the ROLLBACK, else with a swap at its boundary. A ROLE_ACK of the asked device records the new holder, and the job coordinator sends ROLLBACK with RB_ID one above the last. A newer ROLLBACK discards what is not yet written, moves the role, reloads and starts the tiles, and tells the seals; with every mark the member restarts one above the lowest. Seal marks raise what is sealed. A straggler, or ROLE_CMD, asks spare and holder to swap at the next boundary; from there the new holder has the role, and the old one is the spare once its targets are sealed. -/
def Obligations.RolesRollbacksAndSwaps : Prop :=
  ∀ (s : State), s.awake →
    let same := fun c => Ends c s fun m => m = s.m
    let g := s.m.grp
    let now := s.m.clk.now
    let own := ownAddr s.m
    let W := groupW s.m
    let sent := fun (m : M8) => m = { s.m with grp := m.grp, fab := { s.m.fab with units := m.fab.units } }
    (∀ src b,
      let role := leField b 12 2
      let reason := leField b 14 1
      let boundary := leField b 16 6
      let i := Instr.roleReqReceive src b
      let takes := heard s.m b 3 ∧ 24 ≤ b.length ∧ role < W ∧ 1 ≤ reason ∧ reason ≤ 4
      let other := busyWithOther s.m role = true
      let mine := ∃ a ∈ g.awaits, a.kind = 3 ∧ a.key = role ∧ a.dst = src
      (¬takes → same i) ∧
      (takes ∧ other → Ends i s fun m => RoleSent 4 src role reason 2 boundary m ∧ m.grp = g ∧ sent m) ∧
      (takes ∧ ¬other ∧ mine ∧ src < own → Ends i s fun m => RoleSent 4 src role reason 0 boundary m ∧ sent m ∧
        m.grp = { g with awaits := g.awaits.filter fun a => !(a.kind == 3 && a.key == role && a.dst == src) }) ∧
      (takes ∧ ¬other ∧ mine ∧ own ≤ src → Ends i s fun m => RoleSent 4 src role reason 1 boundary m ∧ m.grp = g ∧ sent m) ∧
      (takes ∧ ¬other ∧ ¬mine ∧ reason = 1 → Ends i s fun m => RoleSent 4 src role 1 0 boundary m ∧ m.grp.takenRole = some role ∧
        m.grp.ackAt = now ∧ m.dbg.recovery = true) ∧
      (takes ∧ ¬other ∧ ¬mine ∧ reason ≠ 1 → Ends i s fun m => RoleSent 4 src role reason 0 boundary m ∧ sent m ∧
        let giving := holdsRole s.m role
        m.grp.swap = some { role := role, reason := reason, boundary := boundary, giving := giving, time := now,
                            peer := if giving then (if reason = 4 then roleAddr s.m role else g.spareAddr) else roleHolder s.m role } ∧
        (giving = true → Sparse.find m.grp.roles role = some { holder := own, state := 3 }))) ∧
    (∀ src b,
      let role := leField b 12 2
      let reason := leField b 14 1
      let i := Instr.roleAckReceive src b
      let takes := heard s.m b 4 ∧ 24 ≤ b.length
      let near := sameGroup src own = true
      let granted := leField b 15 1 = 0
      let asked := ∃ w ∈ g.wanted, w.1 = role
      let answered := g.awaits.filter fun a => !(a.kind == 3 && a.key == role && a.dst == src)
      let answers := fun (m : M8) => m.grp.awaits = answered ∧ ∀ w ∈ m.grp.wanted, w.1 ≠ role
      (¬takes ∨ (¬near ∧ ¬(reason = 1 ∧ granted)) → same i) ∧
      (takes ∧ ¬near ∧ reason = 1 ∧ granted → Ends i s fun m => m.grp = g ∧ sent m ∧
        RollbackSent role (bits src 9 6) ((((positions s.m).find? fun p => sameGroup p.addr src && p.spare).map Position.addr).getD 0xFFFF) s.m m) ∧
      (takes ∧ near ∧ ¬asked → Ends i s fun m => m = { s.m with grp := { g with awaits := answered } }) ∧
      (takes ∧ near ∧ asked ∧ ¬granted → Ends i s fun m => answers m ∧
        (src = g.spareAddr → Sparse.find m.grp.roles 63 = some { holder := src, state := 4 }) ∧ m = { s.m with grp := m.grp }) ∧
      (takes ∧ near ∧ asked ∧ granted ∧ reason = 1 → Ends i s fun m =>
        let st := if src = g.spareAddr then 1 else 2
        let jc := jobCoordinator (setRole s.m role { holder := src, state := st }) (roleAddr s.m role)
        answers m ∧ Sparse.find m.grp.roles role = some { holder := src, state := st } ∧
        odNat m Od.ABSORBED = (if st = 2 then (odNat s.m Od.ABSORBED + 1) % 2 ^ 32 else odNat s.m Od.ABSORBED) ∧
        (jc ≠ own → ({ dst := jc, cls := 4, payload := b } : UnitFrame) ∈ m.fab.units) ∧
        (jc = own → RollbackSent role (bits own 9 6) src (setRole s.m role { holder := src, state := st }) m) ∧
        m = { s.m with grp := m.grp, dict := m.dict, fab := { s.m.fab with units := m.fab.units } }) ∧
      (takes ∧ near ∧ asked ∧ granted ∧ reason ≠ 1 → Ends i s fun m => answers m ∧
        Sparse.find m.grp.roles role = some { holder := roleHolder s.m role, state := 3 } ∧
        odNat m Od.STRAGGLER_SWAPS = (if reason = 2 then (odNat s.m Od.STRAGGLER_SWAPS + 1) % 2 ^ 32 else odNat s.m Od.STRAGGLER_SWAPS) ∧
        m = { s.m with grp := m.grp, dict := m.dict })) ∧
    (∀ src b,
      let role := leField b 12 2
      let group := leField b 14 1
      let standin := leField b 16 2
      let takes := heard s.m b 5 ∧ 24 ≤ b.length ∧ serialNewer 32 (leField b 8 4) g.rbId = true ∧ jobRuns s.m = true
      (¬takes → same (.rollbackReceive src b)) ∧
      (takes → Ends (.rollbackReceive src b) s fun m => m.grp.rbId = leField b 8 4 ∧ m.grp.rollback = true ∧ m.grp.rollbackAt = now ∧
        odNat m Od.ROLLBACKS = (odNat s.m Od.ROLLBACKS + 1) % 2 ^ 32 ∧ m.dbg.recovery = true ∧
        m.job.packed = s.m.job.packed.filter PackedSlot.issued ∧ m.job.cancels = [] ∧ m.safe.held = [] ∧
        (group = bits own 9 6 → (standin = own ↔ role ∈ m.grp.own)) ∧
        (group ≠ bits own 9 6 → m.grp.own = g.own ∧ Sparse.find m.job.standins (positionIn s.m group role) = some standin) ∧
        (g.fenced = false ∧ ¬(group = bits own 9 6 ∧ standin = own) →
          (∀ t ∈ maskTiles s.m.job.img.tileMask, (getTile s.m t).st ≠ .quarantined → (getTile m t).st = .running) ∧
          (group ≠ bits own 9 6 → ∀ r ∈ ownedRanks s.m, Sparse.find m.grp.marks r = some (some (markOf s.m r)))))) ∧
    (∀ src b,
      let n := leField b 12 2
      let rank := fun i => leField b (16 + 8 * i) 2
      let step := fun i => leField b (18 + 8 * i) 6
      let takes := heard s.m b 8 ∧ 16 + 8 * n ≤ b.length
      (¬takes → same (.sealMarkReceive src b)) ∧
      (takes → Ends (.sealMarkReceive src b) s fun m =>
        (∀ i < n, (g.rollback = true → (Sparse.find m.grp.marks (rank i)).join.isSome = true) ∧
          (s.m.job.jr.firstStep ≤ step i → (getRank m (rank i)).sealedTo.any (fun k => step i ≤ k) = true)) ∧
        (∀ r, (getRank m r).sealedTo = (getRank s.m r).sealedTo ∨ ∃ i < n, rank i = r ∧ (getRank m r).sealedTo = some (step i)) ∧
        m = { s.m with grp := { g with marks := m.grp.marks }, job := { s.m.job with ranks := m.job.ranks } })) ∧
    (let k := s.m.job.jr.ranks.length
     let ready := g.rollback = true ∧ jobRuns s.m = true ∧ ∀ r < k, (Sparse.find g.marks r).join.isSome = true
     (¬ready → same .rollbackRestart) ∧
     (ready → Ends .rollbackRestart s fun m => ∃ rm, m.grp = { g with rollback := false, restart := rm } ∧ odNat m Od.LAST_RB_STEP = rm % 2 ^ 64 ∧
       (∀ r < k, ∀ x, Sparse.find g.marks r = some (some x) → rm ≤ x + 1) ∧ (0 < k → ∃ r < k, ∃ x, Sparse.find g.marks r = some (some x) ∧ rm = x + 1) ∧
       m.pav = { s.m.pav with wins := s.m.pav.wins.filter fun w => w.target < rm } ∧ EntriesBut [Od.LAST_RB_STEP] s.m m ∧
       m = { s.m with grp := m.grp, dict := m.dict, pav := m.pav })) ∧
    (∀ role,
      let h := roleHolder s.m role
      let slow := role < W ∧ g.master = own ∧ jobRuns s.m = true ∧ odNat s.m Od.STRAG_STEPS ≤ g.lowSteps.get 0 h ∧
        2 * (odNat s.m Od.STRAG_SLACK_PU : Int) ≤ slackMedian s.m ∧ spareIdle s.m = true
      (¬slow → same (.stragglerDetect role)) ∧
      (slow → Ends (.stragglerDetect role) s fun m => RoleSent 3 g.spareAddr role 2 0 (nowStep s.m + 1) m ∧
        RoleSent 3 h role 2 0 (nowStep s.m + 1) m ∧ (role, 2) ∈ m.grp.wanted ∧ Sparse.find m.grp.roles 63 = some { holder := g.spareAddr, state := 5 } ∧
        sent m)) ∧
    (g.swap = none → same .swapBoundary) ∧
    (∀ w, g.swap = some w →
      let allSealed := ∀ r ∈ roleRanks s.m w.role, w.boundary + s.m.job.img.lead ≤ s.m.job.jr.firstStep ∨
        sealedTo s.m (w.boundary + s.m.job.img.lead - 1) r = true
      let st := if w.reason = 4 then 0 else 1
      (nowStep s.m < w.boundary ∨ (w.giving = true ∧ ¬allSealed) → same .swapBoundary) ∧
      (w.boundary ≤ nowStep s.m ∧ w.giving = true ∧ allSealed → Ends .swapBoundary s fun m => m.grp.swap = none ∧ m.grp.isSpare = true ∧
        w.role ∉ m.grp.own ∧ m.grp.roles = g.roles.set {} w.role { holder := w.peer, state := st } ∧ m = { s.m with grp := m.grp }) ∧
      (w.boundary ≤ nowStep s.m ∧ w.giving = false → Ends .swapBoundary s fun m => w.role ∈ m.grp.own ∧ m.grp.isSpare = false ∧
        m.grp.roles = g.roles.set {} w.role { holder := own, state := st } ∧ (allSealed → m.grp.swap = none) ∧ (¬allSealed → m.grp.swap = some w) ∧
        m = { s.m with grp := m.grp })) ∧
    (∀ v,
      let role := v % 64
      let back := v.testBit 8
      let dest := if back then roleAddr s.m role else g.spareAddr
      let reason := if back then 4 else 3
      (∀ a, roleCmdAbort s.m v = some a → Ends (.roleCmd v) s fun m => m = { s.m with out := .fwStatus a :: s.m.out }) ∧
      (roleCmdAbort s.m v = none → Ends (.roleCmd v) s fun m => RoleSent 3 dest role reason 0 (nowStep s.m + 1) m ∧
        (roleHolder s.m role ≠ dest → RoleSent 3 (roleHolder s.m role) role reason 0 (nowStep s.m + 1) m) ∧ (role, reason) ∈ m.grp.wanted ∧
        (back = false → Sparse.find m.grp.roles 63 = some { holder := g.spareAddr, state := 5 }) ∧ sent m))

/-- A held SLOT_DONE goes once every cell of its tile and its hub have passed a canary that started after it, and the member is not fenced. A canary in which all pass is noted, failing cells are retired, a tile that fails whole or does not answer is quarantined, a failing hub is detected. A detection closes the seal gates, sets SEAL_HOLD, counts, and fences a member with a job and a role; modes 0x0E and 0x0F assert FAULT_N. 1 ms after a deadline without seal or MISS the safety controller sends the MISS and reacts. SEAL_HOLD returns to 0 only by R552. Every SAFE_HB_MS a heartbeat goes out, SEQ one higher; SAFE_TEST without a job arms the self-test, and is refused else. -/
def Obligations.TheSafetyControllerReacts : Prop :=
  ∀ (s : State),
    let same := fun c => Ends c s fun m => m = s.m
    let now := s.m.clk.now
    let counts := fun key n width (m : M8) => odNat m key = (odNat s.m key + n) % 2 ^ width
    (∀ i, s.awake →
      (s.m.safe.held[i]? = none → same (.slotDoneHoldRelease i)) ∧
      (∀ h, s.m.safe.held[i]? = some h →
        let passed := (∀ c ∈ liveCells (getTile s.m h.tile), h.heldAt < (getTile s.m h.tile).cellCanary.get 0 c) ∧ h.heldAt < s.m.safe.hubCanary.get 0 h.hub
        (¬(passed ∧ s.m.grp.fenced = false) → same (.slotDoneHoldRelease i)) ∧
        (passed ∧ s.m.grp.fenced = false → Ends (.slotDoneHoldRelease i) s fun m =>
          let u : UnitFrame := { dst := h.dst, cls := 5, flow := leField h.payload 16 4 % 65536, payload := h.payload }
          m = { s.m with safe := { s.m.safe with held := s.m.safe.held.eraseIdx i }, fab := { s.m.fab with units := s.m.fab.units ++ [u] } }))) ∧
    (∀ t bad answered, s.awake →
      let x := getTile s.m t
      let due := x.cycle / ((2400 - 400 * s.m.pwr.point.get 0 (t / 16)) * 1000)
      let cells := liveCells x
      let fails := cells.filter fun c => bad.testBit c
      let runs := t < 64 ∧ x.st = .running ∧ x.canaryAt < due ∧ cells ≠ []
      (¬(t < 64 ∧ x.st = .running ∧ x.canaryAt < due) → same (.canaryTick t bad answered)) ∧
      (runs ∧ answered = true ∧ fails = [] → Ends (.canaryTick t bad answered) s fun m => counts Od.CANARY_RUNS cells.length 64 m ∧
        (getTile m t).canaryAt = due ∧ (∀ c ∈ cells, (getTile m t).cellCanary.get 0 c = now) ∧ m.safe.tileCanary.get 0 t = now ∧
        (∀ t', t' ≠ t → getTile m t' = getTile s.m t' ∧ m.safe.tileCanary.get 0 t' = s.m.safe.tileCanary.get 0 t') ∧
        EntriesBut [Od.CANARY_RUNS] s.m m ∧ m = { s.m with dict := m.dict, tiles := m.tiles, safe := { s.m.safe with tileCanary := m.safe.tileCanary } }) ∧
      (runs ∧ (answered = false ∨ fails = cells) → Ends (.canaryTick t bad answered) s fun m => Reacts 0x03 1 t false s.m m ∧
        counts Od.CANARY_RUNS cells.length 64 m ∧ counts Od.CANARY_FAILS cells.length 32 m) ∧
      (runs ∧ answered = true ∧ fails ≠ [] ∧ fails ≠ cells → Ends (.canaryTick t bad answered) s fun m =>
        counts Od.CANARY_RUNS cells.length 64 m ∧ counts Od.CANARY_FAILS fails.length 32 m ∧ counts Od.DETECTIONS fails.length 32 m ∧
        odNat m Od.SEAL_HOLD = 1 ∧ m.safe.held = [] ∧ (∀ h < 4, m.safe.gates.get false h = true) ∧
        (popcount 16 x.retired < 2 → (getTile m t).st = .quarantined ∨ ∀ c ∈ fails, (getTile m t).retired.testBit c = true))) ∧
    (∀ hub unit pass, s.awake →
      let due := (s.m.clk.hclk - s.m.safe.hubStart) / 1600000
      let runs := hub < 4 ∧ s.m.safe.hubRuns.get 0 hub < due
      (¬runs → same (.hubCanary hub unit pass)) ∧
      (runs → Ends (.hubCanary hub unit true) s fun m => counts Od.CANARY_RUNS 1 64 m ∧ EntriesBut [Od.CANARY_RUNS] s.m m ∧
        m = { s.m with dict := m.dict, safe := { s.m.safe with hubRuns := s.m.safe.hubRuns.put hub due, hubCanary := s.m.safe.hubCanary.put hub now } }) ∧
      (runs → Ends (.hubCanary hub unit false) s fun m => Reacts 0x04 2 (0x50 + 4 * hub + unit % 4) false s.m m ∧ counts Od.CANARY_RUNS 1 64 m ∧
        counts Od.CANARY_FAILS 1 32 m ∧ m.safe.hubRuns.get 0 hub = due ∧ m.safe.hubCanary = s.m.safe.hubCanary)) ∧
    (∀ mode kind unit rank detail senders,
      let i := Instr.safetyReaction mode kind unit rank detail senders
      (mode = 0 ∨ 0x0F < mode ∨ (s.m.dbg.stop = true ∧ mode < 0x0E) → same i) ∧
      (1 ≤ mode ∧ mode ≤ 0x0F ∧ ¬(s.m.dbg.stop = true ∧ mode < 0x0E) →
        (mode = 1 → Ends i s fun m => counts Od.DETECTIONS 1 32 m ∧ m.safe.lastMode = 1 ∧ m.safe.gates = s.m.safe.gates) ∧
        (mode = 8 → Ends i s fun m => counts Od.DETECTIONS 1 32 m ∧ m.safe.lastMode = 8 ∧ odNat m Od.SEAL_HOLD = 1 ∧ ∀ h < 4, m.safe.gates.get false h = true) ∧
        (mode ≠ 1 ∧ mode ≠ 8 → Ends i s (Reacts mode kind unit (mode == 0x0E || mode == 0x0F || kind == 5) s.m)))) ∧
    (∀ n r, s.awake →
      let late := ∃ w ∈ s.m.safe.watches, w.step = n ∧ w.rank = r ∧ w.time + 1600000 ≤ s.m.clk.hclk
      let miss := missingSlots s.m n r
      (¬late → same (.commitWatchdog n r)) ∧
      (late → Ends (.commitWatchdog n r) s fun m => Reacts 0x0D 4 0 false s.m m ∧ counts Od.SAFE_MISSES 1 32 m ∧ m.safe.missReported = true ∧
        (∀ w ∈ m.safe.watches, ¬(w.step = n ∧ w.rank = r)) ∧
        (s.m.job.jr.ctrlAddr ≠ 0xFFFF →
          let b := notice 4 0 0 (jobTag s.m) n r (miss.headD 0) 0 miss.length
          ({ dst := s.m.job.jr.ctrlAddr, cls := 5, flow := miss.headD 0 % 65536, payload := b } : UnitFrame) ∈ m.fab.units))) ∧
    (s.awake →
      let after := s.m.safe.detectTime
      let role := (s.m.grp.takenRole ≠ none ∧ after < s.m.grp.ackAt) ∨ ((∃ t, s.m.grp.loadAt = some t ∧ after < t) ∧ jobLoaded s.m = true) ∨
        serialNewer 32 s.m.grp.rbId s.m.safe.detectRb = true
      let canaries := (∀ t ∈ runningTiles s.m, after < s.m.safe.tileCanary.get 0 t) ∧
        ∀ h < 4, s.m.pwr.domOff.get false h = true ∨ after < s.m.safe.hubCanary.get 0 h
      let may := odNat s.m Od.SEAL_HOLD = 1 ∧ s.m.grp.fenced = false ∧ role ∧ canaries
      (¬may → same .sealHoldRelease) ∧
      (may → Ends .sealHoldRelease s fun m => odNat m Od.SEAL_HOLD = 0 ∧ odNat m Od.SAFETY_STATE = (if s.m.safe.faultN then 3 else 0) ∧
        EntriesBut [Od.SEAL_HOLD, Od.SAFETY_STATE] s.m m ∧ m = { s.m with dict := m.dict, safe := { s.m.safe with gates := [], reacting := false } })) ∧
    Ends .hub0WatchdogExpire s (Reacts 0x0E 5 0 true s.m) ∧
    (∀ hub,
      let late := hub < 4 ∧ s.m.safe.gates.get false hub = true ∧ s.m.safe.detectTime + 10000 ≤ now
      (¬late → same (.sealGateTimeout hub)) ∧ (late → Ends (.sealGateTimeout hub) s (Reacts 0x0F 2 (0x48 + hub) true s.m))) ∧
    (let due := odNat s.m Od.SAFE_HB_ENABLE = 1 ∧ s.m.safe.hbTime + odNat s.m Od.SAFE_HB_MS * 1000000 ≤ now
     (¬due → same .safetyHeartbeat) ∧
     (due → Ends .safetyHeartbeat s fun m =>
       let seq := (s.m.safe.hbSeq + 1) % 2 ^ 32
       ∃ b, m = { s.m with safe := { s.m.safe with hbSeq := seq, hbTime := now, missReported := false },
                           out := .datagram (odInForce s.m Od.SAFE_UDP_PORT) b :: s.m.out } ∧ b.length = 32 ∧
         leField b 28 4 = crc32c (b.take 28) % 2 ^ 32 ∧
         ∀ f ∈ [(0, 2, 0x5348), (2, 1, 1), (3, 1, if s.m.safe.faultN then 3 else odNat s.m Od.SAFETY_STATE), (4, 4, seq), (8, 8, odNat s.m Od.SERIAL),
             (16, 2, ownAddr s.m), (18, 2, odNat s.m Od.DETECTIONS), (20, 1, s.m.safe.lastMode), (22, 2, odNat s.m Od.SAFE_MISSES), (24, 4, 0)],
           leField b f.1 f.2.1 = f.2.2 % 2 ^ (8 * f.2.1))) ∧
    (∀ v, s.awake →
      (v ≠ 1 → Ends (.safeTest v) s fun m => m = { s.m with out := .fwStatus 0x06090030 :: s.m.out }) ∧
      (jobLoaded s.m = true → Ends (.safeTest 1) s fun m => m = { s.m with out := .fwStatus 0x08000021 :: s.m.out }) ∧
      (jobLoaded s.m = false → Ends (.safeTest 1) s fun m => getTile m 0 = { getTile s.m 0 with safeTest := true } ∧
        (∀ t, t ≠ 0 → getTile m t = getTile s.m t) ∧ m = { s.m with tiles := m.tiles }))

/-- A power-on reset clears every unit and waits for RESET_N; RESET_N low lowers every output in reverse order, its rise resets the package with cause 2, or 0 after a power-on, and raises the groups in order, each after the one before has come up; with FAULT_N latched LAS is skipped and the OE domains stay off. A group that is not up in 10 ms is recorded and everything falls; the sequence is tried again 1 s later, three times, then the package stays down. A group that falls in Active is a unit fault of a loaded job, else its domains are unusable. SLEEP_CMD starts stage 1 or is refused; each stage ends with its work; stage 5 ends asleep. WAKE_N held 1 ms or a wake datagram with the tag wakes with its WAKE_SRC. -/
def Obligations.ResetsPowerSequenceSleepAndWake : Prop :=
  ∀ (s : State),
    let same := fun c => Ends c s fun m => m = s.m
    let p := s.m.pwr
    let now := s.m.clk.now
    let raised := fun k (m : M8) => m.pwr.seq = .rising ∧ m.pwr.seqStep = k ∧ m.out.head? = some (.pin ("EN_" ++ groupName k) true)
    let lowered := fun k (m : M8) => m.pwr.seq = .falling ∧ m.pwr.seqStep = k ∧ m.out.head? = some (.pin ("EN_" ++ groupName k) false)
    let cleared := fun (m : M8) => m.mem = [] ∧ m.sync = [] ∧ m.tiles = [] ∧ m.job = {} ∧ m.rem = {} ∧ m.intc = {} ∧ m.dict.sessions = []
    let caused := fun cause src (m : M8) => odNat m Od.RESET_CAUSE = cause + src * 2 ^ 8 + b2n m.safe.faultN * 2 ^ 16
    (Ends .powerOnReset s fun m => cleared m ∧ caused 0 0 m ∧ m.clk = {} ∧ m.safe.faultN = false ∧
      m.pwr.seq = .down ∧ m.pwr.off = true ∧ m.pwr.resetLow = true ∧ m.pwr.porPending = true) ∧
    (p.resetLow = true → same (.resetN true)) ∧
    (p.resetLow = false → Ends (.resetN true) s fun m =>
      let top := if p.seq = .up then 6 else if p.seq = .rising then p.seqStep else 0
      m.pwr.resetLow = true ∧ m.pwr.off = true ∧ m = { s.m with pwr := m.pwr, out := m.out } ∧
      (p.seq = .falling → m.pwr.seq = .falling ∧ m.pwr.seqStep = p.seqStep) ∧ (p.seq ≠ .falling ∧ top = 0 → m.pwr.seq = .down) ∧
      (p.seq ≠ .falling ∧ top ≠ 0 → lowered top m)) ∧
    (p.resetLow = false → same (.resetN false)) ∧
    (p.resetLow = true → Ends (.resetN false) s fun m => cleared m ∧ caused (if p.porPending then 0 else 2) 0 m ∧ raised 1 m ∧
      m.safe.faultN = (s.m.safe.faultN && !p.porPending) ∧ m.pwr.resetLow = false ∧ m.pwr.porPending = false ∧ m.pwr.off = true) ∧
    (p.seq ≠ .rising → same .powerUpStep ∧ same .pgTimeout) ∧
    (p.seq = .rising →
      (let last := 6 ≤ p.seqStep ∨ (p.seqStep = 5 ∧ s.m.safe.faultN = true)
       (last → Ends .powerUpStep s fun m => m.pwr.seq = .up ∧ m.pwr.off = false ∧ odNat m Od.POWER_STATE = 0 ∧ (s.m.dbg.stopNLow = true → m.dbg.stop = true) ∧
         (s.m.safe.faultN = true → ∀ k < 8, m.pwr.domOff.get false (76 + k) = true)) ∧
       (¬last → Ends .powerUpStep s fun m => raised (p.seqStep + 1) m ∧ m = { s.m with pwr := m.pwr, out := m.out })) ∧
      (now < p.seqAt + 10000000 → same .pgTimeout) ∧
      (p.seqAt + 10000000 ≤ now → Ends .pgTimeout s fun m => odNat m Od.SEQ_FAIL_GROUP = p.seqStep % 256 ∧
        odNat m Od.SEQ_FAILS = (odNat s.m Od.SEQ_FAILS + 1) % 2 ^ 32 ∧ m.pwr.seqFails = p.seqFails + 1 ∧ lowered p.seqStep m ∧
        m = { s.m with pwr := m.pwr, out := m.out, dict := m.dict })) ∧
    (p.seq ≠ .falling → same .powerDownStep) ∧
    (p.seq = .falling →
      (2 ≤ p.seqStep → Ends .powerDownStep s fun m => lowered (p.seqStep - 1) m ∧ m = { s.m with pwr := m.pwr, out := m.out }) ∧
      (p.seqStep ≤ 1 →
        let quiet := p.resetLow = true ∨ p.sleepStage = 5 ∨ p.seqFails = 0
        (quiet ∨ p.seqFails ≤ 3 → Ends .powerDownStep s fun m =>
          m = { s.m with pwr := { p with seq := if quiet then .down else .waiting, seqStep := 0, seqAt := now } }) ∧
        (¬quiet ∧ 3 < p.seqFails → Ends .powerDownStep s fun m => odNat m Od.POWER_STATE = 2 ∧ EntriesBut [Od.POWER_STATE] s.m m ∧
          m = { s.m with dict := m.dict, pwr := { p with seq := .down, seqStep := 0, seqAt := now, seqFails := 0 } }))) ∧
    (let again := p.seq = .waiting ∧ p.seqAt + 1000000000 ≤ now
     (¬again → same .seqRetry) ∧ (again → Ends .seqRetry s fun m => raised 1 m ∧ m = { s.m with pwr := m.pwr, out := m.out })) ∧
    (∀ g, s.awake →
      let falls := p.seq = .up ∧ 1 ≤ g ∧ g ≤ 6 ∧ odNat s.m Od.POWER_STATE = 0
      (¬falls → same (.pgFallActive g)) ∧
      (falls ∧ jobLoaded s.m = true → Ends (.pgFallActive g) s fun m => (s.m.grp.own ≠ [] → m.grp.fenced = true) ∧ m.pwr = p) ∧
      (falls ∧ jobLoaded s.m = false → Ends (.pgFallActive g) s fun m => (∀ d, m.pwr.domOff.get false d = (decide (d ∈ groupDomains g) || p.domOff.get false d)) ∧
        m = { s.m with pwr := { p with domOff := m.pwr.domOff } })) ∧
    (∀ v, s.awake →
      (∀ a, sleepAbort s.m v = some a → Ends (.sleepCmd v) s fun m => m = { s.m with out := .fwStatus a :: s.m.out }) ∧
      (sleepAbort s.m v = none → Ends (.sleepCmd v) s fun m => odNat m Od.POWER_STATE = 1 ∧ EntriesBut [Od.POWER_STATE] s.m m ∧
        m = { s.m with dict := m.dict, pwr := { p with sleepStage := 1 } })) ∧
    (∀ d,
      let i := Instr.sleepStageDone d
      let waits := s.m.dbg.stop = true ∨ (p.sleepStage < 5 ∧ ringsBusy s.m = true)
      let durable := ∀ r ∈ s.m.fl.recs, r.durable = true
      (waits ∨ p.sleepStage = 0 ∨ 5 < p.sleepStage ∨ (p.sleepStage = 5 ∧ p.seq ≠ .down) ∨ (p.sleepStage = 3 ∧ ¬durable) → same i) ∧
      (¬waits ∧ p.sleepStage = 1 → Ends i s fun m => m = { s.m with pwr := { p with sleepStage := 2 } }) ∧
      (¬waits ∧ p.sleepStage = 2 → Ends i s fun m =>
        let done := (parityReported s.m d).fl.pending = [] ∧ ∀ r ∈ (parityReported s.m d).fl.recs, r.durable = true
        m.pwr.sleepStage = if done then 3 else 2) ∧
      (¬waits ∧ p.sleepStage = 3 ∧ durable → Ends i s fun m => m = { s.m with pwr := { p with sleepStage := 4 } }) ∧
      (¬waits ∧ p.sleepStage = 4 → Ends i s fun m =>
        let seq := (odNat s.m Od.SLEEP_SEQ + 1) % 2 ^ 32
        let key := odBytes s.m Od.KEY_OPERATOR
        m.pwr.sleepStage = 5 ∧ m.pwr.off = true ∧ lowered 6 m ∧ odNat m Od.SLEEP_SEQ = seq ∧ m.dict.sessions = [] ∧ m.rings.d0 = false ∧
        (∀ q < 32, (getPort m q).st = .disabled) ∧
        m.pwr.wakeTag = if key.all (· == 0#8) then [] else
          (hmacSha256 key (ascii "M8-WAKE" ++ natLe 8 (odNat s.m Od.SERIAL) ++ natLe 4 seq)).take 16) ∧
      (¬waits ∧ p.sleepStage = 5 ∧ p.seq = .down → Ends i s fun m => m.mem = [] ∧ m.tiles = [] ∧ m.pwr.sleepStage = 0 ∧ odNat m Od.POWER_STATE = 2)) ∧
    (let sleeps := odNat s.m Od.POWER_STATE = 2 ∧ p.seq = .down ∧ p.resetLow = false
     let wakes := fun src c => Ends c s fun m => cleared m ∧ caused 1 src m ∧ m.safe.faultN = s.m.safe.faultN ∧ raised 1 m ∧ m.pwr.off = true
     (∀ us,
       let joins := p.wakeAt = some (now, s.m.clk.eighths) ∧ p.cause = 1 ∧ p.seq = .rising
       (us < 1000 ∨ (¬sleeps ∧ ¬joins) → same (.wakeN us)) ∧ (1000 ≤ us ∧ sleeps → wakes 1 (.wakeN us)) ∧
       (1000 ≤ us ∧ ¬sleeps ∧ joins → Ends (.wakeN us) s fun m => caused 1 1 m ∧ EntriesBut [Od.RESET_CAUSE] s.m m ∧
         m = { s.m with dict := m.dict, pwr := { p with wakeSrc := 1 } })) ∧
     (∀ port b,
       let meant := port = odInForce s.m Od.MGMT_UDP_PORT ∧ b.length = 32 ∧ leField b 0 2 = 0x574B ∧ leField b 2 1 = 1 ∧ leField b 3 1 = 0 ∧
         leField b 4 8 = odNat s.m Od.SERIAL ∧ leField b 12 4 = odNat s.m Od.SLEEP_SEQ ∧ p.wakeTag ≠ [] ∧ b.drop 16 = p.wakeTag
       (¬(sleeps ∧ meant) → same (.wakeDatagram port b)) ∧ (sleeps ∧ meant → wakes 2 (.wakeDatagram port b))))

/-- QUAD_OP is stored and takes effect, or is refused; a slower point gates and relocks the clock first, a faster one first has its voltage acknowledged. A voltage acknowledged within 10 mV stands; without an answer it is written again three times, then its rail has failed. At TEMP_WARN a warning counts, at TEMP_TRIP a member fences. Every minute the monitors are summed, every hour logged. REPLAN_NOW and REPLAN_DAYS make every rail due; a due idle rail takes its new voltage. A manifest starts a download, a block is stored and marked, with the last one verification starts; it ends in state 3, 5 or 4 with the first failure's code. Activation starts loader service, which runs the new image as cause 5 or waits in state 8. A first start confirms by its mode; FW_CONFIRM confirms. -/
def Obligations.OperatingPointsAgeingAndFirmware : Prop :=
  ∀ (s : State),
    let same := fun c => Ends c s fun m => m = s.m
    let status := fun a c => Ends c s fun m => m = { s.m with out := .fwStatus a :: s.m.out }
    let p := s.m.pwr
    let now := s.m.clk.now
    let power := fun (m : M8) => m = { s.m with pwr := m.pwr }
    (s.awake →
      (∀ q v,
        let i := Instr.quadOp q v
        let point := p.point.get 0 q
        let target := railMv s.m q v
        (4 ≤ q → same i) ∧
        (q < 4 →
          (∀ a, quadOpAbort s.m q v = some a → status a i) ∧
          (quadOpAbort s.m q v = none → Ends i s fun m => odNat m (Od.QUAD_OP + q) = v ∧ (p.relock.get false q = true → m.pwr = { p with goal := p.goal.put q v })) ∧
          (quadOpAbort s.m q v = none ∧ p.relock.get false q = false →
            (point < v → Ends i s fun m => m.pwr.point.get 0 q = v ∧ m.pwr.relock.get false q = true ∧ m.out = s.m.out) ∧
            (v < point ∧ p.fwState ≠ 5 ∧ (getRail s.m q).target ≠ target → Ends i s fun m => m.pwr.point = p.point ∧
              getRail m q = { target := target, outcome := 1, sentAt := now, tries := 1 } ∧ m.out = .avs q target :: s.m.out)))) ∧
      (∀ q,
        (p.relock.get false q = false → same (.pllRelockDone q)) ∧
        (p.relock.get false q = true → (∃ m : M8, Ends (.pllRelockDone q) s fun m' => m' = m) ∧
          (p.goal.find q = none → Ends (.pllRelockDone q) s fun m => m.pwr = { p with relock := m.pwr.relock } ∧ m.pwr.relock.get false q = false ∧
            (∀ q', q' ≠ q → m.pwr.relock.get false q' = p.relock.get false q') ∧ power m))) ∧
      (∀ t : Int,
        (t < odNat s.m Od.TEMP_WARN → same (.tempWarn t)) ∧
        (odNat s.m Od.TEMP_WARN ≤ t → Ends (.tempWarn t) s fun m => m = { s.m with pwr := { p with tempWarns := p.tempWarns + 1, thermalWarn := true } }) ∧
        (t < odNat s.m Od.TEMP_TRIP → same (.tempTrip t)) ∧
        (odNat s.m Od.TEMP_TRIP ≤ t ∧ jobLoaded s.m = true ∧ s.m.grp.own ≠ [] ∧ s.m.grp.fenced = false → Ends (.tempTrip t) s fun m =>
          m.grp.fenced = true ∧ m.grp.fencedAt = now ∧ ∀ r ∈ s.m.grp.own, Recovering (coordFor s.m r) [(0, 1, 2), (12, 2, r), (15, 1, 3)] m)) ∧
      (∀ vs : List Nat,
        let sum := fun i => p.ageSums.get 0 i + vs.getD i 0
        (now < p.ageLast + 60000000000 → same (.ageingSample vs)) ∧
        (p.ageLast + 60000000000 ≤ now ∧ p.ageCount < 59 → Ends (.ageingSample vs) s fun m => power m ∧
          m.pwr = { p with ageSums := m.pwr.ageSums, ageCount := p.ageCount + 1, ageLast := now } ∧
          ∀ i, m.pwr.ageSums.get 0 i = if i < vs.length then sum i else p.ageSums.get 0 i) ∧
        (p.ageLast + 60000000000 ≤ now ∧ 59 ≤ p.ageCount → Ends (.ageingSample vs) s fun m => power m ∧
          m.pwr = { p with ageSums := [], ageCount := 0, ageLast := now, ageLog := m.pwr.ageLog } ∧
          ∀ i, m.pwr.ageLog.get [] i = if i < vs.length then (sum i / 60 :: p.ageLog.get [] i).take 8760 else p.ageLog.get [] i)) ∧
      (let due := p.replanAt + odNat s.m Od.REPLAN_DAYS * 86400000000000 ≤ now
       let all := fun (m : M8) => m.pwr = { p with replanAt := now, replanDue := List.range 9 } ∧ m = { s.m with pwr := m.pwr, opt := m.opt }
       (¬due → same (.replan [])) ∧ (due → Ends (.replan []) s all) ∧ Ends (.replanNow 0xA6E1) s all ∧ (∀ v, v ≠ 0xA6E1 → status 0x06090030 (.replanNow v)) ∧
       (∀ rail point s0 s10, ¬due ∧ rail ∈ p.replanDue ∧ railIdle s.m rail = true ∧ (point = 0 ∨ (rail < 4 ∧ point < 4)) →
         Ends (.replan [(rail, point, s0, s10)]) s fun m => rail ∉ m.pwr.replanDue ∧
           (s0 < s10 → Sparse.find m.pwr.volts (rail * 4 + point) = some (replanMv s.m rail point s0 s10 0)))) ∧
      (∀ sid b,
        let r := blockResult s.m sid b
        let k := leField b 0 4
        let i := Instr.fwBlock sid b
        (∀ a, fwBlockAbort s.m sid b = some a → Ends i s fun m => m.out = .fwStatus a :: s.m.out ∧ EntriesBut [Od.FW_RESULT] s.m m ∧
          odNat m Od.FW_RESULT = (if r = 0x100 then odNat s.m Od.FW_RESULT else r % 256) ∧ m = { s.m with dict := m.dict, out := m.out }) ∧
        (fwBlockAbort s.m sid b = none ∧ k = 0 → Ends i s fun m => odNat m Od.FW_STATE = 1 ∧ odNat m Od.FW_RESULT = 0 ∧ odNat m Od.BLOCKS_WRITTEN = 0 ∧
          m.pwr = { p with fwState := 1, fwManifest := b.drop 16, fwBlocks := [], fwOwner := sid } ∧ m = { s.m with pwr := m.pwr, dict := m.dict }) ∧
        (fwBlockAbort s.m sid b = none ∧ k ≠ 0 → Ends i s fun m => m.pwr.fwBlocks = p.fwBlocks.put k (b.drop 16) ∧
          odNat m Od.BLOCKS_WRITTEN = m.pwr.fwBlocks.length % 2 ^ 32 ∧
          odNat m Od.FW_STATE = (if m.pwr.fwBlocks.length = fwCount p.fwManifest then 2 else odNat s.m Od.FW_STATE) ∧
          m = { s.m with pwr := m.pwr, dict := m.dict })) ∧
      (odNat s.m Od.FW_STATE ≠ 2 → same .fwVerifyDone) ∧
      (odNat s.m Od.FW_STATE = 2 → Ends .fwVerifyDone s fun m =>
        let fails := if sha384 (fwBody s.m) ≠ slice p.fwManifest 32 48 then 6
          else if Config.signatureOk (p.fwManifest.take 128) (slice p.fwManifest 128 96) = false then 7
          else if fwSettings p.fwManifest < p.settings then 5 else 0
        odNat m Od.FW_STATE = (if fails ≠ 0 then 4 else if p.autoAct then 5 else 3) ∧
        odNat m Od.FW_RESULT = (if fails ≠ 0 then fails else odNat s.m Od.FW_RESULT) ∧ m = { s.m with pwr := m.pwr, dict := m.dict }) ∧
      (∀ v, (∀ a, fwActivateAbort s.m v = some a → status a (.fwActivate v)) ∧
        (fwActivateAbort s.m v = none → Ends (.fwActivate v) s fun m => odNat m Od.FW_STATE = 5 ∧ m.pwr.fwState = 5 ∧
          (∀ e < 8, (getEngine s.m e).cmd.any (fun c => c.own && c.phase < 3) = true → (getEngine m e).cmd = none) ∧
          m = { s.m with pwr := m.pwr, dict := m.dict, opt := m.opt })) ∧
      (odNat s.m Od.FW_STATE ≠ 5 → same .loaderRun) ∧
      (odNat s.m Od.FW_STATE = 5 →
        let sec := fwSec p.fwManifest
        (sha384 (fwBody s.m) ≠ slice p.fwManifest 32 48 → Ends .loaderRun s fun m => odNat m Od.FW_STATE = 8 ∧ odNat m Od.FW_RESULT = 6 ∧ m.mem = s.m.mem) ∧
        (sha384 (fwBody s.m) = slice p.fwManifest 32 48 → Ends .loaderRun s fun m => odNat m Od.FW_STATE = 6 ∧ m.pwr.fwRun = p.fwManifest ∧
          m.pwr.fwCopy = fwBody s.m ∧ odNat m Od.RESET_CAUSE = 5 + b2n s.m.safe.faultN * 2 ^ 16 ∧ m.tiles = [] ∧ m.sync = [] ∧
          (odNat s.m Od.SEC_FUSE < sec → odNat m Od.SEC_FUSE = sec))) ∧
      (∀ ok,
        let started := odNat s.m Od.FW_STATE = 6 ∨ odNat s.m Od.FW_STATE = 7
        let moves := odNat s.m Od.FW_STATE = 6 ∧ p.settings < fwSettings p.fwRun
        (¬started → same (.firstStart ok)) ∧
        (started → Ends (.firstStart ok) s fun m => m.fl.mounted = true ∧ (moves → m.pwr.settings = fwSettings p.fwRun) ∧
          (ok = false → odNat m Od.FW_STATE = 7 ∧ odNat m Od.FW_RESULT = 9) ∧
          (ok = true → (odNat m Od.FW_STATE = 0 ∧ m.grp.own = [] ∧ m.grp.isSpare = true) ∨ (odNat m Od.FW_STATE = 7 ∧ m.grp = s.m.grp)) ∧
          (ok = true ∧ ¬moves → odNat m Od.FW_STATE = if odNat s.m Od.FW_CONFIRM_MODE = 0 then 0 else 7))) ∧
      (∀ v, (∀ a, fwConfirmAbort s.m v = some a → status a (.fwConfirm v)) ∧
        (fwConfirmAbort s.m v = none → Ends (.fwConfirm v) s fun m => odNat m Od.FW_STATE = 0 ∧ m.grp = { s.m.grp with own := [], isSpare := true } ∧
          m.pwr = { p with preStored := none, fwState := 0 } ∧ m = { s.m with pwr := m.pwr, grp := m.grp, dict := m.dict }))) ∧
    (∀ rail,
      let r := getRail s.m rail
      (∀ mv,
        let meets := r.outcome = 1 ∧ mv ≤ r.target + 10 ∧ r.target ≤ mv + 10
        (¬meets → same (.avsAck rail mv)) ∧
        (meets ∧ (¬s.awake ∨ p.goal.find rail = none) → Ends (.avsAck rail mv) s fun m => getRail m rail = { r with outcome := 0 } ∧
          (∀ q, q ≠ rail → getRail m q = getRail s.m q) ∧ (getSrc m 0x18A).pending = true ∧
          m = { s.m with pwr := { p with rails := m.pwr.rails }, intc := m.intc, dict := m.dict }) ∧
        (∀ g, meets ∧ s.awake ∧ p.goal.find rail = some g ∧ p.relock.get false rail = false ∧ g < p.point.get 0 rail ∧ r.target = railMv s.m rail g →
          Ends (.avsAck rail mv) s fun m => m.pwr.point.get 0 rail = g ∧ m.pwr.relock.get false rail = true)) ∧
      (let late := r.outcome = 1 ∧ r.sentAt + odNat s.m Od.AVS_ACK_US * 1000 ≤ now
       let counts := fun (m : M8) => odNat m Od.AVS_TIMEOUTS = (odNat s.m Od.AVS_TIMEOUTS + 1) % 2 ^ 32
       (¬late → same (.avsAckTimeout rail)) ∧
       (late ∧ r.tries ≤ 3 → Ends (.avsAckTimeout rail) s fun m => counts m ∧ getRail m rail = { r with sentAt := now, tries := r.tries + 1 } ∧
         EntriesBut [Od.AVS_TIMEOUTS] s.m m ∧
         m = { s.m with dict := m.dict, out := .avs rail r.target :: s.m.out, pwr := { p with rails := m.pwr.rails } }) ∧
       (late ∧ 3 < r.tries → Ends (.avsAckTimeout rail) s fun m => counts m ∧ getRail m rail = { r with outcome := 2 } ∧
         (jobLoaded s.m = true → s.m.grp.own ≠ [] → m.grp.fenced = true) ∧
         (jobLoaded s.m = false → ∀ d ∈ railDomains rail, m.pwr.domOff.get false d = true))))

/-- N is the sample count of the dataset version a job pins, and the job's positions are mapped with it. For every N from 1 to 2^48, m = 2 * qdrHalf N is even, at least 2, has 2^m at least N, and no smaller even number of at least 2 has. A value below 2^m is two halves of h = m / 2 bits, on which the rounds work: without keys it is unchanged; one round puts the right half on the left and the left half, XORed with h bits, on the right; the result has m bits. -/
def Obligations.QuadrilleWorksOnTheFewestEvenBits : Prop :=
  (∀ (s : M8) b rec_ epoch pos, (installImage s b rec_).job.sampleCount = Config.datasetCount (imageTables b).datasetLink ∧
    jobQuadrille s epoch pos = quadrille s.job.jr.seed s.job.jr.datasetId s.job.sampleCount epoch pos) ∧
  ∀ n, 1 ≤ n → n ≤ 2 ^ 48 →
    let h := qdrHalf n
    let m := 2 * h
    2 ≤ m ∧ n ≤ 2 ^ m ∧ (∀ m', 2 ≤ m' → m' % 2 = 0 → n ≤ 2 ^ m' → m ≤ m') ∧
    ∀ x, x < 2 ^ m → x / 2 ^ h < 2 ^ h ∧ x % 2 ^ h < 2 ^ h ∧ feistel h [] x = x ∧
      ∀ k ks, feistel h (k :: ks) x < 2 ^ m ∧ qdrF h (x % 2 ^ h) k < 2 ^ h ∧
        feistel h (k :: ks) x = feistel h ks (x % 2 ^ h * 2 ^ h + (x / 2 ^ h ^^^ qdrF h (x % 2 ^ h) k))

/-- For every sample count N from 1 to 2^48 and every seed, dataset id and epoch: quadrille takes each position below N to a sample below N, quadrille_inv takes each sample below N to a position below N, and each undoes the other. So in one epoch each sample has one position, and none is left out. -/
def Obligations.QuadrilleIsAPermutationAndItsInverse : Prop :=
  ∀ seed datasetId n epoch, 1 ≤ n → n ≤ 2 ^ 48 →
    (∀ pos, pos < n → quadrille seed datasetId n epoch pos < n ∧
      quadrilleInv seed datasetId n epoch (quadrille seed datasetId n epoch pos) = pos) ∧
    (∀ sample, sample < n → quadrilleInv seed datasetId n epoch sample < n ∧
      quadrille seed datasetId n epoch (quadrilleInv seed datasetId n epoch sample) = sample)

/-- On an up Acsal port the frame at the head of the highest TC whose head is eligible leaves: it goes out on the port and only it leaves the queues. Where no head is eligible nothing leaves. A frame enters its TC's queue at the end and the first in a queue leaves first. Whether a TC's frame is eligible depends on no other TC's shaper, so a frame of a lower TC is sent while a higher TC is held back. -/
def Obligations.EgressSendsTheHighestEligibleClass : Prop :=
  (∀ (s : M8) p f tc, tcOf f.cls = some tc → tc < 8 ∧
    (enqueueFrame s p f).fab.egress.get [] (p * 8 + tc) = s.fab.egress.get [] (p * 8 + tc) ++ [f]) ∧
  (∀ (s t : M8) p tc f, getLink s p = getLink t p → s.clk = t.clk → shaperRec s p tc = shaperRec t p tc →
    s.fab.shapers.find (8 * p + tc) = t.fab.shapers.find (8 * p + tc) → eligible s p tc f = eligible t p tc f) ∧
  ∀ (s : State) (p : Nat), s.awake → p < 32 → acsalUp s.m p = true → s.m.fab.units = [] →
    let queue := fun (m : M8) tc => m.fab.egress.get [] (p * 8 + tc)
    let ready := fun tc f rest => queue s.m tc = f :: rest ∧ eligible s.m p tc f = true
    (∀ tc f rest, tc < 8 → ready tc f rest → (∀ tc', tc < tc' → tc' < 8 → ∀ g gs, ¬ready tc' g gs) →
      Ends (.egressSend p) s fun m => m.out = .frame p (f.bytes (getLink s.m p).txSeq) :: s.m.out ∧ queue m tc = rest ∧
        (∀ k, k ≠ p * 8 + tc → m.fab.egress.get [] k = s.m.fab.egress.get [] k) ∧ m = { s.m with fab := m.fab, out := m.out }) ∧
    ((∀ tc, tc < 8 → ∀ f rest, ¬ready tc f rest) → Ends (.egressSend p) s fun m => m = s.m)
end

