-- ==== Sys2Proof/Laws/Dispatch.lean ====
section
/-!
SUPPORT. Sys2Proof/Laws/Dispatch.lean: which meaning exec gives each command, one lemma per command.
-/
namespace Sys2Proof
namespace Machine

variable (s : State)

theorem exec_cellSelfCheckFail (tile : Nat) (cell : Nat) : exec (.cellSelfCheckFail tile cell) s = execCellSelfCheckFail tile cell s := rfl
theorem exec_stepLatchFire (tile : Nat) (obj : Nat) : exec (.stepLatchFire tile obj) s = execStepLatchFire tile obj s := rfl
theorem exec_pkgFenceStart (agent : Nat) : exec (.pkgFenceStart agent) s = execPkgFenceStart agent s := rfl
theorem exec_pkgFenceDone (agent : Nat) : exec (.pkgFenceDone agent) s = execPkgFenceDone agent s := rfl
theorem exec_remoteFenceComplete (tile : Nat) (seq : Nat) : exec (.remoteFenceComplete tile seq) s = execRemoteFenceComplete tile seq s := rfl
theorem exec_flaggedWriteIssue (id : Nat) : exec (.flaggedWriteIssue id) s = execFlaggedWriteIssue id s := rfl
theorem exec_regWrite (agent : Nat) (addr : Nat) (size : Nat) (value : Nat) : exec (.regWrite agent addr size value) s = execRegWrite agent addr size value s := rfl
theorem exec_dictRead (m : DictMsg) : exec (.dictRead m) s = execDictRead m s := rfl
theorem exec_dictWrite (m : DictMsg) (rivals : List DictMsg) : exec (.dictWrite m rivals) s = execDictWrite m rivals s := rfl
theorem exec_readNext (m : DictMsg) : exec (.readNext m) s = execReadNext m s := rfl
theorem exec_writeNext (m : DictMsg) : exec (.writeNext m) s = execWriteNext m s := rfl
theorem exec_describe (m : DictMsg) : exec (.describe m) s = execDescribe m s := rfl
theorem exec_hello (m : DictMsg) : exec (.hello m) s = execHello m s := rfl
theorem exec_proof (m : DictMsg) : exec (.proof m) s = execProof m s := rfl
theorem exec_close (m : DictMsg) : exec (.close m) s = execClose m s := rfl
theorem exec_dictStoreComplete (key : Nat) (ok : Bool) : exec (.dictStoreComplete key ok) s = execDictStoreComplete key ok s := rfl
theorem exec_domainHoldTimeout (key : Nat) : exec (.domainHoldTimeout key) s = execDomainHoldTimeout key s := rfl
theorem exec_sessionIdleTimeout (sid : Nat) : exec (.sessionIdleTimeout sid) s = execSessionIdleTimeout sid s := rfl
theorem exec_helloLapse (sid : Nat) : exec (.helloLapse sid) s = execHelloLapse sid s := rfl
theorem exec_authLockoutEnd (level : Nat) : exec (.authLockoutEnd level) s = execAuthLockoutEnd level s := rfl
theorem exec_mbxGo (value : Nat) : exec (.mbxGo value) s = execMbxGo value s := rfl
theorem exec_keySlotWrite (m : DictMsg) : exec (.keySlotWrite m) s = execKeySlotWrite m s := rfl
theorem exec_restoreDefaults (m : DictMsg) : exec (.restoreDefaults m) s = execRestoreDefaults m s := rfl
theorem exec_timingPacket (src : Nat) (payload : Bytes) : exec (.timingPacket src payload) s = execTimingPacket src payload s := rfl
theorem exec_stepInEdge : exec (.stepInEdge) s = execStepInEdge s := rfl
theorem exec_stepInCodedWord (word : Nat) : exec (.stepInCodedWord word) s = execStepInCodedWord word s := rfl
theorem exec_srcLost (src : Nat) : exec (.srcLost src) s = execSrcLost src s := rfl
theorem exec_holdoverWarn : exec (.holdoverWarn) s = execHoldoverWarn s := rfl
theorem exec_slewDone : exec (.slewDone) s = execSlewDone s := rfl
theorem exec_hardJump : exec (.hardJump) s = execHardJump s := rfl
theorem exec_windowOpen (idx : Nat) (target : Nat) : exec (.windowOpen idx target) s = execWindowOpen idx target s := rfl
theorem exec_windowClose (idx : Nat) (target : Nat) : exec (.windowClose idx target) s = execWindowClose idx target s := rfl
theorem exec_commitDeadline (idx : Nat) (target : Nat) : exec (.commitDeadline idx target) s = execCommitDeadline idx target s := rfl
theorem exec_transferAdmit (tile : Nat) (thread : Nat) (idx : Nat) (target : Nat) : exec (.transferAdmit tile thread idx target) s = execTransferAdmit tile thread idx target s := rfl
theorem exec_lateSubstStart (target : Nat) : exec (.lateSubstStart target) s = execLateSubstStart target s := rfl
theorem exec_startTimeout : exec (.startTimeout) s = execStartTimeout s := rfl
theorem exec_jobLoad (cmd : Option (Nat × Nat)) (image : Bytes) (record_ : Bytes) (hostErr : Option Nat) : exec (.jobLoad cmd image record_ hostErr) s = execJobLoad cmd image record_ hostErr s := rfl
theorem exec_auditLoad (cmd : Option (Nat × Nat)) (image : Bytes) (record_ : Bytes) (hostErr : Option Nat) : exec (.auditLoad cmd image record_ hostErr) s = execAuditLoad cmd image record_ hostErr s := rfl
theorem exec_auditComplete : exec (.auditComplete) s = execAuditComplete s := rfl
theorem exec_jobStop (cmd : Option (Nat × Nat)) : exec (.jobStop cmd) s = execJobStop cmd s := rfl
theorem exec_drainComplete : exec (.drainComplete) s = execDrainComplete s := rfl
theorem exec_jobUnload (cmd : Option (Nat × Nat)) : exec (.jobUnload cmd) s = execJobUnload cmd s := rfl
theorem exec_slotWriteIssue (id : Nat) : exec (.slotWriteIssue id) s = execSlotWriteIssue id s := rfl
theorem exec_bufferRelease (rank : Nat) (step : Nat) : exec (.bufferRelease rank step) s = execBufferRelease rank step s := rfl
theorem exec_creditWrite (rank : Nat) (word : Nat) : exec (.creditWrite rank word) s = execCreditWrite rank word s := rfl
theorem exec_creditStall (rank : Nat) : exec (.creditStall rank) s = execCreditStall rank s := rfl
theorem exec_slotDoneReceive (src : Nat) (payload : Bytes) : exec (.slotDoneReceive src payload) s = execSlotDoneReceive src payload s := rfl
theorem exec_commitIssue (step : Nat) (rank : Nat) : exec (.commitIssue step rank) s = execCommitIssue step rank s := rfl
theorem exec_sealIssue (step : Nat) (rank : Nat) : exec (.sealIssue step rank) s = execSealIssue step rank s := rfl
theorem exec_cancelReceive (src : Nat) (payload : Bytes) : exec (.cancelReceive src payload) s = execCancelReceive src payload s := rfl
theorem exec_cancelAckReceive (src : Nat) (payload : Bytes) : exec (.cancelAckReceive src payload) s = execCancelAckReceive src payload s := rfl
theorem exec_nop (tile : Nat) (thread : Nat) (f : RFields) : exec (.nop tile thread f) s = execNop tile thread f s := rfl
theorem exec_add (tile : Nat) (thread : Nat) (f : RFields) : exec (.add tile thread f) s = execAdd tile thread f s := rfl
theorem exec_sub (tile : Nat) (thread : Nat) (f : RFields) : exec (.sub tile thread f) s = execSub tile thread f s := rfl
theorem exec_and (tile : Nat) (thread : Nat) (f : RFields) : exec (.and tile thread f) s = execAnd tile thread f s := rfl
theorem exec_or (tile : Nat) (thread : Nat) (f : RFields) : exec (.or tile thread f) s = execOr tile thread f s := rfl
theorem exec_xor (tile : Nat) (thread : Nat) (f : RFields) : exec (.xor tile thread f) s = execXor tile thread f s := rfl
theorem exec_shl (tile : Nat) (thread : Nat) (f : RFields) : exec (.shl tile thread f) s = execShl tile thread f s := rfl
theorem exec_shr (tile : Nat) (thread : Nat) (f : RFields) : exec (.shr tile thread f) s = execShr tile thread f s := rfl
theorem exec_sar (tile : Nat) (thread : Nat) (f : RFields) : exec (.sar tile thread f) s = execSar tile thread f s := rfl
theorem exec_mul (tile : Nat) (thread : Nat) (f : RFields) : exec (.mul tile thread f) s = execMul tile thread f s := rfl
theorem exec_mulhu (tile : Nat) (thread : Nat) (f : RFields) : exec (.mulhu tile thread f) s = execMulhu tile thread f s := rfl
theorem exec_divu (tile : Nat) (thread : Nat) (f : RFields) : exec (.divu tile thread f) s = execDivu tile thread f s := rfl
theorem exec_remu (tile : Nat) (thread : Nat) (f : RFields) : exec (.remu tile thread f) s = execRemu tile thread f s := rfl
theorem exec_sltu (tile : Nat) (thread : Nat) (f : RFields) : exec (.sltu tile thread f) s = execSltu tile thread f s := rfl
theorem exec_slt (tile : Nat) (thread : Nat) (f : RFields) : exec (.slt tile thread f) s = execSlt tile thread f s := rfl
theorem exec_minu (tile : Nat) (thread : Nat) (f : RFields) : exec (.minu tile thread f) s = execMinu tile thread f s := rfl
theorem exec_maxu (tile : Nat) (thread : Nat) (f : RFields) : exec (.maxu tile thread f) s = execMaxu tile thread f s := rfl
theorem exec_lui (tile : Nat) (thread : Nat) (f : RFields) : exec (.lui tile thread f) s = execLui tile thread f s := rfl
theorem exec_rdtimeCycle (tile : Nat) (thread : Nat) (f : RFields) : exec (.rdtimeCycle tile thread f) s = execRdtimeCycle tile thread f s := rfl
theorem exec_rdtimePav (tile : Nat) (thread : Nat) (f : RFields) : exec (.rdtimePav tile thread f) s = execRdtimePav tile thread f s := rfl
theorem exec_rdtimeTile (tile : Nat) (thread : Nat) (f : RFields) : exec (.rdtimeTile tile thread f) s = execRdtimeTile tile thread f s := rfl
theorem exec_rdtimeChannel (tile : Nat) (thread : Nat) (f : RFields) : exec (.rdtimeChannel tile thread f) s = execRdtimeChannel tile thread f s := rfl
theorem exec_ld (tile : Nat) (thread : Nat) (f : RFields) : exec (.ld tile thread f) s = execLd tile thread f s := rfl
theorem exec_st (tile : Nat) (thread : Nat) (f : RFields) : exec (.st tile thread f) s = execSt tile thread f s := rfl
theorem exec_beq (tile : Nat) (thread : Nat) (f : RFields) : exec (.beq tile thread f) s = execBeq tile thread f s := rfl
theorem exec_bne (tile : Nat) (thread : Nat) (f : RFields) : exec (.bne tile thread f) s = execBne tile thread f s := rfl
theorem exec_blt (tile : Nat) (thread : Nat) (f : RFields) : exec (.blt tile thread f) s = execBlt tile thread f s := rfl
theorem exec_bge (tile : Nat) (thread : Nat) (f : RFields) : exec (.bge tile thread f) s = execBge tile thread f s := rfl
theorem exec_bltu (tile : Nat) (thread : Nat) (f : RFields) : exec (.bltu tile thread f) s = execBltu tile thread f s := rfl
theorem exec_bgeu (tile : Nat) (thread : Nat) (f : RFields) : exec (.bgeu tile thread f) s = execBgeu tile thread f s := rfl
theorem exec_jal (tile : Nat) (thread : Nat) (f : RFields) : exec (.jal tile thread f) s = execJal tile thread f s := rfl
theorem exec_jalr (tile : Nat) (thread : Nat) (f : RFields) : exec (.jalr tile thread f) s = execJalr tile thread f s := rfl
theorem exec_halt (tile : Nat) (thread : Nat) (f : RFields) : exec (.halt tile thread f) s = execHalt tile thread f s := rfl
theorem exec_sadd (tile : Nat) (thread : Nat) (f : RFields) : exec (.sadd tile thread f) s = execSadd tile thread f s := rfl
theorem exec_saddLimit (tile : Nat) (thread : Nat) (f : RFields) : exec (.saddLimit tile thread f) s = execSaddLimit tile thread f s := rfl
theorem exec_swait (tile : Nat) (thread : Nat) (f : RFields) : exec (.swait tile thread f) s = execSwait tile thread f s := rfl
theorem exec_sset (tile : Nat) (thread : Nat) (f : RFields) : exec (.sset tile thread f) s = execSset tile thread f s := rfl
theorem exec_sclr (tile : Nat) (thread : Nat) (f : RFields) : exec (.sclr tile thread f) s = execSclr tile thread f s := rfl
theorem exec_stake (tile : Nat) (thread : Nat) (f : RFields) : exec (.stake tile thread f) s = execStake tile thread f s := rfl
theorem exec_stakeTry (tile : Nat) (thread : Nat) (f : RFields) : exec (.stakeTry tile thread f) s = execStakeTry tile thread f s := rfl
theorem exec_sgive (tile : Nat) (thread : Nat) (f : RFields) : exec (.sgive tile thread f) s = execSgive tile thread f s := rfl
theorem exec_sarrive (tile : Nat) (thread : Nat) (f : RFields) : exec (.sarrive tile thread f) s = execSarrive tile thread f s := rfl
theorem exec_sarm (tile : Nat) (thread : Nat) (f : RFields) : exec (.sarm tile thread f) s = execSarm tile thread f s := rfl
theorem exec_sread (tile : Nat) (thread : Nat) (f : RFields) : exec (.sread tile thread f) s = execSread tile thread f s := rfl
theorem exec_remoteTakeRetry (tile : Nat) (thread : Nat) : exec (.remoteTakeRetry tile thread) s = execRemoteTakeRetry tile thread s := rfl
theorem exec_wopen (tile : Nat) (thread : Nat) (f : RFields) : exec (.wopen tile thread f) s = execWopen tile thread f s := rfl
theorem exec_disp (tile : Nat) (thread : Nat) (f : RFields) : exec (.disp tile thread f) s = execDisp tile thread f s := rfl
theorem exec_dispatchItemStart (tile : Nat) (cell : Nat) : exec (.dispatchItemStart tile cell) s = execDispatchItemStart tile cell s := rfl
theorem exec_itemFinish (tile : Nat) (cell : Nat) : exec (.itemFinish tile cell) s = execItemFinish tile cell s := rfl
theorem exec_fetch (tile : Nat) (thread : Nat) (f : RFields) : exec (.fetch tile thread f) s = execFetch tile thread f s := rfl
theorem exec_fetchCached (tile : Nat) (thread : Nat) (f : RFields) : exec (.fetchCached tile thread f) s = execFetchCached tile thread f s := rfl
theorem exec_fetchFirst (tile : Nat) (thread : Nat) (f : RFields) : exec (.fetchFirst tile thread f) s = execFetchFirst tile thread f s := rfl
theorem exec_flashFetchAdmit (tile : Nat) (req : Nat) : exec (.flashFetchAdmit tile req) s = execFlashFetchAdmit tile req s := rfl
theorem exec_fetchComplete (tile : Nat) (req : Nat) (other : Bytes) : exec (.fetchComplete tile req other) s = execFetchComplete tile req other s := rfl
theorem exec_place (tile : Nat) (thread : Nat) (f : RFields) : exec (.place tile thread f) s = execPlace tile thread f s := rfl
theorem exec_cotillionPack (tile : Nat) (req : Nat) : exec (.cotillionPack tile req) s = execCotillionPack tile req s := rfl
theorem exec_note (tile : Nat) (thread : Nat) (f : RFields) : exec (.note tile thread f) s = execNote tile thread f s := rfl
theorem exec_quar (tile : Nat) (thread : Nat) (f : RFields) : exec (.quar tile thread f) s = execQuar tile thread f s := rfl
theorem exec_cfill (tile : Nat) (thread : Nat) (f : RFields) : exec (.cfill tile thread f) s = execCfill tile thread f s := rfl
theorem exec_cfillCopyDone (tile : Nat) (req : Nat) : exec (.cfillCopyDone tile req) s = execCfillCopyDone tile req s := rfl
theorem exec_fenceCell (tile : Nat) (thread : Nat) (f : RFields) : exec (.fenceCell tile thread f) s = execFenceCell tile thread f s := rfl
theorem exec_fenceTile (tile : Nat) (thread : Nat) (f : RFields) : exec (.fenceTile tile thread f) s = execFenceTile tile thread f s := rfl
theorem exec_fencePackage (tile : Nat) (thread : Nat) (f : RFields) : exec (.fencePackage tile thread f) s = execFencePackage tile thread f s := rfl
theorem exec_fenceRemote (tile : Nat) (thread : Nat) (f : RFields) : exec (.fenceRemote tile thread f) s = execFenceRemote tile thread f s := rfl
theorem exec_subst (tile : Nat) (thread : Nat) (f : RFields) : exec (.subst tile thread f) s = execSubst tile thread f s := rfl
theorem exec_dedup (tile : Nat) (thread : Nat) (f : RFields) : exec (.dedup tile thread f) s = execDedup tile thread f s := rfl
theorem exec_vclr (tile : Nat) (thread : Nat) (f : RFields) : exec (.vclr tile thread f) s = execVclr tile thread f s := rfl
theorem exec_tileHwFault (tile : Nat) (thread : Nat) (cause : Nat) (arg : Nat) : exec (.tileHwFault tile thread cause arg) s = execTileHwFault tile thread cause arg s := rfl
theorem exec_reelStart (agent : Nat) (tile : Nat) : exec (.reelStart agent tile) s = execReelStart agent tile s := rfl
theorem exec_reelHalt (agent : Nat) (tile : Nat) : exec (.reelHalt agent tile) s = execReelHalt agent tile s := rfl
theorem exec_reelUnload (agent : Nat) (tile : Nat) : exec (.reelUnload agent tile) s = execReelUnload agent tile s := rfl
theorem exec_tileReset (agent : Nat) (tile : Nat) : exec (.tileReset agent tile) s = execTileReset agent tile s := rfl
theorem exec_reelQuarantine (agent : Nat) (tile : Nat) : exec (.reelQuarantine agent tile) s = execReelQuarantine agent tile s := rfl
theorem exec_reelPendingApply (tile : Nat) : exec (.reelPendingApply tile) s = execReelPendingApply tile s := rfl
theorem exec_tileHalted (tile : Nat) : exec (.tileHalted tile) s = execTileHalted tile s := rfl
theorem exec_reelUnloadDone (tile : Nat) : exec (.reelUnloadDone tile) s = execReelUnloadDone tile s := rfl
theorem exec_gateItem (tile : Nat) (cell : Nat) : exec (.gateItem tile cell) s = execGateItem tile cell s := rfl
theorem exec_jpegDecodeItem (tile : Nat) (cell : Nat) : exec (.jpegDecodeItem tile cell) s = execJpegDecodeItem tile cell s := rfl
theorem exec_idct8Item (tile : Nat) (cell : Nat) : exec (.idct8Item tile cell) s = execIdct8Item tile cell s := rfl
theorem exec_cconvItem (tile : Nat) (cell : Nat) : exec (.cconvItem tile cell) s = execCconvItem tile cell s := rfl
theorem exec_cropResizeItem (tile : Nat) (cell : Nat) : exec (.cropResizeItem tile cell) s = execCropResizeItem tile cell s := rfl
theorem exec_randCropItem (tile : Nat) (cell : Nat) : exec (.randCropItem tile cell) s = execRandCropItem tile cell s := rfl
theorem exec_flipRotItem (tile : Nat) (cell : Nat) : exec (.flipRotItem tile cell) s = execFlipRotItem tile cell s := rfl
theorem exec_photoItem (tile : Nat) (cell : Nat) : exec (.photoItem tile cell) s = execPhotoItem tile cell s := rfl
theorem exec_noiseItem (tile : Nat) (cell : Nat) : exec (.noiseItem tile cell) s = execNoiseItem tile cell s := rfl
theorem exec_rangeProjItem (tile : Nat) (cell : Nat) : exec (.rangeProjItem tile cell) s = execRangeProjItem tile cell s := rfl
theorem exec_voxelItem (tile : Nat) (cell : Nat) : exec (.voxelItem tile cell) s = execVoxelItem tile cell s := rfl
theorem exec_normItem (tile : Nat) (cell : Nat) : exec (.normItem tile cell) s = execNormItem tile cell s := rfl
theorem exec_checkItem (tile : Nat) (cell : Nat) : exec (.checkItem tile cell) s = execCheckItem tile cell s := rfl
theorem exec_cdcSubmit (agent : Nat) (hub : Nat) (addr : Nat) : exec (.cdcSubmit agent hub addr) s = execCdcSubmit agent hub addr s := rfl
theorem exec_codecCompress (hub : Nat) (lane : Nat) : exec (.codecCompress hub lane) s = execCodecCompress hub lane s := rfl
theorem exec_codecDecompress (hub : Nat) (lane : Nat) : exec (.codecDecompress hub lane) s = execCodecDecompress hub lane s := rfl
theorem exec_codecJobEnd (hub : Nat) (lane : Nat) : exec (.codecJobEnd hub lane) s = execCodecJobEnd hub lane s := rfl
theorem exec_hitStageRelease (tile : Nat) (req : Nat) : exec (.hitStageRelease tile req) s = execHitStageRelease tile req s := rfl
theorem exec_hitDecodeDone (hub : Nat) (lane : Nat) : exec (.hitDecodeDone hub lane) s = execHitDecodeDone hub lane s := rfl
theorem exec_poolTake (agent : Nat) (hub : Nat) (pool : Nat) (owner : Nat) : exec (.poolTake agent hub pool owner) s = execPoolTake agent hub pool owner s := rfl
theorem exec_poolGrant (hub : Nat) (pool : Nat) : exec (.poolGrant hub pool) s = execPoolGrant hub pool s := rfl
theorem exec_poolGive (agent : Nat) (hub : Nat) (pool : Nat) (owner : Nat) (addr : Nat) : exec (.poolGive agent hub pool owner addr) s = execPoolGive agent hub pool owner addr s := rfl
theorem exec_poolShare (hub : Nat) (pool : Nat) (owner : Nat) (addr : Nat) (newOwner : Nat) : exec (.poolShare hub pool owner addr newOwner) s = execPoolShare hub pool owner addr newOwner s := rfl
theorem exec_poolAuditRead : exec (.poolAuditRead) s = execPoolAuditRead s := rfl
theorem exec_dmaStart (agent : Nat) (hub : Nat) (channel : Nat) : exec (.dmaStart agent hub channel) s = execDmaStart agent hub channel s := rfl
theorem exec_dmaAbort (agent : Nat) (hub : Nat) (channel : Nat) : exec (.dmaAbort agent hub channel) s = execDmaAbort agent hub channel s := rfl
theorem exec_dmaEnable (agent : Nat) (hub : Nat) (channel : Nat) : exec (.dmaEnable agent hub channel) s = execDmaEnable agent hub channel s := rfl
theorem exec_dmaDisable (agent : Nat) (hub : Nat) (channel : Nat) : exec (.dmaDisable agent hub channel) s = execDmaDisable agent hub channel s := rfl
theorem exec_dmaShutdownDone (hub : Nat) (channel : Nat) : exec (.dmaShutdownDone hub channel) s = execDmaShutdownDone hub channel s := rfl
theorem exec_dmaMoverGrant (hub : Nat) : exec (.dmaMoverGrant hub) s = execDmaMoverGrant hub s := rfl
theorem exec_dmaPacePoll (hub : Nat) (channel : Nat) : exec (.dmaPacePoll hub channel) s = execDmaPacePoll hub channel s := rfl
theorem exec_dmaBusError (hub : Nat) (channel : Nat) (addr : Nat) : exec (.dmaBusError hub channel addr) s = execDmaBusError hub channel addr s := rfl
theorem exec_dmaDescEnd (hub : Nat) (channel : Nat) : exec (.dmaDescEnd hub channel) s = execDmaDescEnd hub channel s := rfl
theorem exec_vocabLoad (blob : Bytes) : exec (.vocabLoad blob) s = execVocabLoad blob s := rfl
theorem exec_machineLoad (machine : Nat) (blob : Bytes) : exec (.machineLoad machine blob) s = execMachineLoad machine blob s := rfl
theorem exec_txtSubmit (agent : Nat) (hub : Nat) (addr : Nat) : exec (.txtSubmit agent hub addr) s = execTxtSubmit agent hub addr s := rfl
theorem exec_tokenise (hub : Nat) (lane : Nat) : exec (.tokenise hub lane) s = execTokenise hub lane s := rfl
theorem exec_detokenise (hub : Nat) (lane : Nat) : exec (.detokenise hub lane) s = execDetokenise hub lane s := rfl
theorem exec_validate (hub : Nat) (lane : Nat) : exec (.validate hub lane) s = execValidate hub lane s := rfl
theorem exec_textJobEnd (hub : Nat) (lane : Nat) : exec (.textJobEnd hub lane) s = execTextJobEnd hub lane s := rfl
theorem exec_grammarTailWrite (hub : Nat) (queue : Nat) (value : Nat) (whole : Bool) : exec (.grammarTailWrite hub queue value whole) s = execGrammarTailWrite hub queue value whole s := rfl
theorem exec_grammarOpen (hub : Nat) : exec (.grammarOpen hub) s = execGrammarOpen hub s := rfl
theorem exec_grammarAdvance (hub : Nat) : exec (.grammarAdvance hub) s = execGrammarAdvance hub s := rfl
theorem exec_grammarClose (hub : Nat) : exec (.grammarClose hub) s = execGrammarClose hub s := rfl
theorem exec_ctxIdleTimeout (hub : Nat) (ctx : Nat) : exec (.ctxIdleTimeout hub ctx) s = execCtxIdleTimeout hub ctx s := rfl
theorem exec_channelTraining (channel : Nat) (ok3600 : Bool) (ok2800 : Bool) : exec (.channelTraining channel ok3600 ok2800) s = execChannelTraining channel ok3600 ok2800 s := rfl
theorem exec_wordlineProgramDone (stream : Nat) : exec (.wordlineProgramDone stream) s = execWordlineProgramDone stream s := rfl
theorem exec_fuaPadTimeout (stream : Nat) : exec (.fuaPadTimeout stream) s = execFuaPadTimeout stream s := rfl
theorem exec_journalRecordDurable : exec (.journalRecordDurable) s = execJournalRecordDurable s := rfl
theorem exec_mapCacheMiss (page : Nat) : exec (.mapCacheMiss page) s = execMapCacheMiss page s := rfl
theorem exec_mapWriteback (page : Nat) : exec (.mapWriteback page) s = execMapWriteback page s := rfl
theorem exec_checkpoint : exec (.checkpoint) s = execCheckpoint s := rfl
theorem exec_mount : exec (.mount) s = execMount s := rfl
theorem exec_gcStart : exec (.gcStart) s = execGcStart s := rfl
theorem exec_gcMove : exec (.gcMove) s = execGcMove s := rfl
theorem exec_blockFail (block : Nat) (erase : Bool) : exec (.blockFail block erase) s = execBlockFail block erase s := rfl
theorem exec_parityContribution (member : Nat) (chunk : Nat) (page : Nat) (seq : Nat) (before : Nat) (data : Bytes) : exec (.parityContribution member chunk page seq before data) s = execParityContribution member chunk page seq before data s := rfl
theorem exec_codewordRebuild (lpn : Nat) (position : Nat) (pages : List (Nat × Bytes)) : exec (.codewordRebuild lpn position pages) s = execCodewordRebuild lpn position pages s := rfl
theorem exec_healthUpdate (temp : Int) : exec (.healthUpdate temp) s = execHealthUpdate temp s := rfl
theorem exec_ringEnable (agent : Nat) (ring : Nat) (irqEn : Bool) : exec (.ringEnable agent ring irqEn) s = execRingEnable agent ring irqEn s := rfl
theorem exec_ringDisable (agent : Nat) (ring : Nat) (irqEn : Bool) : exec (.ringDisable agent ring irqEn) s = execRingDisable agent ring irqEn s := rfl
theorem exec_ringShutdownDone (ring : Nat) : exec (.ringShutdownDone ring) s = execRingShutdownDone ring s := rfl
theorem exec_ringRestart (agent : Nat) (ring : Nat) : exec (.ringRestart agent ring) s = execRingRestart agent ring s := rfl
theorem exec_ringRestartDiscard (agent : Nat) (ring : Nat) : exec (.ringRestartDiscard agent ring) s = execRingRestartDiscard agent ring s := rfl
theorem exec_sqTailDoorbell (agent : Nat) (ring : Nat) (index : Nat) : exec (.sqTailDoorbell agent ring index) s = execSqTailDoorbell agent ring index s := rfl
theorem exec_cqHeadDoorbell (agent : Nat) (ring : Nat) (index : Nat) : exec (.cqHeadDoorbell agent ring index) s = execCqHeadDoorbell agent ring index s := rfl
theorem exec_sqFetch (ring : Nat) (entry : Bytes) : exec (.sqFetch ring entry) s = execSqFetch ring entry s := rfl
theorem exec_cmdComplete (ring : Nat) (seq : Nat) (durable : List Nat) (others : Bool) : exec (.cmdComplete ring seq durable others) s = execCmdComplete ring seq durable others s := rfl
theorem exec_cmdNop (ring : Nat) (seq : Nat) : exec (.cmdNop ring seq) s = execCmdNop ring seq s := rfl
theorem exec_cmdRead (ring : Nat) (seq : Nat) (segs : Bytes) (hostErr : Option Nat) (fault : Bool) : exec (.cmdRead ring seq segs hostErr fault) s = execCmdRead ring seq segs hostErr fault s := rfl
theorem exec_cmdWrite (ring : Nat) (seq : Nat) (segs : Bytes) (data : Bytes) (hostErr : Option Nat) (failAt : Option Nat) : exec (.cmdWrite ring seq segs data hostErr failAt) s = execCmdWrite ring seq segs data hostErr failAt s := rfl
theorem exec_cmdDiscard (ring : Nat) (seq : Nat) : exec (.cmdDiscard ring seq) s = execCmdDiscard ring seq s := rfl
theorem exec_secureDiscard (ring : Nat) (seq : Nat) : exec (.secureDiscard ring seq) s = execSecureDiscard ring seq s := rfl
theorem exec_cmdFlush (ring : Nat) (seq : Nat) : exec (.cmdFlush ring seq) s = execCmdFlush ring seq s := rfl
theorem exec_versionSeal (ring : Nat) (seq : Nat) : exec (.versionSeal ring seq) s = execVersionSeal ring seq s := rfl
theorem exec_versionRelease (ring : Nat) (seq : Nat) : exec (.versionRelease ring seq) s = execVersionRelease ring seq s := rfl
theorem exec_flr : exec (.flr) s = execFlr s := rfl
theorem exec_perstN : exec (.perstN) s = execPerstN s := rfl
theorem exec_fabricRingOpen (src : Nat) (payload : Bytes) : exec (.fabricRingOpen src payload) s = execFabricRingOpen src payload s := rfl
theorem exec_fabricRingSubmit (src : Nat) (payload : Bytes) : exec (.fabricRingSubmit src payload) s = execFabricRingSubmit src payload s := rfl
theorem exec_fabricRingData (src : Nat) (payload : Bytes) : exec (.fabricRingData src payload) s = execFabricRingData src payload s := rfl
theorem exec_fabricRingClose (src : Nat) (payload : Bytes) : exec (.fabricRingClose src payload) s = execFabricRingClose src payload s := rfl
theorem exec_fabricRingRestart (sid : Nat) (value : Nat) : exec (.fabricRingRestart sid value) s = execFabricRingRestart sid value s := rfl
theorem exec_lpHoldPoint : exec (.lpHoldPoint) s = execLpHoldPoint s := rfl
theorem exec_portEnable (agent : Nat) (port : Nat) : exec (.portEnable agent port) s = execPortEnable agent port s := rfl
theorem exec_portDisable (agent : Nat) (port : Nat) : exec (.portDisable agent port) s = execPortDisable agent port s := rfl
theorem exec_portRetrain (agent : Nat) (port : Nat) : exec (.portRetrain agent port) s = execPortRetrain agent port s := rfl
theorem exec_portRampDone (port : Nat) : exec (.portRampDone port) s = execPortRampDone port s := rfl
theorem exec_synthLock (port : Nat) : exec (.synthLock port) s = execSynthLock port s := rfl
theorem exec_portAcquired (port : Nat) : exec (.portAcquired port) s = execPortAcquired port s := rfl
theorem exec_portLockLost (port : Nat) (lanes : Nat) (synth : Bool) : exec (.portLockLost port lanes synth) s = execPortLockLost port lanes synth s := rfl
theorem exec_portFaultTimeout (port : Nat) : exec (.portFaultTimeout port) s = execPortFaultTimeout port s := rfl
theorem exec_portStopDone (port : Nat) : exec (.portStopDone port) s = execPortStopDone port s := rfl
theorem exec_txCommand (port : Nat) (frame : Bytes) : exec (.txCommand port frame) s = execTxCommand port frame s := rfl
theorem exec_laneMonitorUpdate (lane : Nat) (errs : Nat) (symbols : Nat) (eye : Nat) (bias : Nat) : exec (.laneMonitorUpdate lane errs symbols eye bias) s = execLaneMonitorUpdate lane errs symbols eye bias s := rfl
theorem exec_laneTrendFit (lane : Nat) : exec (.laneTrendFit lane) s = execLaneTrendFit lane s := rfl
theorem exec_laneSwap (agent : Nat) (engine : Nat) (lane : Nat) (target : Nat) : exec (.laneSwap agent engine lane target) s = execLaneSwap agent engine lane target s := rfl
theorem exec_laneReturn (agent : Nat) (engine : Nat) (lane : Nat) (target : Nat) : exec (.laneReturn agent engine lane target) s = execLaneReturn agent engine lane target s := rfl
theorem exec_laneRetireCmd (agent : Nat) (engine : Nat) (lane : Nat) : exec (.laneRetireCmd agent engine lane) s = execLaneRetireCmd agent engine lane s := rfl
theorem exec_swapMarkerAgree (engine : Nat) : exec (.swapMarkerAgree engine) s = execSwapMarkerAgree engine s := rfl
theorem exec_swapPartnerTimeout (engine : Nat) : exec (.swapPartnerTimeout engine) s = execSwapPartnerTimeout engine s := rfl
theorem exec_returnSoakEnd (engine : Nat) : exec (.returnSoakEnd engine) s = execReturnSoakEnd engine s := rfl
theorem exec_laserOn (agent : Nat) (channel : Nat) : exec (.laserOn agent channel) s = execLaserOn agent channel s := rfl
theorem exec_laserOff (agent : Nat) (channel : Nat) : exec (.laserOff agent channel) s = execLaserOff agent channel s := rfl
theorem exec_laserRampStep (channel : Nat) (reached : Bool) : exec (.laserRampStep channel reached) s = execLaserRampStep channel reached s := rfl
theorem exec_laserShort (channel : Nat) : exec (.laserShort channel) s = execLaserShort channel s := rfl
theorem exec_railRecover (rail : Nat) : exec (.railRecover rail) s = execRailRecover rail s := rfl
theorem exec_railFailTimeout (rail : Nat) : exec (.railFailTimeout rail) s = execRailFailTimeout rail s := rfl
theorem exec_coreReset (hub : Nat) : exec (.coreReset hub) s = execCoreReset hub s := rfl
theorem exec_oeIdlePowerOff (engine : Nat) : exec (.oeIdlePowerOff engine) s = execOeIdlePowerOff engine s := rfl
theorem exec_frameReceive (port : Nat) (frame : Bytes) : exec (.frameReceive port frame) s = execFrameReceive port frame s := rfl
theorem exec_egressSend (port : Nat) : exec (.egressSend port) s = execEgressSend port s := rfl
theorem exec_linkAck (port : Nat) (lseq : Nat) (grants : List Nat) : exec (.linkAck port lseq grants) s = execLinkAck port lseq grants s := rfl
theorem exec_linkNak (port : Nat) (lseq : Nat) (grants : List Nat) : exec (.linkNak port lseq grants) s = execLinkNak port lseq grants s := rfl
theorem exec_linkCredit (port : Nat) (grants : List Nat) : exec (.linkCredit port grants) s = execLinkCredit port grants s := rfl
theorem exec_linkReplayTimeout (port : Nat) : exec (.linkReplayTimeout port) s = execLinkReplayTimeout port s := rfl
theorem exec_linkAckTimer (port : Nat) : exec (.linkAckTimer port) s = execLinkAckTimer port s := rfl
theorem exec_helloSend (port : Nat) : exec (.helloSend port) s = execHelloSend port s := rfl
theorem exec_helloReceive (port : Nat) (payload : Bytes) : exec (.helloReceive port payload) s = execHelloReceive port payload s := rfl
theorem exec_neighbourLost (port : Nat) : exec (.neighbourLost port) s = execNeighbourLost port s := rfl
theorem exec_addrReqSend : exec (.addrReqSend) s = execAddrReqSend s := rfl
theorem exec_addrReqReceive (port : Nat) (src : Nat) (payload : Bytes) : exec (.addrReqReceive port src payload) s = execAddrReqReceive port src payload s := rfl
theorem exec_addrAssignReceive (payload : Bytes) : exec (.addrAssignReceive payload) s = execAddrAssignReceive payload s := rfl
theorem exec_addrRefuseReceive (payload : Bytes) : exec (.addrRefuseReceive payload) s = execAddrRefuseReceive payload s := rfl
theorem exec_addrRetry : exec (.addrRetry) s = execAddrRetry s := rfl
theorem exec_addrMasterTimeout : exec (.addrMasterTimeout) s = execAddrMasterTimeout s := rfl
theorem exec_lsaReceive (port : Nat) (payload : Bytes) : exec (.lsaReceive port payload) s = execLsaReceive port payload s := rfl
theorem exec_lsaPeriodic : exec (.lsaPeriodic) s = execLsaPeriodic s := rfl
theorem exec_cableMapWrite (data : Bytes) : exec (.cableMapWrite data) s = execCableMapWrite data s := rfl
theorem exec_routeTableWrite (data : Bytes) : exec (.routeTableWrite data) s = execRouteTableWrite data s := rfl
theorem exec_policerWrite (data : Bytes) : exec (.policerWrite data) s = execPolicerWrite data s := rfl
theorem exec_shaperWrite (data : Bytes) : exec (.shaperWrite data) s = execShaperWrite data s := rfl
theorem exec_offsetExchange (peer : Nat) : exec (.offsetExchange peer) s = execOffsetExchange peer s := rfl
theorem exec_offsetReqReceive (src : Nat) (payload : Bytes) : exec (.offsetReqReceive src payload) s = execOffsetReqReceive src payload s := rfl
theorem exec_offsetRespReceive (src : Nat) (payload : Bytes) : exec (.offsetRespReceive src payload) s = execOffsetRespReceive src payload s := rfl
theorem exec_fanoutPortAck (delivery : Nat) (index : Nat) (ok : Bool) : exec (.fanoutPortAck delivery index ok) s = execFanoutPortAck delivery index ok s := rfl
theorem exec_roceAckReceive (conn : Nat) (path : Nat) (psn : Nat) : exec (.roceAckReceive conn path psn) s = execRoceAckReceive conn path psn s := rfl
theorem exec_roceNakReceive (conn : Nat) (path : Nat) (psn : Nat) (syndrome : Nat) : exec (.roceNakReceive conn path psn syndrome) s = execRoceNakReceive conn path psn syndrome s := rfl
theorem exec_roceAckTimeout (conn : Nat) (path : Nat) : exec (.roceAckTimeout conn path) s = execRoceAckTimeout conn path s := rfl
theorem exec_pathHoldTimeout (conn : Nat) (path : Nat) : exec (.pathHoldTimeout conn path) s = execPathHoldTimeout conn path s := rfl
theorem exec_connRearm (conn : Nat) (path : Nat) : exec (.connRearm conn path) s = execConnRearm conn path s := rfl
theorem exec_connTableWrite (data : Bytes) : exec (.connTableWrite data) s = execConnTableWrite data s := rfl
theorem exec_grantsWrite (data : Bytes) : exec (.grantsWrite data) s = execGrantsWrite data s := rfl
theorem exec_reuseHoldExpire (held : Nat) : exec (.reuseHoldExpire held) s = execReuseHoldExpire held s := rfl
theorem exec_ethFrameReceive (port : Nat) (occupied : Nat) (frame : Bytes) : exec (.ethFrameReceive port occupied frame) s = execEthFrameReceive port occupied frame s := rfl
theorem exec_pfcReceive (port : Nat) (mask : Nat) (quanta : Nat) : exec (.pfcReceive port mask quanta) s = execPfcReceive port mask quanta s := rfl
theorem exec_pfcPauseExpire (port : Nat) : exec (.pfcPauseExpire port) s = execPfcPauseExpire port s := rfl
theorem exec_pfcXoffRepeat (port : Nat) (occupied : Nat) : exec (.pfcXoffRepeat port occupied) s = execPfcXoffRepeat port occupied s := rfl
theorem exec_pfcStorm (port : Nat) : exec (.pfcStorm port) s = execPfcStorm port s := rfl
theorem exec_inboundWrite (conn : Nat) (path : Nat) (psn : Nat) (opcode : Nat) (key : Nat) (addr : Nat) (dlen : Nat) (data : Bytes) : exec (.inboundWrite conn path psn opcode key addr dlen data) s = execInboundWrite conn path psn opcode key addr dlen data s := rfl
theorem exec_srWriteReceive (src : Nat) (payload : Bytes) : exec (.srWriteReceive src payload) s = execSrWriteReceive src payload s := rfl
theorem exec_srSackReceive (src : Nat) (payload : Bytes) : exec (.srSackReceive src payload) s = execSrSackReceive src payload s := rfl
theorem exec_srAckTimeout (conn : Nat) : exec (.srAckTimeout conn) s = execSrAckTimeout conn s := rfl
theorem exec_srSackTimer (conn : Nat) : exec (.srSackTimer conn) s = execSrSackTimer conn s := rfl
theorem exec_heartbeatSend : exec (.heartbeatSend) s = execHeartbeatSend s := rfl
theorem exec_heartbeatMiss (role : Nat) : exec (.heartbeatMiss role) s = execHeartbeatMiss role s := rfl
theorem exec_selfFence : exec (.selfFence) s = execSelfFence s := rfl
theorem exec_recoveryResend : exec (.recoveryResend) s = execRecoveryResend s := rfl
theorem exec_faultReceive (src : Nat) (payload : Bytes) : exec (.faultReceive src payload) s = execFaultReceive src payload s := rfl
theorem exec_roleReqReceive (src : Nat) (payload : Bytes) : exec (.roleReqReceive src payload) s = execRoleReqReceive src payload s := rfl
theorem exec_roleAckReceive (src : Nat) (payload : Bytes) : exec (.roleAckReceive src payload) s = execRoleAckReceive src payload s := rfl
theorem exec_rollbackReceive (src : Nat) (payload : Bytes) : exec (.rollbackReceive src payload) s = execRollbackReceive src payload s := rfl
theorem exec_sealMarkReceive (src : Nat) (payload : Bytes) : exec (.sealMarkReceive src payload) s = execSealMarkReceive src payload s := rfl
theorem exec_rollbackRestart : exec (.rollbackRestart) s = execRollbackRestart s := rfl
theorem exec_sealIntentReceive (src : Nat) (payload : Bytes) : exec (.sealIntentReceive src payload) s = execSealIntentReceive src payload s := rfl
theorem exec_intentAckReceive (src : Nat) (payload : Bytes) : exec (.intentAckReceive src payload) s = execIntentAckReceive src payload s := rfl
theorem exec_mirrorReceive (src : Nat) (payload : Bytes) : exec (.mirrorReceive src payload) s = execMirrorReceive src payload s := rfl
theorem exec_rebuildDone : exec (.rebuildDone) s = execRebuildDone s := rfl
theorem exec_stragglerDetect (role : Nat) : exec (.stragglerDetect role) s = execStragglerDetect role s := rfl
theorem exec_swapBoundary : exec (.swapBoundary) s = execSwapBoundary s := rfl
theorem exec_roleCmd (value : Nat) : exec (.roleCmd value) s = execRoleCmd value s := rfl
theorem exec_recoverySlackEval : exec (.recoverySlackEval) s = execRecoverySlackEval s := rfl
theorem exec_slotDoneHoldRelease (index : Nat) : exec (.slotDoneHoldRelease index) s = execSlotDoneHoldRelease index s := rfl
theorem exec_canaryTick (tile : Nat) (bad : Nat) (answered : Bool) : exec (.canaryTick tile bad answered) s = execCanaryTick tile bad answered s := rfl
theorem exec_hubCanary (hub : Nat) (unit : Nat) (pass : Bool) : exec (.hubCanary hub unit pass) s = execHubCanary hub unit pass s := rfl
theorem exec_safetyReaction (mode : Nat) (unitKind : Nat) (unit : Nat) (rank : Nat) (detail : Nat) (senders : List Nat) : exec (.safetyReaction mode unitKind unit rank detail senders) s = execSafetyReaction mode unitKind unit rank detail senders s := rfl
theorem exec_commitWatchdog (step : Nat) (rank : Nat) : exec (.commitWatchdog step rank) s = execCommitWatchdog step rank s := rfl
theorem exec_sealHoldRelease : exec (.sealHoldRelease) s = execSealHoldRelease s := rfl
theorem exec_hub0WatchdogExpire : exec (.hub0WatchdogExpire) s = execHub0WatchdogExpire s := rfl
theorem exec_sealGateTimeout (hub : Nat) : exec (.sealGateTimeout hub) s = execSealGateTimeout hub s := rfl
theorem exec_safetyHeartbeat : exec (.safetyHeartbeat) s = execSafetyHeartbeat s := rfl
theorem exec_safeTest (value : Nat) : exec (.safeTest value) s = execSafeTest value s := rfl
theorem exec_sleepCmd (value : Nat) : exec (.sleepCmd value) s = execSleepCmd value s := rfl
theorem exec_sleepStageDone (durable : List Nat) : exec (.sleepStageDone durable) s = execSleepStageDone durable s := rfl
theorem exec_wakeN (lowUs : Nat) : exec (.wakeN lowUs) s = execWakeN lowUs s := rfl
theorem exec_wakeDatagram (udpPort : Nat) (payload : Bytes) : exec (.wakeDatagram udpPort payload) s = execWakeDatagram udpPort payload s := rfl
theorem exec_quadOp (quad : Nat) (value : Nat) : exec (.quadOp quad value) s = execQuadOp quad value s := rfl
theorem exec_pllRelockDone (quad : Nat) : exec (.pllRelockDone quad) s = execPllRelockDone quad s := rfl
theorem exec_avsAck (rail : Nat) (mv : Nat) : exec (.avsAck rail mv) s = execAvsAck rail mv s := rfl
theorem exec_avsAckTimeout (rail : Nat) : exec (.avsAckTimeout rail) s = execAvsAckTimeout rail s := rfl
theorem exec_tempWarn (temp : Int) : exec (.tempWarn temp) s = execTempWarn temp s := rfl
theorem exec_tempTrip (temp : Int) : exec (.tempTrip temp) s = execTempTrip temp s := rfl
theorem exec_ageingSample (values : List Nat) : exec (.ageingSample values) s = execAgeingSample values s := rfl
theorem exec_replan (measured : List (Nat × Nat × Nat × Nat)) : exec (.replan measured) s = execReplan measured s := rfl
theorem exec_replanNow (value : Nat) : exec (.replanNow value) s = execReplanNow value s := rfl
theorem exec_fwBlock (sid : Nat) (data : Bytes) : exec (.fwBlock sid data) s = execFwBlock sid data s := rfl
theorem exec_fwVerifyDone : exec (.fwVerifyDone) s = execFwVerifyDone s := rfl
theorem exec_fwActivate (value : Nat) : exec (.fwActivate value) s = execFwActivate value s := rfl
theorem exec_loaderRun : exec (.loaderRun) s = execLoaderRun s := rfl
theorem exec_firstStart (checksOk : Bool) : exec (.firstStart checksOk) s = execFirstStart checksOk s := rfl
theorem exec_fwConfirm (value : Nat) : exec (.fwConfirm value) s = execFwConfirm value s := rfl
theorem exec_intSourceEdge (id : Nat) : exec (.intSourceEdge id) s = execIntSourceEdge id s := rfl
theorem exec_intClaim (target : Nat) : exec (.intClaim target) s = execIntClaim target s := rfl
theorem exec_intComplete (agent : Nat) (target : Nat) (id : Nat) : exec (.intComplete agent target id) s = execIntComplete agent target id s := rfl
theorem exec_intSwi (agent : Nat) (target : Nat) (mask : Nat) : exec (.intSwi agent target mask) s = execIntSwi agent target mask s := rfl
theorem exec_intTimer (target : Nat) : exec (.intTimer target) s = execIntTimer target s := rfl
theorem exec_intTargetWrite (agent : Nat) (id : Nat) (target : Nat) : exec (.intTargetWrite agent id target) s = execIntTargetWrite agent id target s := rfl
theorem exec_addrerrRead (agent : Nat) (hub : Nat) : exec (.addrerrRead agent hub) s = execAddrerrRead agent hub s := rfl
theorem exec_countEnable (value : Nat) : exec (.countEnable value) s = execCountEnable value s := rfl
theorem exec_countSnapshot : exec (.countSnapshot) s = execCountSnapshot s := rfl
theorem exec_wfgNow (value : Nat) : exec (.wfgNow value) s = execWfgNow value s := rfl
theorem exec_hangDetect (tile : Nat) : exec (.hangDetect tile) s = execHangDetect tile s := rfl
theorem exec_wfgSecondPass : exec (.wfgSecondPass) s = execWfgSecondPass s := rfl
theorem exec_globalStop : exec (.globalStop) s = execGlobalStop s := rfl
theorem exec_stopNFall : exec (.stopNFall) s = execStopNFall s := rfl
theorem exec_globalRelease : exec (.globalRelease) s = execGlobalRelease s := rfl
theorem exec_stopNRise : exec (.stopNRise) s = execStopNRise s := rfl
theorem exec_scanOutRead : exec (.scanOutRead) s = execScanOutRead s := rfl
theorem exec_memOutRead : exec (.memOutRead) s = execMemOutRead s := rfl
theorem exec_tmuxSel (output : Nat) (value : Nat) (sid : Nat) : exec (.tmuxSel output value sid) s = execTmuxSel output value sid s := rfl
theorem exec_jtagExtest (pattern : Bytes) : exec (.jtagExtest pattern) s = execJtagExtest pattern s := rfl
theorem exec_jtagSamplePreload (pattern : Bytes) : exec (.jtagSamplePreload pattern) s = execJtagSamplePreload pattern s := rfl
theorem exec_jtagIdcode : exec (.jtagIdcode) s = execJtagIdcode s := rfl
theorem exec_jtagClamp : exec (.jtagClamp) s = execJtagClamp s := rfl
theorem exec_jtagHighz : exec (.jtagHighz) s = execJtagHighz s := rfl
theorem exec_jtagStop : exec (.jtagStop) s = execJtagStop s := rfl
theorem exec_jtagRelease : exec (.jtagRelease) s = execJtagRelease s := rfl
theorem exec_jtagScan (chain : Nat) : exec (.jtagScan chain) s = execJtagScan chain s := rfl
theorem exec_jtagMemrd (addr : Nat) (len : Nat) : exec (.jtagMemrd addr len) s = execJtagMemrd addr len s := rfl
theorem exec_jtagUnlock (proof : Bytes) : exec (.jtagUnlock proof) s = execJtagUnlock proof s := rfl
theorem exec_jtagStatus : exec (.jtagStatus) s = execJtagStatus s := rfl
theorem exec_jtagBypass (opcode : Nat) (data : Bytes) : exec (.jtagBypass opcode data) s = execJtagBypass opcode data s := rfl
theorem exec_testLogicReset : exec (.testLogicReset) s = execTestLogicReset s := rfl
theorem exec_resetN (low : Bool) : exec (.resetN low) s = execResetN low s := rfl
theorem exec_powerUpStep : exec (.powerUpStep) s = execPowerUpStep s := rfl
theorem exec_pgTimeout : exec (.pgTimeout) s = execPgTimeout s := rfl
theorem exec_seqRetry : exec (.seqRetry) s = execSeqRetry s := rfl
theorem exec_powerDownStep : exec (.powerDownStep) s = execPowerDownStep s := rfl
theorem exec_pgFallActive (group : Nat) : exec (.pgFallActive group) s = execPgFallActive group s := rfl
theorem exec_powerOnReset : exec (.powerOnReset) s = execPowerOnReset s := rfl
theorem exec_cancelAckTimeout : exec (.cancelAckTimeout) s = execCancelAckTimeout s := rfl
theorem exec_blockEraseDone (sb : Nat) : exec (.blockEraseDone sb) s = execBlockEraseDone sb s := rfl
theorem exec_pcieLinkChange (up : Bool) (rate : Nat) (width : Nat) : exec (.pcieLinkChange up rate width) s = execPcieLinkChange up rate width s := rfl
theorem exec_synthLockLost (port : Nat) : exec (.synthLockLost port) s = execSynthLockLost port s := rfl
theorem exec_partnerLaneControl (port : Nat) (op : Nat) (lane : Nat) : exec (.partnerLaneControl port op lane) s = execPartnerLaneControl port op lane s := rfl

end Machine
end Sys2Proof
end

