-- ==== Sys2Proof/Laws/Sparse.lean ====
section
/-!
SUPPORT. Sys2Proof/Laws/Sparse.lean: what data held by key reads as after an update, and that every update keeps the
canonical form.
-/
namespace Sys2Proof
namespace Machine

variable {α : Type}

@[simp] theorem Sparse.get_nil (d : α) (k : Nat) : Sparse.get d [] k = d := rfl

@[simp] theorem Sparse.find_nil (k : Nat) : Sparse.find ([] : Sparse α) k = none := rfl

/-- Optional data put at a key is found there; every other key is as it was. -/
theorem Sparse.find_put (m : Sparse α) (k j : Nat) (v : α) :
    Sparse.find (Sparse.put m k v) j = if j = k then some v else Sparse.find m j := by
  induction m with
  | nil => simp [Sparse.put, Sparse.find]
  | cons p m ih =>
    obtain ⟨a, w⟩ := p
    simp only [Sparse.put]
    split
    · simp [Sparse.find]
    · split
      · subst_vars; simp only [Sparse.find]; split <;> simp_all
      · simp only [Sparse.find, ih]; split <;> split <;> simp_all

@[simp] theorem Sparse.find_put_self (m : Sparse α) (k : Nat) (v : α) : Sparse.find (Sparse.put m k v) k = some v := by
  simp [Sparse.find_put]

theorem Sparse.find_put_other (m : Sparse α) (k j : Nat) (v : α) (hj : j ≠ k) :
    Sparse.find (Sparse.put m k v) j = Sparse.find m j := by simp [Sparse.find_put, hj]

/-- A dropped key is gone; every other key is as it was. -/
theorem Sparse.find_drop (m : Sparse α) (k j : Nat) :
    Sparse.find (Sparse.drop m k) j = if j = k then none else Sparse.find m j := by
  induction m with
  | nil => simp [Sparse.drop]
  | cons p m ih =>
    obtain ⟨a, w⟩ := p
    simp only [Sparse.drop] at ih ⊢
    by_cases ha : a = k
    · subst ha; simp only [List.filter, bne_self_eq_false, ih, Sparse.find]; split <;> simp_all
    · simp only [List.filter, show (a != k) = true by simpa using ha, Sparse.find, ih]; split <;> split <;> simp_all

theorem Sparse.get_put (d : α) (m : Sparse α) (k j : Nat) (v : α) :
    Sparse.get d (Sparse.put m k v) j = if j = k then v else Sparse.get d m j := by
  induction m with
  | nil => simp [Sparse.put, Sparse.get]
  | cons p m ih =>
    obtain ⟨a, w⟩ := p
    simp only [Sparse.put]
    split
    · simp [Sparse.get]
    · split
      · subst_vars; simp only [Sparse.get]; split <;> simp_all
      · simp only [Sparse.get, ih]; split <;> split <;> simp_all

theorem Sparse.get_drop (d : α) (m : Sparse α) (k j : Nat) :
    Sparse.get d (Sparse.drop m k) j = if j = k then d else Sparse.get d m j := by
  induction m with
  | nil => simp [Sparse.drop]
  | cons p m ih =>
    obtain ⟨a, w⟩ := p
    simp only [Sparse.drop] at ih ⊢
    by_cases ha : a = k
    · subst ha; simp only [List.filter, bne_self_eq_false, ih, Sparse.get]; split <;> simp_all
    · simp only [List.filter, show (a != k) = true by simpa using ha, Sparse.get, ih]; split <;> split <;> simp_all

/-- Read after write: the key set reads as the value, every other key as before. -/
theorem Sparse.get_set [DecidableEq α] (d : α) (m : Sparse α) (k j : Nat) (v : α) :
    Sparse.get d (Sparse.set d m k v) j = if j = k then v else Sparse.get d m j := by
  unfold Sparse.set
  split
  · simp_all [Sparse.get_drop]
  · exact Sparse.get_put ..

@[simp] theorem Sparse.get_set_self [DecidableEq α] (d : α) (m : Sparse α) (k : Nat) (v : α) :
    Sparse.get d (Sparse.set d m k v) k = v := by simp [Sparse.get_set]

theorem Sparse.get_set_other [DecidableEq α] (d : α) (m : Sparse α) (k j : Nat) (v : α) (hj : j ≠ k) :
    Sparse.get d (Sparse.set d m k v) j = Sparse.get d m j := by simp [Sparse.get_set, hj]

theorem Sparse.above_mono {lo hi : Nat} {m : Sparse α} (h : lo ≤ hi) (ha : Sparse.above hi m = true) :
    Sparse.above lo m = true := by
  induction m with
  | nil => rfl
  | cons p m ih =>
    obtain ⟨a, w⟩ := p
    simp only [Sparse.above, Bool.and_eq_true, decide_eq_true_eq] at ha ⊢
    exact ⟨by omega, ih ha.2⟩

theorem Sparse.above_put {m : Sparse α} {lo k : Nat} {v : α} (ha : Sparse.above lo m = true) (h : lo < k) :
    Sparse.above lo (Sparse.put m k v) = true := by
  induction m with
  | nil => simp [Sparse.put, Sparse.above, h]
  | cons p m ih =>
    obtain ⟨a, w⟩ := p
    simp only [Sparse.above, Bool.and_eq_true, decide_eq_true_eq] at ha
    simp only [Sparse.put]
    split
    · simp_all [Sparse.above]
    · split <;> simp_all [Sparse.above]

/-- Leaving out entries keeps every key above a bound. -/
theorem Sparse.above_filter {lo : Nat} {m : Sparse α} (p : Nat × α → Bool) (ha : Sparse.above lo m = true) :
    Sparse.above lo (m.filter p) = true := by
  induction m with
  | nil => rfl
  | cons q m ih =>
    obtain ⟨a, w⟩ := q
    simp only [Sparse.above, Bool.and_eq_true, decide_eq_true_eq] at ha
    by_cases hp : p (a, w) <;> simp_all [List.filter, Sparse.above]

/-- Leaving out entries keeps the canonical form. -/
theorem Sparse.wf_filter [DecidableEq α] (d : α) (m : Sparse α) (p : Nat × α → Bool) (hw : Sparse.wf d m = true) :
    Sparse.wf d (m.filter p) = true := by
  induction m with
  | nil => rfl
  | cons q m ih =>
    obtain ⟨a, w⟩ := q
    simp only [Sparse.wf, Bool.and_eq_true, decide_eq_true_eq] at hw
    obtain ⟨⟨hwd, ha⟩, hm⟩ := hw
    by_cases hp : p (a, w)
    · simp [List.filter, hp, Sparse.wf, hwd, Sparse.above_filter p ha, ih hm]
    · simp [List.filter, hp, ih hm]

theorem Sparse.wf_put [DecidableEq α] (d : α) (m : Sparse α) (k : Nat) (v : α) (hv : v ≠ d) (hw : Sparse.wf d m = true) :
    Sparse.wf d (Sparse.put m k v) = true := by
  induction m with
  | nil => simp [Sparse.put, Sparse.wf, Sparse.above, hv]
  | cons p m ih =>
    obtain ⟨a, w⟩ := p
    simp only [Sparse.wf, Bool.and_eq_true, decide_eq_true_eq] at hw
    obtain ⟨⟨hwd, ha⟩, hm⟩ := hw
    simp only [Sparse.put]
    split
    · next hk =>
      simp only [Sparse.wf, Sparse.above, Bool.and_eq_true, decide_eq_true_eq]
      exact ⟨⟨hv, hk, Sparse.above_mono (Nat.le_of_lt hk) ha⟩, ⟨hwd, ha⟩, hm⟩
    · split
      · simp_all [Sparse.wf]
      · simp only [Sparse.wf, Bool.and_eq_true, decide_eq_true_eq]
        exact ⟨⟨hwd, Sparse.above_put ha (by omega)⟩, ih hm⟩

/-- Setting a key keeps the canonical form. -/
theorem Sparse.wf_set [DecidableEq α] (d : α) (m : Sparse α) (k : Nat) (v : α) (hw : Sparse.wf d m = true) :
    Sparse.wf d (Sparse.set d m k v) = true := by
  unfold Sparse.set
  split
  · exact Sparse.wf_filter d m _ hw
  · next hv => exact Sparse.wf_put d m k v hv hw

end Machine
end Sys2Proof
end

