-- ==== Sys2Proof/Laws/State.lean ====
section
/-!
SUPPORT. Sys2Proof/Laws/State.lean: which group of the state each plain update leaves as it was, one lemma per group and
update, and what the shapes of a meaning answer.
-/
namespace Sys2Proof
namespace Machine

variable (s : M8)

@[simp] theorem emit_clk (o : Output) : (emit s o).clk = s.clk := rfl
@[simp] theorem emit_mem (o : Output) : (emit s o).mem = s.mem := rfl
@[simp] theorem emit_sync (o : Output) : (emit s o).sync = s.sync := rfl
@[simp] theorem emit_fences (o : Output) : (emit s o).fences = s.fences := rfl
@[simp] theorem emit_dict (o : Output) : (emit s o).dict = s.dict := rfl
@[simp] theorem emit_mbx (o : Output) : (emit s o).mbx = s.mbx := rfl
@[simp] theorem emit_intc (o : Output) : (emit s o).intc = s.intc := rfl
@[simp] theorem emit_dbg (o : Output) : (emit s o).dbg = s.dbg := rfl
@[simp] theorem emit_jtag (o : Output) : (emit s o).jtag = s.jtag := rfl
@[simp] theorem emit_pav (o : Output) : (emit s o).pav = s.pav := rfl
@[simp] theorem emit_job (o : Output) : (emit s o).job = s.job := rfl
@[simp] theorem emit_tiles (o : Output) : (emit s o).tiles = s.tiles := rfl
@[simp] theorem emit_hubs (o : Output) : (emit s o).hubs = s.hubs := rfl
@[simp] theorem emit_fl (o : Output) : (emit s o).fl = s.fl := rfl
@[simp] theorem emit_grp (o : Output) : (emit s o).grp = s.grp := rfl
@[simp] theorem emit_safe (o : Output) : (emit s o).safe = s.safe := rfl
@[simp] theorem emit_opt (o : Output) : (emit s o).opt = s.opt := rfl
@[simp] theorem emit_fab (o : Output) : (emit s o).fab = s.fab := rfl
@[simp] theorem emit_rem (o : Output) : (emit s o).rem = s.rem := rfl
@[simp] theorem emit_rings (o : Output) : (emit s o).rings = s.rings := rfl
@[simp] theorem emit_pwr (o : Output) : (emit s o).pwr = s.pwr := rfl
@[simp] theorem emit_freeCtr (o : Output) : (emit s o).freeCtr = s.freeCtr := rfl

@[simp] theorem odPut_clk (k : Nat) (v : OdVal) : (odPut s k v).clk = s.clk := rfl
@[simp] theorem odPut_mem (k : Nat) (v : OdVal) : (odPut s k v).mem = s.mem := rfl
@[simp] theorem odPut_sync (k : Nat) (v : OdVal) : (odPut s k v).sync = s.sync := rfl
@[simp] theorem odPut_fences (k : Nat) (v : OdVal) : (odPut s k v).fences = s.fences := rfl
@[simp] theorem odPut_mbx (k : Nat) (v : OdVal) : (odPut s k v).mbx = s.mbx := rfl
@[simp] theorem odPut_intc (k : Nat) (v : OdVal) : (odPut s k v).intc = s.intc := rfl
@[simp] theorem odPut_dbg (k : Nat) (v : OdVal) : (odPut s k v).dbg = s.dbg := rfl
@[simp] theorem odPut_jtag (k : Nat) (v : OdVal) : (odPut s k v).jtag = s.jtag := rfl
@[simp] theorem odPut_pav (k : Nat) (v : OdVal) : (odPut s k v).pav = s.pav := rfl
@[simp] theorem odPut_job (k : Nat) (v : OdVal) : (odPut s k v).job = s.job := rfl
@[simp] theorem odPut_tiles (k : Nat) (v : OdVal) : (odPut s k v).tiles = s.tiles := rfl
@[simp] theorem odPut_hubs (k : Nat) (v : OdVal) : (odPut s k v).hubs = s.hubs := rfl
@[simp] theorem odPut_fl (k : Nat) (v : OdVal) : (odPut s k v).fl = s.fl := rfl
@[simp] theorem odPut_grp (k : Nat) (v : OdVal) : (odPut s k v).grp = s.grp := rfl
@[simp] theorem odPut_safe (k : Nat) (v : OdVal) : (odPut s k v).safe = s.safe := rfl
@[simp] theorem odPut_opt (k : Nat) (v : OdVal) : (odPut s k v).opt = s.opt := rfl
@[simp] theorem odPut_fab (k : Nat) (v : OdVal) : (odPut s k v).fab = s.fab := rfl
@[simp] theorem odPut_rem (k : Nat) (v : OdVal) : (odPut s k v).rem = s.rem := rfl
@[simp] theorem odPut_rings (k : Nat) (v : OdVal) : (odPut s k v).rings = s.rings := rfl
@[simp] theorem odPut_pwr (k : Nat) (v : OdVal) : (odPut s k v).pwr = s.pwr := rfl
@[simp] theorem odPut_out (k : Nat) (v : OdVal) : (odPut s k v).out = s.out := rfl
@[simp] theorem odPut_freeCtr (k : Nat) (v : OdVal) : (odPut s k v).freeCtr = s.freeCtr := rfl

@[simp] theorem odSet_clk (k n : Nat) : (odSet s k n).clk = s.clk := rfl
@[simp] theorem odSet_mem (k n : Nat) : (odSet s k n).mem = s.mem := rfl
@[simp] theorem odSet_sync (k n : Nat) : (odSet s k n).sync = s.sync := rfl
@[simp] theorem odSet_fences (k n : Nat) : (odSet s k n).fences = s.fences := rfl
@[simp] theorem odSet_mbx (k n : Nat) : (odSet s k n).mbx = s.mbx := rfl
@[simp] theorem odSet_intc (k n : Nat) : (odSet s k n).intc = s.intc := rfl
@[simp] theorem odSet_dbg (k n : Nat) : (odSet s k n).dbg = s.dbg := rfl
@[simp] theorem odSet_jtag (k n : Nat) : (odSet s k n).jtag = s.jtag := rfl
@[simp] theorem odSet_pav (k n : Nat) : (odSet s k n).pav = s.pav := rfl
@[simp] theorem odSet_job (k n : Nat) : (odSet s k n).job = s.job := rfl
@[simp] theorem odSet_tiles (k n : Nat) : (odSet s k n).tiles = s.tiles := rfl
@[simp] theorem odSet_hubs (k n : Nat) : (odSet s k n).hubs = s.hubs := rfl
@[simp] theorem odSet_fl (k n : Nat) : (odSet s k n).fl = s.fl := rfl
@[simp] theorem odSet_grp (k n : Nat) : (odSet s k n).grp = s.grp := rfl
@[simp] theorem odSet_safe (k n : Nat) : (odSet s k n).safe = s.safe := rfl
@[simp] theorem odSet_opt (k n : Nat) : (odSet s k n).opt = s.opt := rfl
@[simp] theorem odSet_fab (k n : Nat) : (odSet s k n).fab = s.fab := rfl
@[simp] theorem odSet_rem (k n : Nat) : (odSet s k n).rem = s.rem := rfl
@[simp] theorem odSet_rings (k n : Nat) : (odSet s k n).rings = s.rings := rfl
@[simp] theorem odSet_pwr (k n : Nat) : (odSet s k n).pwr = s.pwr := rfl
@[simp] theorem odSet_out (k n : Nat) : (odSet s k n).out = s.out := rfl
@[simp] theorem odSet_freeCtr (k n : Nat) : (odSet s k n).freeCtr = s.freeCtr := rfl

@[simp] theorem odAdd_clk (k n : Nat) : (odAdd s k n).clk = s.clk := rfl
@[simp] theorem odAdd_mem (k n : Nat) : (odAdd s k n).mem = s.mem := rfl
@[simp] theorem odAdd_sync (k n : Nat) : (odAdd s k n).sync = s.sync := rfl
@[simp] theorem odAdd_fences (k n : Nat) : (odAdd s k n).fences = s.fences := rfl
@[simp] theorem odAdd_mbx (k n : Nat) : (odAdd s k n).mbx = s.mbx := rfl
@[simp] theorem odAdd_intc (k n : Nat) : (odAdd s k n).intc = s.intc := rfl
@[simp] theorem odAdd_dbg (k n : Nat) : (odAdd s k n).dbg = s.dbg := rfl
@[simp] theorem odAdd_jtag (k n : Nat) : (odAdd s k n).jtag = s.jtag := rfl
@[simp] theorem odAdd_pav (k n : Nat) : (odAdd s k n).pav = s.pav := rfl
@[simp] theorem odAdd_job (k n : Nat) : (odAdd s k n).job = s.job := rfl
@[simp] theorem odAdd_tiles (k n : Nat) : (odAdd s k n).tiles = s.tiles := rfl
@[simp] theorem odAdd_hubs (k n : Nat) : (odAdd s k n).hubs = s.hubs := rfl
@[simp] theorem odAdd_fl (k n : Nat) : (odAdd s k n).fl = s.fl := rfl
@[simp] theorem odAdd_grp (k n : Nat) : (odAdd s k n).grp = s.grp := rfl
@[simp] theorem odAdd_safe (k n : Nat) : (odAdd s k n).safe = s.safe := rfl
@[simp] theorem odAdd_opt (k n : Nat) : (odAdd s k n).opt = s.opt := rfl
@[simp] theorem odAdd_fab (k n : Nat) : (odAdd s k n).fab = s.fab := rfl
@[simp] theorem odAdd_rem (k n : Nat) : (odAdd s k n).rem = s.rem := rfl
@[simp] theorem odAdd_rings (k n : Nat) : (odAdd s k n).rings = s.rings := rfl
@[simp] theorem odAdd_pwr (k n : Nat) : (odAdd s k n).pwr = s.pwr := rfl
@[simp] theorem odAdd_out (k n : Nat) : (odAdd s k n).out = s.out := rfl
@[simp] theorem odAdd_freeCtr (k n : Nat) : (odAdd s k n).freeCtr = s.freeCtr := rfl

@[simp] theorem odInc_clk (k : Nat) : (odInc s k).clk = s.clk := rfl
@[simp] theorem odInc_mem (k : Nat) : (odInc s k).mem = s.mem := rfl
@[simp] theorem odInc_sync (k : Nat) : (odInc s k).sync = s.sync := rfl
@[simp] theorem odInc_fences (k : Nat) : (odInc s k).fences = s.fences := rfl
@[simp] theorem odInc_mbx (k : Nat) : (odInc s k).mbx = s.mbx := rfl
@[simp] theorem odInc_intc (k : Nat) : (odInc s k).intc = s.intc := rfl
@[simp] theorem odInc_dbg (k : Nat) : (odInc s k).dbg = s.dbg := rfl
@[simp] theorem odInc_jtag (k : Nat) : (odInc s k).jtag = s.jtag := rfl
@[simp] theorem odInc_pav (k : Nat) : (odInc s k).pav = s.pav := rfl
@[simp] theorem odInc_job (k : Nat) : (odInc s k).job = s.job := rfl
@[simp] theorem odInc_tiles (k : Nat) : (odInc s k).tiles = s.tiles := rfl
@[simp] theorem odInc_hubs (k : Nat) : (odInc s k).hubs = s.hubs := rfl
@[simp] theorem odInc_fl (k : Nat) : (odInc s k).fl = s.fl := rfl
@[simp] theorem odInc_grp (k : Nat) : (odInc s k).grp = s.grp := rfl
@[simp] theorem odInc_safe (k : Nat) : (odInc s k).safe = s.safe := rfl
@[simp] theorem odInc_opt (k : Nat) : (odInc s k).opt = s.opt := rfl
@[simp] theorem odInc_fab (k : Nat) : (odInc s k).fab = s.fab := rfl
@[simp] theorem odInc_rem (k : Nat) : (odInc s k).rem = s.rem := rfl
@[simp] theorem odInc_rings (k : Nat) : (odInc s k).rings = s.rings := rfl
@[simp] theorem odInc_pwr (k : Nat) : (odInc s k).pwr = s.pwr := rfl
@[simp] theorem odInc_out (k : Nat) : (odInc s k).out = s.out := rfl
@[simp] theorem odInc_freeCtr (k : Nat) : (odInc s k).freeCtr = s.freeCtr := rfl

@[simp] theorem odSetStored_clk (k : Nat) (v : OdVal) : (odSetStored s k v).clk = s.clk := rfl
@[simp] theorem odSetStored_mem (k : Nat) (v : OdVal) : (odSetStored s k v).mem = s.mem := rfl
@[simp] theorem odSetStored_sync (k : Nat) (v : OdVal) : (odSetStored s k v).sync = s.sync := rfl
@[simp] theorem odSetStored_fences (k : Nat) (v : OdVal) : (odSetStored s k v).fences = s.fences := rfl
@[simp] theorem odSetStored_mbx (k : Nat) (v : OdVal) : (odSetStored s k v).mbx = s.mbx := rfl
@[simp] theorem odSetStored_intc (k : Nat) (v : OdVal) : (odSetStored s k v).intc = s.intc := rfl
@[simp] theorem odSetStored_dbg (k : Nat) (v : OdVal) : (odSetStored s k v).dbg = s.dbg := rfl
@[simp] theorem odSetStored_jtag (k : Nat) (v : OdVal) : (odSetStored s k v).jtag = s.jtag := rfl
@[simp] theorem odSetStored_pav (k : Nat) (v : OdVal) : (odSetStored s k v).pav = s.pav := rfl
@[simp] theorem odSetStored_job (k : Nat) (v : OdVal) : (odSetStored s k v).job = s.job := rfl
@[simp] theorem odSetStored_tiles (k : Nat) (v : OdVal) : (odSetStored s k v).tiles = s.tiles := rfl
@[simp] theorem odSetStored_hubs (k : Nat) (v : OdVal) : (odSetStored s k v).hubs = s.hubs := rfl
@[simp] theorem odSetStored_fl (k : Nat) (v : OdVal) : (odSetStored s k v).fl = s.fl := rfl
@[simp] theorem odSetStored_grp (k : Nat) (v : OdVal) : (odSetStored s k v).grp = s.grp := rfl
@[simp] theorem odSetStored_safe (k : Nat) (v : OdVal) : (odSetStored s k v).safe = s.safe := rfl
@[simp] theorem odSetStored_opt (k : Nat) (v : OdVal) : (odSetStored s k v).opt = s.opt := rfl
@[simp] theorem odSetStored_fab (k : Nat) (v : OdVal) : (odSetStored s k v).fab = s.fab := rfl
@[simp] theorem odSetStored_rem (k : Nat) (v : OdVal) : (odSetStored s k v).rem = s.rem := rfl
@[simp] theorem odSetStored_rings (k : Nat) (v : OdVal) : (odSetStored s k v).rings = s.rings := rfl
@[simp] theorem odSetStored_pwr (k : Nat) (v : OdVal) : (odSetStored s k v).pwr = s.pwr := rfl
@[simp] theorem odSetStored_out (k : Nat) (v : OdVal) : (odSetStored s k v).out = s.out := rfl
@[simp] theorem odSetStored_freeCtr (k : Nat) (v : OdVal) : (odSetStored s k v).freeCtr = s.freeCtr := rfl

@[simp] theorem setSrc_clk (i : Nat) (x : IntSrc) : (setSrc s i x).clk = s.clk := rfl
@[simp] theorem setSrc_mem (i : Nat) (x : IntSrc) : (setSrc s i x).mem = s.mem := rfl
@[simp] theorem setSrc_sync (i : Nat) (x : IntSrc) : (setSrc s i x).sync = s.sync := rfl
@[simp] theorem setSrc_fences (i : Nat) (x : IntSrc) : (setSrc s i x).fences = s.fences := rfl
@[simp] theorem setSrc_dict (i : Nat) (x : IntSrc) : (setSrc s i x).dict = s.dict := rfl
@[simp] theorem setSrc_mbx (i : Nat) (x : IntSrc) : (setSrc s i x).mbx = s.mbx := rfl
@[simp] theorem setSrc_dbg (i : Nat) (x : IntSrc) : (setSrc s i x).dbg = s.dbg := rfl
@[simp] theorem setSrc_jtag (i : Nat) (x : IntSrc) : (setSrc s i x).jtag = s.jtag := rfl
@[simp] theorem setSrc_pav (i : Nat) (x : IntSrc) : (setSrc s i x).pav = s.pav := rfl
@[simp] theorem setSrc_job (i : Nat) (x : IntSrc) : (setSrc s i x).job = s.job := rfl
@[simp] theorem setSrc_tiles (i : Nat) (x : IntSrc) : (setSrc s i x).tiles = s.tiles := rfl
@[simp] theorem setSrc_hubs (i : Nat) (x : IntSrc) : (setSrc s i x).hubs = s.hubs := rfl
@[simp] theorem setSrc_fl (i : Nat) (x : IntSrc) : (setSrc s i x).fl = s.fl := rfl
@[simp] theorem setSrc_grp (i : Nat) (x : IntSrc) : (setSrc s i x).grp = s.grp := rfl
@[simp] theorem setSrc_safe (i : Nat) (x : IntSrc) : (setSrc s i x).safe = s.safe := rfl
@[simp] theorem setSrc_opt (i : Nat) (x : IntSrc) : (setSrc s i x).opt = s.opt := rfl
@[simp] theorem setSrc_fab (i : Nat) (x : IntSrc) : (setSrc s i x).fab = s.fab := rfl
@[simp] theorem setSrc_rem (i : Nat) (x : IntSrc) : (setSrc s i x).rem = s.rem := rfl
@[simp] theorem setSrc_rings (i : Nat) (x : IntSrc) : (setSrc s i x).rings = s.rings := rfl
@[simp] theorem setSrc_pwr (i : Nat) (x : IntSrc) : (setSrc s i x).pwr = s.pwr := rfl
@[simp] theorem setSrc_out (i : Nat) (x : IntSrc) : (setSrc s i x).out = s.out := rfl
@[simp] theorem setSrc_freeCtr (i : Nat) (x : IntSrc) : (setSrc s i x).freeCtr = s.freeCtr := rfl

@[simp] theorem setTgt_clk (i : Nat) (x : IntTarget) : (setTgt s i x).clk = s.clk := rfl
@[simp] theorem setTgt_mem (i : Nat) (x : IntTarget) : (setTgt s i x).mem = s.mem := rfl
@[simp] theorem setTgt_sync (i : Nat) (x : IntTarget) : (setTgt s i x).sync = s.sync := rfl
@[simp] theorem setTgt_fences (i : Nat) (x : IntTarget) : (setTgt s i x).fences = s.fences := rfl
@[simp] theorem setTgt_dict (i : Nat) (x : IntTarget) : (setTgt s i x).dict = s.dict := rfl
@[simp] theorem setTgt_mbx (i : Nat) (x : IntTarget) : (setTgt s i x).mbx = s.mbx := rfl
@[simp] theorem setTgt_dbg (i : Nat) (x : IntTarget) : (setTgt s i x).dbg = s.dbg := rfl
@[simp] theorem setTgt_jtag (i : Nat) (x : IntTarget) : (setTgt s i x).jtag = s.jtag := rfl
@[simp] theorem setTgt_pav (i : Nat) (x : IntTarget) : (setTgt s i x).pav = s.pav := rfl
@[simp] theorem setTgt_job (i : Nat) (x : IntTarget) : (setTgt s i x).job = s.job := rfl
@[simp] theorem setTgt_tiles (i : Nat) (x : IntTarget) : (setTgt s i x).tiles = s.tiles := rfl
@[simp] theorem setTgt_hubs (i : Nat) (x : IntTarget) : (setTgt s i x).hubs = s.hubs := rfl
@[simp] theorem setTgt_fl (i : Nat) (x : IntTarget) : (setTgt s i x).fl = s.fl := rfl
@[simp] theorem setTgt_grp (i : Nat) (x : IntTarget) : (setTgt s i x).grp = s.grp := rfl
@[simp] theorem setTgt_safe (i : Nat) (x : IntTarget) : (setTgt s i x).safe = s.safe := rfl
@[simp] theorem setTgt_opt (i : Nat) (x : IntTarget) : (setTgt s i x).opt = s.opt := rfl
@[simp] theorem setTgt_fab (i : Nat) (x : IntTarget) : (setTgt s i x).fab = s.fab := rfl
@[simp] theorem setTgt_rem (i : Nat) (x : IntTarget) : (setTgt s i x).rem = s.rem := rfl
@[simp] theorem setTgt_rings (i : Nat) (x : IntTarget) : (setTgt s i x).rings = s.rings := rfl
@[simp] theorem setTgt_pwr (i : Nat) (x : IntTarget) : (setTgt s i x).pwr = s.pwr := rfl
@[simp] theorem setTgt_out (i : Nat) (x : IntTarget) : (setTgt s i x).out = s.out := rfl
@[simp] theorem setTgt_freeCtr (i : Nat) (x : IntTarget) : (setTgt s i x).freeCtr = s.freeCtr := rfl

@[simp] theorem setSync_clk (r : Nat) (o : SyncObj) : (setSync s r o).clk = s.clk := rfl
@[simp] theorem setSync_mem (r : Nat) (o : SyncObj) : (setSync s r o).mem = s.mem := rfl
@[simp] theorem setSync_fences (r : Nat) (o : SyncObj) : (setSync s r o).fences = s.fences := rfl
@[simp] theorem setSync_dict (r : Nat) (o : SyncObj) : (setSync s r o).dict = s.dict := rfl
@[simp] theorem setSync_mbx (r : Nat) (o : SyncObj) : (setSync s r o).mbx = s.mbx := rfl
@[simp] theorem setSync_intc (r : Nat) (o : SyncObj) : (setSync s r o).intc = s.intc := rfl
@[simp] theorem setSync_dbg (r : Nat) (o : SyncObj) : (setSync s r o).dbg = s.dbg := rfl
@[simp] theorem setSync_jtag (r : Nat) (o : SyncObj) : (setSync s r o).jtag = s.jtag := rfl
@[simp] theorem setSync_pav (r : Nat) (o : SyncObj) : (setSync s r o).pav = s.pav := rfl
@[simp] theorem setSync_job (r : Nat) (o : SyncObj) : (setSync s r o).job = s.job := rfl
@[simp] theorem setSync_tiles (r : Nat) (o : SyncObj) : (setSync s r o).tiles = s.tiles := rfl
@[simp] theorem setSync_hubs (r : Nat) (o : SyncObj) : (setSync s r o).hubs = s.hubs := rfl
@[simp] theorem setSync_fl (r : Nat) (o : SyncObj) : (setSync s r o).fl = s.fl := rfl
@[simp] theorem setSync_grp (r : Nat) (o : SyncObj) : (setSync s r o).grp = s.grp := rfl
@[simp] theorem setSync_safe (r : Nat) (o : SyncObj) : (setSync s r o).safe = s.safe := rfl
@[simp] theorem setSync_opt (r : Nat) (o : SyncObj) : (setSync s r o).opt = s.opt := rfl
@[simp] theorem setSync_fab (r : Nat) (o : SyncObj) : (setSync s r o).fab = s.fab := rfl
@[simp] theorem setSync_rem (r : Nat) (o : SyncObj) : (setSync s r o).rem = s.rem := rfl
@[simp] theorem setSync_rings (r : Nat) (o : SyncObj) : (setSync s r o).rings = s.rings := rfl
@[simp] theorem setSync_pwr (r : Nat) (o : SyncObj) : (setSync s r o).pwr = s.pwr := rfl
@[simp] theorem setSync_out (r : Nat) (o : SyncObj) : (setSync s r o).out = s.out := rfl
@[simp] theorem setSync_freeCtr (r : Nat) (o : SyncObj) : (setSync s r o).freeCtr = s.freeCtr := rfl

@[simp] theorem setTile_clk (t : Nat) (x : Tile) : (setTile s t x).clk = s.clk := rfl
@[simp] theorem setTile_mem (t : Nat) (x : Tile) : (setTile s t x).mem = s.mem := rfl
@[simp] theorem setTile_sync (t : Nat) (x : Tile) : (setTile s t x).sync = s.sync := rfl
@[simp] theorem setTile_fences (t : Nat) (x : Tile) : (setTile s t x).fences = s.fences := rfl
@[simp] theorem setTile_dict (t : Nat) (x : Tile) : (setTile s t x).dict = s.dict := rfl
@[simp] theorem setTile_mbx (t : Nat) (x : Tile) : (setTile s t x).mbx = s.mbx := rfl
@[simp] theorem setTile_intc (t : Nat) (x : Tile) : (setTile s t x).intc = s.intc := rfl
@[simp] theorem setTile_dbg (t : Nat) (x : Tile) : (setTile s t x).dbg = s.dbg := rfl
@[simp] theorem setTile_jtag (t : Nat) (x : Tile) : (setTile s t x).jtag = s.jtag := rfl
@[simp] theorem setTile_pav (t : Nat) (x : Tile) : (setTile s t x).pav = s.pav := rfl
@[simp] theorem setTile_job (t : Nat) (x : Tile) : (setTile s t x).job = s.job := rfl
@[simp] theorem setTile_hubs (t : Nat) (x : Tile) : (setTile s t x).hubs = s.hubs := rfl
@[simp] theorem setTile_fl (t : Nat) (x : Tile) : (setTile s t x).fl = s.fl := rfl
@[simp] theorem setTile_grp (t : Nat) (x : Tile) : (setTile s t x).grp = s.grp := rfl
@[simp] theorem setTile_safe (t : Nat) (x : Tile) : (setTile s t x).safe = s.safe := rfl
@[simp] theorem setTile_opt (t : Nat) (x : Tile) : (setTile s t x).opt = s.opt := rfl
@[simp] theorem setTile_fab (t : Nat) (x : Tile) : (setTile s t x).fab = s.fab := rfl
@[simp] theorem setTile_rem (t : Nat) (x : Tile) : (setTile s t x).rem = s.rem := rfl
@[simp] theorem setTile_rings (t : Nat) (x : Tile) : (setTile s t x).rings = s.rings := rfl
@[simp] theorem setTile_pwr (t : Nat) (x : Tile) : (setTile s t x).pwr = s.pwr := rfl
@[simp] theorem setTile_out (t : Nat) (x : Tile) : (setTile s t x).out = s.out := rfl
@[simp] theorem setTile_freeCtr (t : Nat) (x : Tile) : (setTile s t x).freeCtr = s.freeCtr := rfl

@[simp] theorem modTile_clk (t : Nat) (f : Tile → Tile) : (modTile s t f).clk = s.clk := rfl
@[simp] theorem modTile_mem (t : Nat) (f : Tile → Tile) : (modTile s t f).mem = s.mem := rfl
@[simp] theorem modTile_sync (t : Nat) (f : Tile → Tile) : (modTile s t f).sync = s.sync := rfl
@[simp] theorem modTile_fences (t : Nat) (f : Tile → Tile) : (modTile s t f).fences = s.fences := rfl
@[simp] theorem modTile_dict (t : Nat) (f : Tile → Tile) : (modTile s t f).dict = s.dict := rfl
@[simp] theorem modTile_mbx (t : Nat) (f : Tile → Tile) : (modTile s t f).mbx = s.mbx := rfl
@[simp] theorem modTile_intc (t : Nat) (f : Tile → Tile) : (modTile s t f).intc = s.intc := rfl
@[simp] theorem modTile_dbg (t : Nat) (f : Tile → Tile) : (modTile s t f).dbg = s.dbg := rfl
@[simp] theorem modTile_jtag (t : Nat) (f : Tile → Tile) : (modTile s t f).jtag = s.jtag := rfl
@[simp] theorem modTile_pav (t : Nat) (f : Tile → Tile) : (modTile s t f).pav = s.pav := rfl
@[simp] theorem modTile_job (t : Nat) (f : Tile → Tile) : (modTile s t f).job = s.job := rfl
@[simp] theorem modTile_hubs (t : Nat) (f : Tile → Tile) : (modTile s t f).hubs = s.hubs := rfl
@[simp] theorem modTile_fl (t : Nat) (f : Tile → Tile) : (modTile s t f).fl = s.fl := rfl
@[simp] theorem modTile_grp (t : Nat) (f : Tile → Tile) : (modTile s t f).grp = s.grp := rfl
@[simp] theorem modTile_safe (t : Nat) (f : Tile → Tile) : (modTile s t f).safe = s.safe := rfl
@[simp] theorem modTile_opt (t : Nat) (f : Tile → Tile) : (modTile s t f).opt = s.opt := rfl
@[simp] theorem modTile_fab (t : Nat) (f : Tile → Tile) : (modTile s t f).fab = s.fab := rfl
@[simp] theorem modTile_rem (t : Nat) (f : Tile → Tile) : (modTile s t f).rem = s.rem := rfl
@[simp] theorem modTile_rings (t : Nat) (f : Tile → Tile) : (modTile s t f).rings = s.rings := rfl
@[simp] theorem modTile_pwr (t : Nat) (f : Tile → Tile) : (modTile s t f).pwr = s.pwr := rfl
@[simp] theorem modTile_out (t : Nat) (f : Tile → Tile) : (modTile s t f).out = s.out := rfl
@[simp] theorem modTile_freeCtr (t : Nat) (f : Tile → Tile) : (modTile s t f).freeCtr = s.freeCtr := rfl

@[simp] theorem setThread_clk (t th : Nat) (x : Thread) : (setThread s t th x).clk = s.clk := rfl
@[simp] theorem setThread_mem (t th : Nat) (x : Thread) : (setThread s t th x).mem = s.mem := rfl
@[simp] theorem setThread_sync (t th : Nat) (x : Thread) : (setThread s t th x).sync = s.sync := rfl
@[simp] theorem setThread_fences (t th : Nat) (x : Thread) : (setThread s t th x).fences = s.fences := rfl
@[simp] theorem setThread_dict (t th : Nat) (x : Thread) : (setThread s t th x).dict = s.dict := rfl
@[simp] theorem setThread_mbx (t th : Nat) (x : Thread) : (setThread s t th x).mbx = s.mbx := rfl
@[simp] theorem setThread_intc (t th : Nat) (x : Thread) : (setThread s t th x).intc = s.intc := rfl
@[simp] theorem setThread_dbg (t th : Nat) (x : Thread) : (setThread s t th x).dbg = s.dbg := rfl
@[simp] theorem setThread_jtag (t th : Nat) (x : Thread) : (setThread s t th x).jtag = s.jtag := rfl
@[simp] theorem setThread_pav (t th : Nat) (x : Thread) : (setThread s t th x).pav = s.pav := rfl
@[simp] theorem setThread_job (t th : Nat) (x : Thread) : (setThread s t th x).job = s.job := rfl
@[simp] theorem setThread_hubs (t th : Nat) (x : Thread) : (setThread s t th x).hubs = s.hubs := rfl
@[simp] theorem setThread_fl (t th : Nat) (x : Thread) : (setThread s t th x).fl = s.fl := rfl
@[simp] theorem setThread_grp (t th : Nat) (x : Thread) : (setThread s t th x).grp = s.grp := rfl
@[simp] theorem setThread_safe (t th : Nat) (x : Thread) : (setThread s t th x).safe = s.safe := rfl
@[simp] theorem setThread_opt (t th : Nat) (x : Thread) : (setThread s t th x).opt = s.opt := rfl
@[simp] theorem setThread_fab (t th : Nat) (x : Thread) : (setThread s t th x).fab = s.fab := rfl
@[simp] theorem setThread_rem (t th : Nat) (x : Thread) : (setThread s t th x).rem = s.rem := rfl
@[simp] theorem setThread_rings (t th : Nat) (x : Thread) : (setThread s t th x).rings = s.rings := rfl
@[simp] theorem setThread_pwr (t th : Nat) (x : Thread) : (setThread s t th x).pwr = s.pwr := rfl
@[simp] theorem setThread_out (t th : Nat) (x : Thread) : (setThread s t th x).out = s.out := rfl
@[simp] theorem setThread_freeCtr (t th : Nat) (x : Thread) : (setThread s t th x).freeCtr = s.freeCtr := rfl

@[simp] theorem writeMem_clk (a : Nat) (b : Bytes) : (writeMem s a b).clk = s.clk := rfl
@[simp] theorem writeMem_sync (a : Nat) (b : Bytes) : (writeMem s a b).sync = s.sync := rfl
@[simp] theorem writeMem_fences (a : Nat) (b : Bytes) : (writeMem s a b).fences = s.fences := rfl
@[simp] theorem writeMem_dict (a : Nat) (b : Bytes) : (writeMem s a b).dict = s.dict := rfl
@[simp] theorem writeMem_mbx (a : Nat) (b : Bytes) : (writeMem s a b).mbx = s.mbx := rfl
@[simp] theorem writeMem_intc (a : Nat) (b : Bytes) : (writeMem s a b).intc = s.intc := rfl
@[simp] theorem writeMem_dbg (a : Nat) (b : Bytes) : (writeMem s a b).dbg = s.dbg := rfl
@[simp] theorem writeMem_jtag (a : Nat) (b : Bytes) : (writeMem s a b).jtag = s.jtag := rfl
@[simp] theorem writeMem_pav (a : Nat) (b : Bytes) : (writeMem s a b).pav = s.pav := rfl
@[simp] theorem writeMem_job (a : Nat) (b : Bytes) : (writeMem s a b).job = s.job := rfl
@[simp] theorem writeMem_tiles (a : Nat) (b : Bytes) : (writeMem s a b).tiles = s.tiles := rfl
@[simp] theorem writeMem_hubs (a : Nat) (b : Bytes) : (writeMem s a b).hubs = s.hubs := rfl
@[simp] theorem writeMem_fl (a : Nat) (b : Bytes) : (writeMem s a b).fl = s.fl := rfl
@[simp] theorem writeMem_grp (a : Nat) (b : Bytes) : (writeMem s a b).grp = s.grp := rfl
@[simp] theorem writeMem_safe (a : Nat) (b : Bytes) : (writeMem s a b).safe = s.safe := rfl
@[simp] theorem writeMem_opt (a : Nat) (b : Bytes) : (writeMem s a b).opt = s.opt := rfl
@[simp] theorem writeMem_fab (a : Nat) (b : Bytes) : (writeMem s a b).fab = s.fab := rfl
@[simp] theorem writeMem_rem (a : Nat) (b : Bytes) : (writeMem s a b).rem = s.rem := rfl
@[simp] theorem writeMem_rings (a : Nat) (b : Bytes) : (writeMem s a b).rings = s.rings := rfl
@[simp] theorem writeMem_pwr (a : Nat) (b : Bytes) : (writeMem s a b).pwr = s.pwr := rfl
@[simp] theorem writeMem_out (a : Nat) (b : Bytes) : (writeMem s a b).out = s.out := rfl
@[simp] theorem writeMem_freeCtr (a : Nat) (b : Bytes) : (writeMem s a b).freeCtr = s.freeCtr := rfl

@[simp] theorem clearMem_clk (a n : Nat) : (clearMem s a n).clk = s.clk := rfl
@[simp] theorem clearMem_sync (a n : Nat) : (clearMem s a n).sync = s.sync := rfl
@[simp] theorem clearMem_fences (a n : Nat) : (clearMem s a n).fences = s.fences := rfl
@[simp] theorem clearMem_dict (a n : Nat) : (clearMem s a n).dict = s.dict := rfl
@[simp] theorem clearMem_mbx (a n : Nat) : (clearMem s a n).mbx = s.mbx := rfl
@[simp] theorem clearMem_intc (a n : Nat) : (clearMem s a n).intc = s.intc := rfl
@[simp] theorem clearMem_dbg (a n : Nat) : (clearMem s a n).dbg = s.dbg := rfl
@[simp] theorem clearMem_jtag (a n : Nat) : (clearMem s a n).jtag = s.jtag := rfl
@[simp] theorem clearMem_pav (a n : Nat) : (clearMem s a n).pav = s.pav := rfl
@[simp] theorem clearMem_job (a n : Nat) : (clearMem s a n).job = s.job := rfl
@[simp] theorem clearMem_tiles (a n : Nat) : (clearMem s a n).tiles = s.tiles := rfl
@[simp] theorem clearMem_hubs (a n : Nat) : (clearMem s a n).hubs = s.hubs := rfl
@[simp] theorem clearMem_fl (a n : Nat) : (clearMem s a n).fl = s.fl := rfl
@[simp] theorem clearMem_grp (a n : Nat) : (clearMem s a n).grp = s.grp := rfl
@[simp] theorem clearMem_safe (a n : Nat) : (clearMem s a n).safe = s.safe := rfl
@[simp] theorem clearMem_opt (a n : Nat) : (clearMem s a n).opt = s.opt := rfl
@[simp] theorem clearMem_fab (a n : Nat) : (clearMem s a n).fab = s.fab := rfl
@[simp] theorem clearMem_rem (a n : Nat) : (clearMem s a n).rem = s.rem := rfl
@[simp] theorem clearMem_rings (a n : Nat) : (clearMem s a n).rings = s.rings := rfl
@[simp] theorem clearMem_pwr (a n : Nat) : (clearMem s a n).pwr = s.pwr := rfl
@[simp] theorem clearMem_out (a n : Nat) : (clearMem s a n).out = s.out := rfl
@[simp] theorem clearMem_freeCtr (a n : Nat) : (clearMem s a n).freeCtr = s.freeCtr := rfl

@[simp] theorem progressed_clk (t : Nat) : (progressed s t).clk = s.clk := rfl
@[simp] theorem progressed_mem (t : Nat) : (progressed s t).mem = s.mem := rfl
@[simp] theorem progressed_sync (t : Nat) : (progressed s t).sync = s.sync := rfl
@[simp] theorem progressed_fences (t : Nat) : (progressed s t).fences = s.fences := rfl
@[simp] theorem progressed_dict (t : Nat) : (progressed s t).dict = s.dict := rfl
@[simp] theorem progressed_mbx (t : Nat) : (progressed s t).mbx = s.mbx := rfl
@[simp] theorem progressed_intc (t : Nat) : (progressed s t).intc = s.intc := rfl
@[simp] theorem progressed_jtag (t : Nat) : (progressed s t).jtag = s.jtag := rfl
@[simp] theorem progressed_pav (t : Nat) : (progressed s t).pav = s.pav := rfl
@[simp] theorem progressed_job (t : Nat) : (progressed s t).job = s.job := rfl
@[simp] theorem progressed_tiles (t : Nat) : (progressed s t).tiles = s.tiles := rfl
@[simp] theorem progressed_hubs (t : Nat) : (progressed s t).hubs = s.hubs := rfl
@[simp] theorem progressed_fl (t : Nat) : (progressed s t).fl = s.fl := rfl
@[simp] theorem progressed_grp (t : Nat) : (progressed s t).grp = s.grp := rfl
@[simp] theorem progressed_safe (t : Nat) : (progressed s t).safe = s.safe := rfl
@[simp] theorem progressed_opt (t : Nat) : (progressed s t).opt = s.opt := rfl
@[simp] theorem progressed_fab (t : Nat) : (progressed s t).fab = s.fab := rfl
@[simp] theorem progressed_rem (t : Nat) : (progressed s t).rem = s.rem := rfl
@[simp] theorem progressed_rings (t : Nat) : (progressed s t).rings = s.rings := rfl
@[simp] theorem progressed_pwr (t : Nat) : (progressed s t).pwr = s.pwr := rfl
@[simp] theorem progressed_out (t : Nat) : (progressed s t).out = s.out := rfl
@[simp] theorem progressed_freeCtr (t : Nat) : (progressed s t).freeCtr = s.freeCtr := rfl

@[simp] theorem sendFrame_clk (dst cls flow : Nat) (p : Bytes) : (sendFrame s dst cls flow p).clk = s.clk := rfl
@[simp] theorem sendFrame_mem (dst cls flow : Nat) (p : Bytes) : (sendFrame s dst cls flow p).mem = s.mem := rfl
@[simp] theorem sendFrame_sync (dst cls flow : Nat) (p : Bytes) : (sendFrame s dst cls flow p).sync = s.sync := rfl
@[simp] theorem sendFrame_fences (dst cls flow : Nat) (p : Bytes) : (sendFrame s dst cls flow p).fences = s.fences := rfl
@[simp] theorem sendFrame_dict (dst cls flow : Nat) (p : Bytes) : (sendFrame s dst cls flow p).dict = s.dict := rfl
@[simp] theorem sendFrame_mbx (dst cls flow : Nat) (p : Bytes) : (sendFrame s dst cls flow p).mbx = s.mbx := rfl
@[simp] theorem sendFrame_intc (dst cls flow : Nat) (p : Bytes) : (sendFrame s dst cls flow p).intc = s.intc := rfl
@[simp] theorem sendFrame_dbg (dst cls flow : Nat) (p : Bytes) : (sendFrame s dst cls flow p).dbg = s.dbg := rfl
@[simp] theorem sendFrame_jtag (dst cls flow : Nat) (p : Bytes) : (sendFrame s dst cls flow p).jtag = s.jtag := rfl
@[simp] theorem sendFrame_pav (dst cls flow : Nat) (p : Bytes) : (sendFrame s dst cls flow p).pav = s.pav := rfl
@[simp] theorem sendFrame_job (dst cls flow : Nat) (p : Bytes) : (sendFrame s dst cls flow p).job = s.job := rfl
@[simp] theorem sendFrame_tiles (dst cls flow : Nat) (p : Bytes) : (sendFrame s dst cls flow p).tiles = s.tiles := rfl
@[simp] theorem sendFrame_hubs (dst cls flow : Nat) (p : Bytes) : (sendFrame s dst cls flow p).hubs = s.hubs := rfl
@[simp] theorem sendFrame_fl (dst cls flow : Nat) (p : Bytes) : (sendFrame s dst cls flow p).fl = s.fl := rfl
@[simp] theorem sendFrame_grp (dst cls flow : Nat) (p : Bytes) : (sendFrame s dst cls flow p).grp = s.grp := rfl
@[simp] theorem sendFrame_safe (dst cls flow : Nat) (p : Bytes) : (sendFrame s dst cls flow p).safe = s.safe := rfl
@[simp] theorem sendFrame_opt (dst cls flow : Nat) (p : Bytes) : (sendFrame s dst cls flow p).opt = s.opt := rfl
@[simp] theorem sendFrame_rem (dst cls flow : Nat) (p : Bytes) : (sendFrame s dst cls flow p).rem = s.rem := rfl
@[simp] theorem sendFrame_rings (dst cls flow : Nat) (p : Bytes) : (sendFrame s dst cls flow p).rings = s.rings := rfl
@[simp] theorem sendFrame_pwr (dst cls flow : Nat) (p : Bytes) : (sendFrame s dst cls flow p).pwr = s.pwr := rfl
@[simp] theorem sendFrame_out (dst cls flow : Nat) (p : Bytes) : (sendFrame s dst cls flow p).out = s.out := rfl
@[simp] theorem sendFrame_freeCtr (dst cls flow : Nat) (p : Bytes) : (sendFrame s dst cls flow p).freeCtr = s.freeCtr := rfl

@[simp] theorem closeGates_clk : (closeGates s).clk = s.clk := rfl
@[simp] theorem closeGates_mem : (closeGates s).mem = s.mem := rfl
@[simp] theorem closeGates_sync : (closeGates s).sync = s.sync := rfl
@[simp] theorem closeGates_fences : (closeGates s).fences = s.fences := rfl
@[simp] theorem closeGates_dict : (closeGates s).dict = s.dict := rfl
@[simp] theorem closeGates_mbx : (closeGates s).mbx = s.mbx := rfl
@[simp] theorem closeGates_intc : (closeGates s).intc = s.intc := rfl
@[simp] theorem closeGates_dbg : (closeGates s).dbg = s.dbg := rfl
@[simp] theorem closeGates_jtag : (closeGates s).jtag = s.jtag := rfl
@[simp] theorem closeGates_pav : (closeGates s).pav = s.pav := rfl
@[simp] theorem closeGates_job : (closeGates s).job = s.job := rfl
@[simp] theorem closeGates_tiles : (closeGates s).tiles = s.tiles := rfl
@[simp] theorem closeGates_hubs : (closeGates s).hubs = s.hubs := rfl
@[simp] theorem closeGates_fl : (closeGates s).fl = s.fl := rfl
@[simp] theorem closeGates_grp : (closeGates s).grp = s.grp := rfl
@[simp] theorem closeGates_opt : (closeGates s).opt = s.opt := rfl
@[simp] theorem closeGates_fab : (closeGates s).fab = s.fab := rfl
@[simp] theorem closeGates_rem : (closeGates s).rem = s.rem := rfl
@[simp] theorem closeGates_rings : (closeGates s).rings = s.rings := rfl
@[simp] theorem closeGates_pwr : (closeGates s).pwr = s.pwr := rfl
@[simp] theorem closeGates_out : (closeGates s).out = s.out := rfl
@[simp] theorem closeGates_freeCtr : (closeGates s).freeCtr = s.freeCtr := rfl

@[simp] theorem drawFree_clk : (drawFree s).2.clk = s.clk := rfl
@[simp] theorem drawFree_mem : (drawFree s).2.mem = s.mem := rfl
@[simp] theorem drawFree_sync : (drawFree s).2.sync = s.sync := rfl
@[simp] theorem drawFree_fences : (drawFree s).2.fences = s.fences := rfl
@[simp] theorem drawFree_dict : (drawFree s).2.dict = s.dict := rfl
@[simp] theorem drawFree_mbx : (drawFree s).2.mbx = s.mbx := rfl
@[simp] theorem drawFree_intc : (drawFree s).2.intc = s.intc := rfl
@[simp] theorem drawFree_dbg : (drawFree s).2.dbg = s.dbg := rfl
@[simp] theorem drawFree_jtag : (drawFree s).2.jtag = s.jtag := rfl
@[simp] theorem drawFree_pav : (drawFree s).2.pav = s.pav := rfl
@[simp] theorem drawFree_job : (drawFree s).2.job = s.job := rfl
@[simp] theorem drawFree_tiles : (drawFree s).2.tiles = s.tiles := rfl
@[simp] theorem drawFree_hubs : (drawFree s).2.hubs = s.hubs := rfl
@[simp] theorem drawFree_fl : (drawFree s).2.fl = s.fl := rfl
@[simp] theorem drawFree_grp : (drawFree s).2.grp = s.grp := rfl
@[simp] theorem drawFree_safe : (drawFree s).2.safe = s.safe := rfl
@[simp] theorem drawFree_opt : (drawFree s).2.opt = s.opt := rfl
@[simp] theorem drawFree_fab : (drawFree s).2.fab = s.fab := rfl
@[simp] theorem drawFree_rem : (drawFree s).2.rem = s.rem := rfl
@[simp] theorem drawFree_rings : (drawFree s).2.rings = s.rings := rfl
@[simp] theorem drawFree_pwr : (drawFree s).2.pwr = s.pwr := rfl
@[simp] theorem drawFree_out : (drawFree s).2.out = s.out := rfl

@[simp] theorem drawBytes_clk (k : Nat) : (drawBytes s k).2.clk = s.clk := rfl
@[simp] theorem drawBytes_mem (k : Nat) : (drawBytes s k).2.mem = s.mem := rfl
@[simp] theorem drawBytes_sync (k : Nat) : (drawBytes s k).2.sync = s.sync := rfl
@[simp] theorem drawBytes_fences (k : Nat) : (drawBytes s k).2.fences = s.fences := rfl
@[simp] theorem drawBytes_dict (k : Nat) : (drawBytes s k).2.dict = s.dict := rfl
@[simp] theorem drawBytes_mbx (k : Nat) : (drawBytes s k).2.mbx = s.mbx := rfl
@[simp] theorem drawBytes_intc (k : Nat) : (drawBytes s k).2.intc = s.intc := rfl
@[simp] theorem drawBytes_dbg (k : Nat) : (drawBytes s k).2.dbg = s.dbg := rfl
@[simp] theorem drawBytes_jtag (k : Nat) : (drawBytes s k).2.jtag = s.jtag := rfl
@[simp] theorem drawBytes_pav (k : Nat) : (drawBytes s k).2.pav = s.pav := rfl
@[simp] theorem drawBytes_job (k : Nat) : (drawBytes s k).2.job = s.job := rfl
@[simp] theorem drawBytes_tiles (k : Nat) : (drawBytes s k).2.tiles = s.tiles := rfl
@[simp] theorem drawBytes_hubs (k : Nat) : (drawBytes s k).2.hubs = s.hubs := rfl
@[simp] theorem drawBytes_fl (k : Nat) : (drawBytes s k).2.fl = s.fl := rfl
@[simp] theorem drawBytes_grp (k : Nat) : (drawBytes s k).2.grp = s.grp := rfl
@[simp] theorem drawBytes_safe (k : Nat) : (drawBytes s k).2.safe = s.safe := rfl
@[simp] theorem drawBytes_opt (k : Nat) : (drawBytes s k).2.opt = s.opt := rfl
@[simp] theorem drawBytes_fab (k : Nat) : (drawBytes s k).2.fab = s.fab := rfl
@[simp] theorem drawBytes_rem (k : Nat) : (drawBytes s k).2.rem = s.rem := rfl
@[simp] theorem drawBytes_rings (k : Nat) : (drawBytes s k).2.rings = s.rings := rfl
@[simp] theorem drawBytes_pwr (k : Nat) : (drawBytes s k).2.pwr = s.pwr := rfl
@[simp] theorem drawBytes_out (k : Nat) : (drawBytes s k).2.out = s.out := rfl

/-- A command of a frozen or unpowered part answers a next state in every state. -/
theorem live_next (s : State) (g : M8 → M8) : ∃ u, live s g = .next u := ⟨_, rfl⟩

/-- What a command of a stoppable part answers while no stop is in force and the part is powered. -/
theorem live_awake (s : State) (g : M8 → M8) (h1 : s.m.dbg.stop = false) (h2 : s.m.pwr.off = false) :
    live s g = .next { s with m := g s.m } := by simp [live, h1, h2]

/-- Under a global stop a command of a frozen part changes nothing. -/
theorem live_stopped (s : State) (g : M8 → M8) (h : s.m.dbg.stop = true) : live s g = .next s := by simp [live, h]

/-- While only AON is powered a command of another part changes nothing. -/
theorem live_off (s : State) (g : M8 → M8) (h : s.m.pwr.off = true) : live s g = .next s := by simp [live, h]

/-- What a command of the always-on part answers. -/
theorem aon_next (s : State) (g : M8 → M8) : aon s g = .next { s with m := g s.m } := rfl

/-- A command leaves the queue's rest as it was: live. -/
theorem live_pending {s u : State} {g : M8 → M8} (h : live s g = .next u) : u.pending = s.pending := by
  unfold live at h
  split at h <;> cases h <;> rfl

/-- A command leaves the queue's rest as it was: aon. -/
theorem aon_pending {s u : State} {g : M8 → M8} (h : aon s g = .next u) : u.pending = s.pending := by
  cases h; rfl

end Machine
end Sys2Proof
end

