-- ==== Sys2Proof/Laws/Memory.lean ====
section
/-!
SUPPORT. Sys2Proof/Laws/Memory.lean: what a byte of memory reads as after each operation on memory, and that every one of
them keeps the canonical form.
-/
namespace Sys2Proof
namespace Machine

/-- After reset memory lists nothing, in canonical form. -/
theorem reset_memory_wf : Memory.wf State.reset.m.mem = true := rfl

theorem putBytes_wf (mem : List Host.Cell) (a : Nat) (bs : Bytes) (h : Memory.wf mem = true) : Memory.wf (putBytes mem a bs) = true := by
  induction bs generalizing mem a with
  | nil => exact h
  | cons b bs ih =>
    simp only [putBytes]
    split
    · exact ih _ _ (Sparse.wf_set 0 mem _ b h)
    · exact ih _ _ h

theorem writeMem_wf (s : M8) (a : Nat) (bs : Bytes) (h : Memory.wf s.mem = true) : Memory.wf (writeMem s a bs).mem = true := putBytes_wf _ _ _ h

theorem clearMem_wf (s : M8) (a n : Nat) (h : Memory.wf s.mem = true) : Memory.wf (clearMem s a n).mem = true := Sparse.wf_filter 0 s.mem _ h

/-- A cell that none of the written addresses names keeps its byte. -/
theorem get_putBytes_other (mem : List Host.Cell) (a : Nat) (bs : Bytes) (k : Nat)
    (h : ∀ i, i < bs.length → memKey (a + i) ≠ some k) : Sparse.get (0 : Byte) (putBytes mem a bs) k = Sparse.get 0 mem k := by
  induction bs generalizing mem a with
  | nil => rfl
  | cons b bs ih =>
    have h0 := h 0 (by simp)
    have hs : ∀ i, i < bs.length → memKey (a + 1 + i) ≠ some k := fun i hi => by
      have := h (i + 1) (by simpa using hi)
      rwa [show a + (i + 1) = a + 1 + i by omega] at this
    simp only [putBytes]
    split
    · next k' hk =>
      rw [ih _ _ hs, Sparse.get_set_other]
      rintro rfl
      exact h0 (by simpa using hk)
    · exact ih _ _ hs

/-- Every byte whose cell none of the written addresses names reads as before. -/
theorem memByte_writeMem_other (s : M8) (a : Nat) (bs : Bytes) (b : Nat)
    (h : ∀ i, i < bs.length → memKey (a + i) ≠ memKey b ∨ memKey b = none) : memByte (writeMem s a bs) b = memByte s b := by
  unfold memByte
  cases hb : memKey b with
  | none => rfl
  | some k =>
    simp only [Option.map_some, Option.some.injEq]
    exact get_putBytes_other _ _ _ _ fun i hi e => (h i hi).elim (fun n => n (by rw [e, hb])) (by simp [hb])

/-- One byte written reads back. -/
theorem memByte_writeMem_one (s : M8) (a : Nat) (b : Byte) (h : (memKey a).isSome = true) :
    memByte (writeMem s a [b]) a = some b := by
  unfold memByte writeMem
  cases ha : memKey a with
  | none => simp [ha] at h
  | some k => simp [putBytes, ha]

/-- A cleared cell reads 0, every other cell as before. -/
theorem get_clear (mem : List Host.Cell) (a n k : Nat) :
    Sparse.get (0 : Byte) (mem.filter fun c => !(cellIn a n c.1)) k = if cellIn a n k then 0 else Sparse.get 0 mem k := by
  induction mem with
  | nil => simp
  | cons c mem ih =>
    obtain ⟨j, v⟩ := c
    by_cases hj : cellIn a n j = true
    · simp only [List.filter, hj, Bool.not_true, ih, Sparse.get]
      by_cases hk : k = j
      · subst hk; simp [hj]
      · simp [hk]
    · simp only [List.filter, hj, Bool.not_false, ih, Sparse.get]
      by_cases hk : k = j
      · subst hk; simp [hj]
      · simp [hk]

theorem memByte_clearMem (s : M8) (a n b k : Nat) (h : memKey b = some k) :
    memByte (clearMem s a n) b = if cellIn a n k then some 0 else memByte s b := by
  unfold memByte clearMem
  simp only [h, Option.map_some, get_clear]
  split <;> rfl

/-- Memory of 0 bytes is written by nothing. -/
@[simp] theorem writeMem_nil (s : M8) (a : Nat) : writeMem s a [] = s := rfl

/-- Bytes read are as many as were asked for. -/
theorem readMem_length (s : M8) (a n : Nat) (bs : Bytes) (h : readMem s a n = some bs) : bs.length = n := by
  induction n generalizing a bs with
  | zero => simp only [readMem, Option.some.injEq] at h; subst h; rfl
  | succ n ih =>
    simp only [readMem] at h
    split at h
    · next b bs' hb hs => simp only [Option.some.injEq] at h; subst h; simp [ih _ _ hs]
    · cases h

@[simp] theorem readMemOnes_length (s : M8) (a n : Nat) : (readMemOnes s a n).length = n := by
  induction n generalizing a with
  | zero => rfl
  | succ n ih => simp [readMemOnes, ih]

end Machine
end Sys2Proof
end

