-- ==== Sys2Proof/Laws/Ops.lean ====
section
/-!
SUPPORT. Sys2Proof/Laws/Ops.lean: what the shared operations do: what a dictionary entry, a sync object, an interrupt source
reads as after an update, and which groups of the state each operation may change.
-/
namespace Sys2Proof
namespace Machine

variable (s : M8)

/-! ### Entries, sync objects, sources -/

theorem odGet_odPut (k j : Nat) (v : OdVal) : odGet (odPut s k v) j = if j = k then odFit k v else odGet s j := by
  unfold odGet odPut
  simp only [Sparse.find_put]
  by_cases h : j = k <;> simp [h]

@[simp] theorem odGet_odPut_self (k : Nat) (v : OdVal) : odGet (odPut s k v) k = odFit k v := by simp [odGet_odPut]

theorem odGet_odPut_other (k j : Nat) (v : OdVal) (h : j ≠ k) : odGet (odPut s k v) j = odGet s j := by simp [odGet_odPut, h]

theorem odNat_odSet_other (k j n : Nat) (h : j ≠ k) : odNat (odSet s k n) j = odNat s j := by
  simp [odNat, odSet, odGet_odPut, h]

theorem odNat_odInc_other (k j : Nat) (h : j ≠ k) : odNat (odInc s k) j = odNat s j := odNat_odSet_other s k j _ h

theorem odBytes_odSet_other (k j n : Nat) (h : j ≠ k) : odBytes (odSet s k n) j = odBytes s j := by
  simp [odBytes, odSet, odGet_odPut, h]

theorem odBytes_odPut_other (k j : Nat) (v : OdVal) (h : j ≠ k) : odBytes (odPut s k v) j = odBytes s j := by
  simp [odBytes, odGet_odPut, h]

/-- A number put in an entry of a numeric type is kept within the type's width. -/
theorem odNat_odSet_self (k n : Nat) (e : OdEntry) (h : odKeyRow k = some e) (ht : e.ty.numeric = true) :
    odNat (odSet s k n) k = n % 2 ^ (8 * e.ty.size) := by
  simp [odNat, odSet, odFit, h, ht, OdVal.toNat]

theorem odPut_rest (k : Nat) (v : OdVal) : odPut s k v = { s with dict := { s.dict with live := (odPut s k v).dict.live } } := rfl

theorem odSet_rest (k n : Nat) : odSet s k n = { s with dict := { s.dict with live := (odSet s k n).dict.live } } := rfl

theorem getSync_setSync (r q : Nat) (o : SyncObj) : getSync (setSync s r o) q = if q = r then o else getSync s q := by
  unfold getSync setSync
  exact Sparse.get_set ..

@[simp] theorem getSync_setSync_self (r : Nat) (o : SyncObj) : getSync (setSync s r o) r = o := by simp [getSync_setSync]

theorem getSrc_setSrc (i j : Nat) (x : IntSrc) : getSrc (setSrc s i x) j = if j = i then x else getSrc s j := by
  unfold getSrc setSrc
  exact Sparse.get_set ..

@[simp] theorem getSrc_setSrc_self (i : Nat) (x : IntSrc) : getSrc (setSrc s i x) i = x := by simp [getSrc_setSrc]

theorem getTgt_setTgt (g h : Nat) (x : IntTarget) : getTgt (setTgt s g x) h = if h = g then x else getTgt s h := by
  unfold getTgt setTgt
  exact Sparse.get_set ..

@[simp] theorem getSrc_wakeTarget (g i j : Nat) : getSrc (wakeTarget s g i) j = getSrc s j := by
  unfold wakeTarget
  dsimp only
  split <;> rfl

@[simp] theorem getSrc_odInc (k j : Nat) : getSrc (odInc s k) j = getSrc s j := rfl

/-- A rising edge leaves its source pending (R595). -/
theorem sourceEdge_pending (i : Nat) (h : i ≤ 0x18C) : (getSrc (sourceEdge s i) i).pending = true := by
  unfold sourceEdge
  simp only [Nat.not_lt.mpr h, if_false]
  split <;> split <;> simp_all

/-- An edge of one source leaves every other source as it was. -/
theorem getSrc_sourceEdge_other (i j : Nat) (h : j ≠ i) : getSrc (sourceEdge s i) j = getSrc s j := by
  unfold sourceEdge
  split
  · rfl
  · dsimp only
    split <;> split <;> simp [getSrc_setSrc, h]

/-! ### Footprints -/

/-- Nothing but interrupts and the dictionary differs. -/
def IntOnly (a b : M8) : Prop := b = { a with intc := b.intc, dict := b.dict }

theorem IntOnly.refl : IntOnly s s := rfl

theorem IntOnly.trans {a b c : M8} (h : IntOnly a b) (h' : IntOnly b c) : IntOnly a c := by
  unfold IntOnly at *
  rw [h', h]

theorem IntOnly.ite {a x y : M8} {c : Prop} [Decidable c] (hx : IntOnly a x) (hy : IntOnly a y) :
    IntOnly a (if c then x else y) := by
  split <;> assumption

theorem setSrc_int (i : Nat) (x : IntSrc) : IntOnly s (setSrc s i x) := rfl

theorem setTgt_int (g : Nat) (x : IntTarget) : IntOnly s (setTgt s g x) := rfl

theorem odInc_int (k : Nat) : IntOnly s (odInc s k) := rfl

theorem wakeTarget_int (g i : Nat) : IntOnly s (wakeTarget s g i) := .ite (setTgt_int ..) (.refl s)

/-- A wake that may follow an update of interrupts. -/
theorem IntOnly.wake {a b : M8} {c : Prop} [Decidable c] {g i : Nat} (h : IntOnly a b) :
    IntOnly a (if c then wakeTarget b g i else b) := .ite (h.trans (wakeTarget_int ..)) h

theorem sourceEdge_int (i : Nat) : IntOnly s (sourceEdge s i) :=
  .ite (.refl s) (.wake (.ite (.trans (setSrc_int ..) (odInc_int ..)) (setSrc_int ..)))

theorem setLine_int (i : Nat) (level : Bool) : IntOnly s (setLine s i level) :=
  .ite (.refl s) (.ite (.trans (setSrc_int ..) (sourceEdge_int ..)) (setSrc_int ..))

theorem privEdge_int (g b : Nat) : IntOnly s (privEdge s g b) := .wake (.ite (odInc_int ..) (setTgt_int ..))

theorem addressError_int (agent a : Nat) : IntOnly s (addressError s agent a) :=
  .trans (b := { s with intc := { s.intc with addrErr := _ } }) rfl (setLine_int ..)

/-- An event record changes the event rings alone, and starts or ends no stop. -/
theorem record_rest (r k b a : Nat) : record s r k b a = { s with dbg := { s.dbg with rings := (record s r k b a).dbg.rings } } := by
  unfold record
  split <;> rfl

/-- Nothing but tiles, interrupts, the dictionary and the event rings differs. -/
def TileOnly (a b : M8) : Prop :=
  b = { a with tiles := b.tiles, intc := b.intc, dict := b.dict, dbg := { a.dbg with rings := b.dbg.rings } }

theorem TileOnly.trans {a b c : M8} (h : TileOnly a b) (h' : TileOnly b c) : TileOnly a c := by
  unfold TileOnly at *
  rw [h', h]

theorem TileOnly.refl : TileOnly s s := rfl

theorem TileOnly.ite {a x y : M8} {c : Prop} [Decidable c] (hx : TileOnly a x) (hy : TileOnly a y) :
    TileOnly a (if c then x else y) := by
  split <;> assumption

theorem TileOnly.of_int {a b : M8} (h : IntOnly a b) : TileOnly a b := by
  unfold IntOnly TileOnly at *
  rw [h]

theorem record_tile (r k b a : Nat) : TileOnly s (record s r k b a) := by
  unfold TileOnly
  rw [record_rest]

theorem modTile_tile (t : Nat) (f : Tile → Tile) : TileOnly s (modTile s t f) := rfl

theorem odSet_tile (k n : Nat) : TileOnly s (odSet s k n) := rfl

theorem enterTileSt_tile (t : Nat) (st : TileSt) : TileOnly s (enterTileSt s t st) :=
  .trans (.ite (modTile_tile ..) (.trans (modTile_tile ..) (record_tile ..))) (.of_int (setLine_int ..))

theorem writeTrap_tile (t th cause pc arg : Nat) : TileOnly s (writeTrap s t th cause pc arg) :=
  .trans (.trans (.trans (.ite (.refl s) (modTile_tile ..)) (odSet_tile ..)) (odSet_tile ..)) (record_tile ..)

theorem haltTile_tile (t : Nat) : TileOnly s (haltTile s t) := .ite (modTile_tile ..) (.refl s)

theorem releaseThread_tile (t ref th : Nat) : TileOnly s (releaseThread s t ref th) := by
  unfold releaseThread
  dsimp only
  split
  · exact .ite (modTile_tile ..) (.refl s)
  · rfl

/-- Steps that each change tiles alone change tiles alone together. -/
theorem foldl_tile {α : Type} (f : M8 → α → M8) (l : List α) (hf : ∀ s a, TileOnly s (f s a)) : TileOnly s (l.foldl f s) := by
  induction l generalizing s with
  | nil => rfl
  | cons a l ih => exact (hf s a).trans (ih _)

theorem releaseWaiters_tile (ref : Nat) : TileOnly s (releaseWaiters s ref) :=
  foldl_tile s _ _ fun s t => foldl_tile s _ _ fun s th => releaseThread_tile s t ref th

/-- A counter's addition changes its object and releases threads (R189). -/
theorem addCounter_rest (ref n : Nat) : TileOnly (setSync s ref { getSync s ref with value := ((getSync s ref).value + n) % 2 ^ 64 })
    (addCounter s ref n) := releaseWaiters_tile ..

/-- A job enters a state: its entry and the event rings. -/
theorem enterJobState_tile (st : Nat) : TileOnly s (enterJobState s st) :=
  .ite (.refl s) (.trans (odSet_tile ..) (record_tile ..))

/-- A job fails: beside its entries only its failing step is set (R144, R212). -/
theorem failJob_rest (code step : Nat) : ∃ j, TileOnly { s with job := { s.job with failStep := j } } (failJob s code step) := by
  unfold failJob
  split
  · have h : TileOnly s (odSet (enterJobState s 6) Od.JOB_FAIL code) := (enterJobState_tile s 6).trans (odSet_tile ..)
    refine ⟨some step, ?_⟩
    dsimp only
    unfold TileOnly at *
    rw [h]
  · exact ⟨s.job.failStep, rfl⟩

/-- A fence of itself leaves a member fenced (R522, R553). -/
theorem fenceSelf_rest (h : s.grp.fenced = false) :
    TileOnly { s with grp := { s.grp with fenced := true, fencedAt := s.clk.now } } (fenceSelf s) := by
  unfold fenceSelf
  simp only [h, Bool.false_eq_true, if_false]
  exact ((odSet_tile _ Od.SELF_FENCES _).trans (odSet_tile _ Od.SAFETY_STATE _)).trans (foldl_tile _ _ _ haltTile_tile)

@[simp] theorem fenceSelf_fenced : (fenceSelf s).grp.fenced = true := by
  by_cases h : s.grp.fenced = true
  · simp [fenceSelf, h]
  · have := fenceSelf_rest s (by simpa using h)
    unfold TileOnly at this
    rw [this]

/-- A global stop is in force once it has started, and one in force stays as it is (R612). -/
theorem startStop_stop (cause : Nat) : (startStop s cause).dbg.stop = true := by
  unfold startStop
  split
  · assumption
  · dsimp only
    split <;> rfl

theorem startStop_again (cause : Nat) (h : s.dbg.stop = true) : startStop s cause = s := by simp [startStop, h]

end Machine
end Sys2Proof
end

