-- ==== Sys2Proof/Laws/Tile.lean ====
section
/-!
SUPPORT. Sys2Proof/Laws/Tile.lean: what tiles, threads and registers read as after an update, and all that completing an
instruction does.
-/
namespace Sys2Proof
namespace Machine

@[simp] theorem getTile_setTile (s : M8) (t : Nat) (x : Tile) : getTile (setTile s t x) t = x := by
  simp [getTile, setTile]

theorem getTile_setTile_other (s : M8) (t t' : Nat) (x : Tile) (ht : t' ≠ t) : getTile (setTile s t x) t' = getTile s t' := by
  simp [getTile, setTile, Sparse.get_set_other _ _ _ _ _ ht]

@[simp] theorem getTile_modTile (s : M8) (t : Nat) (f : Tile → Tile) : getTile (modTile s t f) t = f (getTile s t) := by
  simp [modTile]

theorem getTile_modTile_other (s : M8) (t t' : Nat) (f : Tile → Tile) (ht : t' ≠ t) :
    getTile (modTile s t f) t' = getTile s t' := getTile_setTile_other _ _ _ _ ht

@[simp] theorem getTile_setThread (s : M8) (t th : Nat) (y : Thread) :
    getTile (setThread s t th y) t = { getTile s t with threads := (getTile s t).threads.set {} th y } := by
  simp [setThread]

theorem getTile_setThread_other (s : M8) (t t' th : Nat) (y : Thread) (ht : t' ≠ t) :
    getTile (setThread s t th y) t' = getTile s t' := getTile_modTile_other _ _ _ _ ht

@[simp] theorem getThread_setThread (s : M8) (t th : Nat) (y : Thread) : getThread (setThread s t th y) t th = y := by
  simp [getThread]

theorem getThread_setThread_other (s : M8) (t th th' : Nat) (y : Thread) (h : th' ≠ th) :
    getThread (setThread s t th y) t th' = getThread s t th' := by
  simp [getThread, Sparse.get_set_other _ _ _ _ _ h]

theorem Thread.reg_setReg (x : Thread) (n r : Nat) (v : Word64) :
    (x.setReg n v).reg r = if r = n then (if n = 0 then 0 else v) else x.reg r := by
  by_cases hn : n = 0 <;> by_cases hr : r = 0 <;> by_cases hrn : r = n <;>
    simp_all [Thread.setReg, Thread.reg, Sparse.get_set]

/-- A count touches the operation counters alone. -/
theorem count_counts (s : M8) (u i n : Nat) (hi : i < 38) : CountsOnly s (count s u i n) := by
  unfold count
  split
  · refine ⟨rfl, rfl, fun k hk => ?_⟩
    have hne : k ≠ counterKey i := fun h => hk (h ▸ List.mem_map_of_mem (List.mem_range.2 hi))
    simp only [odGet, odAdd, odSet, odPut, Sparse.find_put_other _ _ _ _ hne]
  · exact ⟨rfl, rfl, fun _ _ => rfl⟩

@[simp] theorem count_tiles (s : M8) (u i n : Nat) : (count s u i n).tiles = s.tiles := by
  unfold count; split <;> rfl

theorem count_rest (s : M8) (u i n : Nat) :
    count s u i n = { s with dbg := (count s u i n).dbg, dict := (count s u i n).dict } := by
  unfold count; split <;> rfl

theorem CountsOnly.refl (a : M8) : CountsOnly a a := ⟨rfl, rfl, fun _ _ => rfl⟩

theorem CountsOnly.trans {a b c : M8} (h : CountsOnly a b) (h' : CountsOnly b c) : CountsOnly a c := by
  refine ⟨by rw [h'.debug, h.debug], by rw [h'.entries.engine, h.entries.engine], fun k hk => ?_⟩
  rw [h'.entries.others k hk, h.entries.others k hk]

theorem CountsOnly.of_eq {a b : M8} (h1 : b.dbg = a.dbg) (h2 : b.dict = a.dict) : CountsOnly a b :=
  ⟨by rw [h1], by rw [h2], fun k _ => by simp only [odGet, h2]⟩

/-- The counters a completed instruction counts. -/
def counted (t cat : Nat) (nd : Bool) (s : M8) : M8 :=
  let s := if cat = 0 then s else count s t cat 1
  if nd then count s t 37 1 else s

theorem counted_rest (t cat : Nat) (nd : Bool) (s : M8) :
    counted t cat nd s = { s with dbg := (counted t cat nd s).dbg, dict := (counted t cat nd s).dict } := by
  simp only [counted]
  split <;> split
  · exact count_rest ..
  · rw [count_rest (count s t cat 1), count_rest s]
  · rfl
  · exact count_rest ..

@[simp] theorem counted_tiles (t cat : Nat) (nd : Bool) (s : M8) : (counted t cat nd s).tiles = s.tiles := by
  rw [counted_rest]

theorem counted_counts (t cat : Nat) (nd : Bool) (s : M8) (hc : cat < 38) : CountsOnly s (counted t cat nd s) := by
  simp only [counted]
  split <;> split
  · exact count_counts _ _ _ _ (by omega)
  · exact (count_counts _ _ _ _ hc).trans (count_counts _ _ _ _ (by omega))
  · exact .refl _
  · exact count_counts _ _ _ _ hc

theorem complete_counted (s : M8) (t th cat : Nat) (nd : Bool) (y : Thread) : complete s t th cat nd y =
    counted t cat nd (modTile (setThread s t th (if nd then { y.advance with vary := true } else y.advance)) t
      fun x => { x with lastIssue := th }) := rfl

@[simp] theorem setReg_pc (y : Thread) (n : Nat) (v : Word64) : (y.setReg n v).pc = y.pc := by
  unfold Thread.setReg; split <;> rfl

@[simp] theorem setReg_vary (y : Thread) (n : Nat) (v : Word64) : (y.setReg n v).vary = y.vary := by
  unfold Thread.setReg; split <;> rfl

@[simp] theorem setReg_channel (y : Thread) (n : Nat) (v : Word64) : (y.setReg n v).channel = y.channel := by
  unfold Thread.setReg; split <;> rfl

@[simp] theorem setReg_locked (y : Thread) (n : Nat) (v : Word64) : (y.setReg n v).locked = y.locked := by
  unfold Thread.setReg; split <;> rfl

@[simp] theorem setReg_told (y : Thread) (n : Nat) (v : Word64) : (y.setReg n v).told = y.told := by
  unfold Thread.setReg; split <;> rfl

@[simp] theorem setReg_zero (y : Thread) (v : Word64) : y.setReg 0 v = y := rfl

theorem Thread.eta_parts (y x : Thread) (hc : y.channel = x.channel) (hl : y.locked = x.locked)
    (ht : y.told = x.told) :
    y = { x with regs := y.regs, pc := y.pc, vary := y.vary, tstate := y.tstate, wait := y.wait } := by
  cases y; cases x; cases hc; cases hl; cases ht; rfl

/-- What a machine must show for an instruction of thread th of tile t to have completed with thread state y. -/
theorem writes_of {t th : Nat} {f : RFields} {sd : Nat} {v : Word64} {pc : Nat} {a b : M8} {y : Thread}
    (hy : getThread b t th = y) (hr : y.regs = ((getThread a t th).setReg sd v).regs)
    (hp : y.pc = pc) (hs : y.tstate = .ready) (hw : y.wait = .none) (hv : y.vary = (f.nd || (getThread a t th).vary))
    (hc : y.channel = (getThread a t th).channel) (hl : y.locked = (getThread a t th).locked)
    (htold : y.told = (getThread a t th).told) (ho : ∀ t', t' ≠ t → getTile b t' = getTile a t')
    (ht : getTile b t = { getTile a t with threads := (getTile b t).threads, lastIssue := th })
    (hth : ∀ th', th' ≠ th → getThread b t th' = getThread a t th')
    (hcount : CountsOnly a b) (hrest : b = { a with tiles := b.tiles, dbg := b.dbg, dict := b.dict }) :
    Writes t th f sd v pc a b := by
  have hreg : ∀ r, y.reg r = ((getThread a t th).setReg sd v).reg r := fun r => by simp only [Thread.reg, hr]
  refine ⟨?_, by rw [hy, hp], by rw [hy]; exact ⟨hs, hw⟩, by rw [hy, hv], ⟨ho, ht, hth, ?_, fun r h => ?_⟩, hcount, hrest⟩
  · rw [hy, hreg, Thread.reg_setReg, if_pos rfl]
  · exact ⟨_, _, _, _, _, by rw [hy]; exact y.eta_parts _ hc hl htold⟩
  · rw [hy, hreg, Thread.reg_setReg, if_neg h]

/-- Completing an instruction with thread state y. -/
def issued (s : M8) (t th : Nat) (y : Thread) : M8 := modTile (setThread s t th y) t fun x => { x with lastIssue := th }

theorem complete_issued (s : M8) (t th cat : Nat) (nd : Bool) (y : Thread) : complete s t th cat nd y =
    counted t cat nd (issued s t th (if nd then { y.advance with vary := true } else y.advance)) := rfl

@[simp] theorem getTile_issued (s : M8) (t th : Nat) (y : Thread) : getTile (issued s t th y) t =
    { getTile s t with threads := (getTile s t).threads.set {} th y, lastIssue := th } := by simp [issued]

theorem getTile_issued_other (s : M8) (t t' th : Nat) (y : Thread) (h : t' ≠ t) : getTile (issued s t th y) t' = getTile s t' := by
  rw [issued, getTile_modTile_other _ _ _ _ h, getTile_setThread_other _ _ _ _ _ h]

@[simp] theorem getTile_counted (t cat : Nat) (nd : Bool) (s : M8) (t' : Nat) : getTile (counted t cat nd s) t' = getTile s t' := by
  simp only [getTile, counted_tiles]

/-- All that completing an instruction does (R181, R187, R208). -/
theorem complete_writes (s : M8) (t th cat : Nat) (f : RFields) (sd : Nat) (v : Word64) (hc : cat < 38) :
    Writes t th f sd v ((getThread s t th).pc + 8) s (complete s t th cat f.nd ((getThread s t th).setReg sd v)) := by
  rw [complete_issued]
  generalize hy : (if f.nd = true then { ((getThread s t th).setReg sd v).advance with vary := true }
    else ((getThread s t th).setReg sd v).advance) = y
  have h1 : y.regs = ((getThread s t th).setReg sd v).regs := by rw [← hy]; split <;> rfl
  have h2 : y.pc = (getThread s t th).pc + 8 := by rw [← hy]; split <;> simp [Thread.advance]
  have h3 : y.tstate = .ready := by rw [← hy]; split <;> rfl
  have h4 : y.wait = .none := by rw [← hy]; split <;> rfl
  have h5 : y.vary = (f.nd || (getThread s t th).vary) := by rw [← hy]; split <;> simp [Thread.advance, *]
  have h6 : y.channel = (getThread s t th).channel := by rw [← hy]; split <;> simp [Thread.advance]
  have h7 : y.locked = (getThread s t th).locked := by rw [← hy]; split <;> simp [Thread.advance]
  have h8 : y.told = (getThread s t th).told := by rw [← hy]; split <;> simp [Thread.advance]
  clear hy
  refine writes_of (y := y) ?_ h1 h2 h3 h4 h5 h6 h7 h8 ?_ ?_ ?_ ?_ ?_
  · simp [getThread]
  · intro t' h; rw [getTile_counted, getTile_issued_other _ _ _ _ _ h]
  · rw [getTile_counted, getTile_issued]
  · intro th' h; simp [getThread, Sparse.get_set_other _ _ _ _ _ h]
  · exact (CountsOnly.of_eq (a := s) (b := issued s t th y) rfl rfl).trans (counted_counts _ _ _ _ hc)
  · rw [counted_rest]; rfl

end Machine
end Sys2Proof
end

