-- ==== Sys2Proof/WellFormed.lean ====
section
/-!
DEFINITION. Sys2Proof/WellFormed.lean: the ranges of the operands: a unit number the package has (R10 to R12, R43), a
field of the width its message or register gives it. A list, a byte string and a number of the model's own (a request's,
a message's) have no range.
-/
namespace Sys2Proof

/-- An agent number (R43). -/
def okAgent (n : Nat) : Bool :=
  n < 0x4C || (0x50 ≤ n && n ≤ 0x71)

/-- A tile, T00 to T63 (R43). -/
def okTile (n : Nat) : Bool := n < 64

/-- A thread, TH0 to TH7 (R179). -/
def okThread (n : Nat) : Bool := n < 8

/-- A cell of a tile (R200). -/
def okCell (n : Nat) : Bool := n < 16

/-- A hub or a quadrant (R43). -/
def okHub (n : Nat) : Bool := n < 4

/-- A target of the interrupt controller, one for each control-core pair (R592). -/
def okTarget (n : Nat) : Bool := n < 8

/-- A pool of a hub: 0 HBM, 1 SRAM (R328). -/
def okPool (n : Nat) : Bool := n < 2

/-- An optical port, 4k + p (R441). -/
def okPort (n : Nat) : Bool := n < 32

/-- An optical engine (R441). -/
def okEngine (n : Nat) : Bool := n < 8

/-- A physical lane or laser channel of the package, 18k + j (R12). -/
def okPhysLane (n : Nat) : Bool := n < 144

/-- A lane of an engine (R12). -/
def okEngLane (n : Nat) : Bool := n < 18

/-- A codec lane of a hub (R298). -/
def okCodecLane (n : Nat) : Bool := n < 16

/-- A text lane of a hub, one of four (R370). -/
def okTextLane (n : Nat) : Bool := n < 4

/-- A DMA channel of a hub, one of 64 (R350). -/
def okDmaCh (n : Nat) : Bool := n < 64

/-- A grammar queue of a hub (R375). -/
def okQueue (n : Nat) : Bool := n < 64

/-- A pool owner (R337). -/
def okOwner (n : Nat) : Bool := n < 256

/-- An open superblock's stream (R403). -/
def okStream (n : Nat) : Bool := n < 5

/-- A path of a connection (R493). -/
def okPath (n : Nat) : Bool := n < 4

/-- A sync object of a tile (R45). -/
def okObj (n : Nat) : Bool := n < 4096

/-- An access level with a session of its own (R65). -/
def okLevel (n : Nat) : Bool := n < 4

/-- A ring: PCIe rings by number, fabric rings at 1024 + number (R415, R426). -/
def okRing (n : Nat) : Bool := n < 64 || (1024 ≤ n && n < 2048)

/-- A package address (R37). -/
def okAddr (n : Nat) : Bool := n < 2 ^ 48

/-- The size of a register access (R16). -/
def okSize (n : Nat) : Bool := n = 1 || n = 2 || n = 4 || n = 8

/-- A field of 8 bits. -/
def ok8 (n : Nat) : Bool := n < 2 ^ 8

/-- A field of 16 bits. -/
def ok16 (n : Nat) : Bool := n < 2 ^ 16

/-- A field of 24 bits. -/
def ok24 (n : Nat) : Bool := n < 2 ^ 24

/-- A field of 32 bits. -/
def ok32 (n : Nat) : Bool := n < 2 ^ 32

/-- A field of 48 bits. -/
def ok48 (n : Nat) : Bool := n < 2 ^ 48

/-- A field of 64 bits. -/
def ok64 (n : Nat) : Bool := n < 2 ^ 64

/-- A temperature as a signed 16-bit number of sixteenths of a degree. -/
def okTemp (n : Int) : Bool := -2 ^ 15 ≤ n && n < 2 ^ 15

/-- The fields of a Reel instruction (R183 to R185). -/
def okFields (f : RFields) : Bool :=
  f.sd < 32 && f.sa < 32 && f.sb < 32 && ok8 f.func && ok32 f.imm

/-- A dictionary message (R74, R89). -/
def okMsg (m : DictMsg) : Bool :=
  m.path < 5 && ok16 m.addr && ok8 m.flags && ok32 m.seq && ok32 m.session && ok16 m.index && ok8 m.sub && ok8 m.rsv

/-- Every message of a list is well formed. -/
def okMsgs : List DictMsg → Bool
  | [] => true
  | m :: ms => okMsg m && okMsgs ms


/-- Is the command well formed: does every operand fit the place the spec gives it? -/
def Instr.wellFormed : Instr → Bool
  | .cellSelfCheckFail tile cell => okTile tile && okCell cell
  | .stepLatchFire tile obj => okTile tile && okObj obj
  | .pkgFenceStart agent => okAgent agent
  | .pkgFenceDone agent => okAgent agent
  | .remoteFenceComplete tile _ => okTile tile
  | .flaggedWriteIssue id => ok64 id
  | .regWrite agent addr size value => okAgent agent && okAddr addr && okSize size && ok64 value
  | .dictRead m => okMsg m
  | .dictWrite m rivals => okMsg m && okMsgs rivals
  | .readNext m => okMsg m
  | .writeNext m => okMsg m
  | .describe m => okMsg m
  | .hello m => okMsg m
  | .proof m => okMsg m
  | .close m => okMsg m
  | .dictStoreComplete key _ => ok24 key
  | .domainHoldTimeout key => ok24 key
  | .sessionIdleTimeout sid => ok32 sid
  | .helloLapse sid => ok32 sid
  | .authLockoutEnd level => okLevel level
  | .mbxGo value => ok64 value
  | .keySlotWrite m => okMsg m
  | .restoreDefaults m => okMsg m
  | .timingPacket src _ => ok16 src
  | .stepInEdge => true
  | .stepInCodedWord word => ok64 word
  | .srcLost src => ok16 src
  | .holdoverWarn => true
  | .slewDone => true
  | .hardJump => true
  | .windowOpen idx target => ok16 idx && ok48 target
  | .windowClose idx target => ok16 idx && ok48 target
  | .commitDeadline idx target => ok16 idx && ok48 target
  | .transferAdmit tile thread idx target => okTile tile && okThread thread && ok16 idx && ok48 target
  | .lateSubstStart target => ok48 target
  | .startTimeout => true
  | .jobLoad _ _ _ _ => true
  | .auditLoad _ _ _ _ => true
  | .auditComplete => true
  | .jobStop _ => true
  | .drainComplete => true
  | .jobUnload _ => true
  | .slotWriteIssue id => ok64 id
  | .bufferRelease rank step => ok16 rank && ok48 step
  | .creditWrite rank word => ok16 rank && ok64 word
  | .creditStall rank => ok16 rank
  | .slotDoneReceive src _ => ok16 src
  | .commitIssue step rank => ok48 step && ok16 rank
  | .sealIssue step rank => ok48 step && ok16 rank
  | .cancelReceive src _ => ok16 src
  | .cancelAckReceive src _ => ok16 src
  | .nop tile thread f => okTile tile && okThread thread && okFields f
  | .add tile thread f => okTile tile && okThread thread && okFields f
  | .sub tile thread f => okTile tile && okThread thread && okFields f
  | .and tile thread f => okTile tile && okThread thread && okFields f
  | .or tile thread f => okTile tile && okThread thread && okFields f
  | .xor tile thread f => okTile tile && okThread thread && okFields f
  | .shl tile thread f => okTile tile && okThread thread && okFields f
  | .shr tile thread f => okTile tile && okThread thread && okFields f
  | .sar tile thread f => okTile tile && okThread thread && okFields f
  | .mul tile thread f => okTile tile && okThread thread && okFields f
  | .mulhu tile thread f => okTile tile && okThread thread && okFields f
  | .divu tile thread f => okTile tile && okThread thread && okFields f
  | .remu tile thread f => okTile tile && okThread thread && okFields f
  | .sltu tile thread f => okTile tile && okThread thread && okFields f
  | .slt tile thread f => okTile tile && okThread thread && okFields f
  | .minu tile thread f => okTile tile && okThread thread && okFields f
  | .maxu tile thread f => okTile tile && okThread thread && okFields f
  | .lui tile thread f => okTile tile && okThread thread && okFields f
  | .rdtimeCycle tile thread f => okTile tile && okThread thread && okFields f
  | .rdtimePav tile thread f => okTile tile && okThread thread && okFields f
  | .rdtimeTile tile thread f => okTile tile && okThread thread && okFields f
  | .rdtimeChannel tile thread f => okTile tile && okThread thread && okFields f
  | .ld tile thread f => okTile tile && okThread thread && okFields f
  | .st tile thread f => okTile tile && okThread thread && okFields f
  | .beq tile thread f => okTile tile && okThread thread && okFields f
  | .bne tile thread f => okTile tile && okThread thread && okFields f
  | .blt tile thread f => okTile tile && okThread thread && okFields f
  | .bge tile thread f => okTile tile && okThread thread && okFields f
  | .bltu tile thread f => okTile tile && okThread thread && okFields f
  | .bgeu tile thread f => okTile tile && okThread thread && okFields f
  | .jal tile thread f => okTile tile && okThread thread && okFields f
  | .jalr tile thread f => okTile tile && okThread thread && okFields f
  | .halt tile thread f => okTile tile && okThread thread && okFields f
  | .sadd tile thread f => okTile tile && okThread thread && okFields f
  | .saddLimit tile thread f => okTile tile && okThread thread && okFields f
  | .swait tile thread f => okTile tile && okThread thread && okFields f
  | .sset tile thread f => okTile tile && okThread thread && okFields f
  | .sclr tile thread f => okTile tile && okThread thread && okFields f
  | .stake tile thread f => okTile tile && okThread thread && okFields f
  | .stakeTry tile thread f => okTile tile && okThread thread && okFields f
  | .sgive tile thread f => okTile tile && okThread thread && okFields f
  | .sarrive tile thread f => okTile tile && okThread thread && okFields f
  | .sarm tile thread f => okTile tile && okThread thread && okFields f
  | .sread tile thread f => okTile tile && okThread thread && okFields f
  | .remoteTakeRetry tile thread => okTile tile && okThread thread
  | .wopen tile thread f => okTile tile && okThread thread && okFields f
  | .disp tile thread f => okTile tile && okThread thread && okFields f
  | .dispatchItemStart tile cell => okTile tile && okCell cell
  | .itemFinish tile cell => okTile tile && okCell cell
  | .fetch tile thread f => okTile tile && okThread thread && okFields f
  | .fetchCached tile thread f => okTile tile && okThread thread && okFields f
  | .fetchFirst tile thread f => okTile tile && okThread thread && okFields f
  | .flashFetchAdmit tile _ => okTile tile
  | .fetchComplete tile _ _ => okTile tile
  | .place tile thread f => okTile tile && okThread thread && okFields f
  | .cotillionPack tile _ => okTile tile
  | .note tile thread f => okTile tile && okThread thread && okFields f
  | .quar tile thread f => okTile tile && okThread thread && okFields f
  | .cfill tile thread f => okTile tile && okThread thread && okFields f
  | .cfillCopyDone tile _ => okTile tile
  | .fenceCell tile thread f => okTile tile && okThread thread && okFields f
  | .fenceTile tile thread f => okTile tile && okThread thread && okFields f
  | .fencePackage tile thread f => okTile tile && okThread thread && okFields f
  | .fenceRemote tile thread f => okTile tile && okThread thread && okFields f
  | .subst tile thread f => okTile tile && okThread thread && okFields f
  | .dedup tile thread f => okTile tile && okThread thread && okFields f
  | .vclr tile thread f => okTile tile && okThread thread && okFields f
  | .tileHwFault tile thread cause arg => okTile tile && okThread thread && ok8 cause && ok48 arg
  | .reelStart agent tile => okAgent agent && okTile tile
  | .reelHalt agent tile => okAgent agent && okTile tile
  | .reelUnload agent tile => okAgent agent && okTile tile
  | .tileReset agent tile => okAgent agent && okTile tile
  | .reelQuarantine agent tile => okAgent agent && okTile tile
  | .reelPendingApply tile => okTile tile
  | .tileHalted tile => okTile tile
  | .reelUnloadDone tile => okTile tile
  | .gateItem tile cell => okTile tile && okCell cell
  | .jpegDecodeItem tile cell => okTile tile && okCell cell
  | .idct8Item tile cell => okTile tile && okCell cell
  | .cconvItem tile cell => okTile tile && okCell cell
  | .cropResizeItem tile cell => okTile tile && okCell cell
  | .randCropItem tile cell => okTile tile && okCell cell
  | .flipRotItem tile cell => okTile tile && okCell cell
  | .photoItem tile cell => okTile tile && okCell cell
  | .noiseItem tile cell => okTile tile && okCell cell
  | .rangeProjItem tile cell => okTile tile && okCell cell
  | .voxelItem tile cell => okTile tile && okCell cell
  | .normItem tile cell => okTile tile && okCell cell
  | .checkItem tile cell => okTile tile && okCell cell
  | .cdcSubmit agent hub addr => okAgent agent && okHub hub && okAddr addr
  | .codecCompress hub lane => okHub hub && okCodecLane lane
  | .codecDecompress hub lane => okHub hub && okCodecLane lane
  | .codecJobEnd hub lane => okHub hub && okCodecLane lane
  | .hitStageRelease tile _ => okTile tile
  | .hitDecodeDone hub lane => okHub hub && okCodecLane lane
  | .poolTake agent hub pool owner => okAgent agent && okHub hub && okPool pool && okOwner owner
  | .poolGrant hub pool => okHub hub && okPool pool
  | .poolGive agent hub pool owner addr => okAgent agent && okHub hub && okPool pool && okOwner owner && okAddr addr
  | .poolShare hub pool owner addr newOwner => okHub hub && okPool pool && okOwner owner && okAddr addr && okOwner newOwner
  | .poolAuditRead => true
  | .dmaStart agent hub channel => okAgent agent && okHub hub && okDmaCh channel
  | .dmaAbort agent hub channel => okAgent agent && okHub hub && okDmaCh channel
  | .dmaEnable agent hub channel => okAgent agent && okHub hub && okDmaCh channel
  | .dmaDisable agent hub channel => okAgent agent && okHub hub && okDmaCh channel
  | .dmaShutdownDone hub channel => okHub hub && okDmaCh channel
  | .dmaMoverGrant hub => okHub hub
  | .dmaPacePoll hub channel => okHub hub && okDmaCh channel
  | .dmaBusError hub channel addr => okHub hub && okDmaCh channel && okAddr addr
  | .dmaDescEnd hub channel => okHub hub && okDmaCh channel
  | .vocabLoad _ => true
  | .machineLoad machine _ => ok16 machine
  | .txtSubmit agent hub addr => okAgent agent && okHub hub && okAddr addr
  | .tokenise hub lane => okHub hub && okTextLane lane
  | .detokenise hub lane => okHub hub && okTextLane lane
  | .validate hub lane => okHub hub && okTextLane lane
  | .textJobEnd hub lane => okHub hub && okTextLane lane
  | .grammarTailWrite hub queue value _ => okHub hub && okQueue queue && ok64 value
  | .grammarOpen hub => okHub hub
  | .grammarAdvance hub => okHub hub
  | .grammarClose hub => okHub hub
  | .ctxIdleTimeout hub ctx => okHub hub && ok16 ctx
  | .channelTraining channel _ _ => ok8 channel
  | .wordlineProgramDone stream => okStream stream
  | .fuaPadTimeout stream => okStream stream
  | .journalRecordDurable => true
  | .mapCacheMiss _ => true
  | .mapWriteback _ => true
  | .checkpoint => true
  | .mount => true
  | .gcStart => true
  | .gcMove => true
  | .blockFail _ _ => true
  | .parityContribution member _ _ _ _ _ => ok16 member
  | .codewordRebuild _ position _ => ok8 position
  | .healthUpdate temp => okTemp temp
  | .ringEnable agent ring _ => okAgent agent && okRing ring
  | .ringDisable agent ring _ => okAgent agent && okRing ring
  | .ringShutdownDone ring => okRing ring
  | .ringRestart agent ring => okAgent agent && okRing ring
  | .ringRestartDiscard agent ring => okAgent agent && okRing ring
  | .sqTailDoorbell agent ring index => okAgent agent && okRing ring && ok16 index
  | .cqHeadDoorbell agent ring index => okAgent agent && okRing ring && ok16 index
  | .sqFetch ring _ => okRing ring
  | .cmdComplete ring _ _ _ => okRing ring
  | .cmdNop ring _ => okRing ring
  | .cmdRead ring _ _ _ _ => okRing ring
  | .cmdWrite ring _ _ _ _ _ => okRing ring
  | .cmdDiscard ring _ => okRing ring
  | .secureDiscard ring _ => okRing ring
  | .cmdFlush ring _ => okRing ring
  | .versionSeal ring _ => okRing ring
  | .versionRelease ring _ => okRing ring
  | .flr => true
  | .perstN => true
  | .fabricRingOpen src _ => ok16 src
  | .fabricRingSubmit src _ => ok16 src
  | .fabricRingData src _ => ok16 src
  | .fabricRingClose src _ => ok16 src
  | .fabricRingRestart sid value => ok32 sid && ok64 value
  | .lpHoldPoint => true
  | .portEnable agent port => okAgent agent && okPort port
  | .portDisable agent port => okAgent agent && okPort port
  | .portRetrain agent port => okAgent agent && okPort port
  | .portRampDone port => okPort port
  | .synthLock port => okPort port
  | .portAcquired port => okPort port
  | .portLockLost port lanes _ => okPort port && ok8 lanes
  | .portFaultTimeout port => okPort port
  | .portStopDone port => okPort port
  | .txCommand port _ => okPort port
  | .laneMonitorUpdate lane _ _ _ _ => okPhysLane lane
  | .laneTrendFit lane => okPhysLane lane
  | .laneSwap agent engine lane target => okAgent agent && okEngine engine && okEngLane lane && okEngLane target
  | .laneReturn agent engine lane target => okAgent agent && okEngine engine && okEngLane lane && okEngLane target
  | .laneRetireCmd agent engine lane => okAgent agent && okEngine engine && okEngLane lane
  | .swapMarkerAgree engine => okEngine engine
  | .swapPartnerTimeout engine => okEngine engine
  | .returnSoakEnd engine => okEngine engine
  | .laserOn agent channel => okAgent agent && okPhysLane channel
  | .laserOff agent channel => okAgent agent && okPhysLane channel
  | .laserRampStep channel _ => okPhysLane channel
  | .laserShort channel => okPhysLane channel
  | .railRecover rail => ok8 rail
  | .railFailTimeout rail => ok8 rail
  | .coreReset hub => okHub hub
  | .oeIdlePowerOff engine => okEngine engine
  | .frameReceive port _ => okPort port
  | .egressSend port => okPort port
  | .linkAck port lseq _ => okPort port && ok16 lseq
  | .linkNak port lseq _ => okPort port && ok16 lseq
  | .linkCredit port _ => okPort port
  | .linkReplayTimeout port => okPort port
  | .linkAckTimer port => okPort port
  | .helloSend port => okPort port
  | .helloReceive port _ => okPort port
  | .neighbourLost port => okPort port
  | .addrReqSend => true
  | .addrReqReceive port src _ => okPort port && ok16 src
  | .addrAssignReceive _ => true
  | .addrRefuseReceive _ => true
  | .addrRetry => true
  | .addrMasterTimeout => true
  | .lsaReceive port _ => okPort port
  | .lsaPeriodic => true
  | .cableMapWrite _ => true
  | .routeTableWrite _ => true
  | .policerWrite _ => true
  | .shaperWrite _ => true
  | .offsetExchange peer => ok16 peer
  | .offsetReqReceive src _ => ok16 src
  | .offsetRespReceive src _ => ok16 src
  | .fanoutPortAck _ index _ => ok16 index
  | .roceAckReceive conn path psn => ok16 conn && okPath path && ok24 psn
  | .roceNakReceive conn path psn syndrome => ok16 conn && okPath path && ok24 psn && ok8 syndrome
  | .roceAckTimeout conn path => ok16 conn && okPath path
  | .pathHoldTimeout conn path => ok16 conn && okPath path
  | .connRearm conn path => ok16 conn && okPath path
  | .connTableWrite _ => true
  | .grantsWrite _ => true
  | .reuseHoldExpire _ => true
  | .ethFrameReceive port _ _ => okPort port
  | .pfcReceive port mask quanta => okPort port && ok8 mask && ok16 quanta
  | .pfcPauseExpire port => okPort port
  | .pfcXoffRepeat port _ => okPort port
  | .pfcStorm port => okPort port
  | .inboundWrite conn path psn opcode key addr dlen _ => ok16 conn && okPath path && ok24 psn && ok8 opcode && ok32 key && okAddr addr && ok32 dlen
  | .srWriteReceive src _ => ok16 src
  | .srSackReceive src _ => ok16 src
  | .srAckTimeout conn => ok16 conn
  | .srSackTimer conn => ok16 conn
  | .heartbeatSend => true
  | .heartbeatMiss role => ok16 role
  | .selfFence => true
  | .recoveryResend => true
  | .faultReceive src _ => ok16 src
  | .roleReqReceive src _ => ok16 src
  | .roleAckReceive src _ => ok16 src
  | .rollbackReceive src _ => ok16 src
  | .sealMarkReceive src _ => ok16 src
  | .rollbackRestart => true
  | .sealIntentReceive src _ => ok16 src
  | .intentAckReceive src _ => ok16 src
  | .mirrorReceive src _ => ok16 src
  | .rebuildDone => true
  | .stragglerDetect role => ok16 role
  | .swapBoundary => true
  | .roleCmd value => ok64 value
  | .recoverySlackEval => true
  | .slotDoneHoldRelease index => ok16 index
  | .canaryTick tile _ _ => okTile tile
  | .hubCanary hub unit _ => okHub hub && ok16 unit
  | .safetyReaction mode unitKind unit rank detail _ => ok8 mode && ok8 unitKind && ok16 unit && ok16 rank && ok64 detail
  | .commitWatchdog step rank => ok48 step && ok16 rank
  | .sealHoldRelease => true
  | .hub0WatchdogExpire => true
  | .sealGateTimeout hub => okHub hub
  | .safetyHeartbeat => true
  | .safeTest value => ok64 value
  | .sleepCmd value => ok64 value
  | .sleepStageDone _ => true
  | .wakeN _ => true
  | .wakeDatagram udpPort _ => ok16 udpPort
  | .quadOp quad value => okHub quad && ok64 value
  | .pllRelockDone quad => okHub quad
  | .avsAck rail mv => ok8 rail && ok16 mv
  | .avsAckTimeout rail => ok8 rail
  | .tempWarn temp => okTemp temp
  | .tempTrip temp => okTemp temp
  | .ageingSample _ => true
  | .replan _ => true
  | .replanNow value => ok64 value
  | .fwBlock sid _ => ok32 sid
  | .fwVerifyDone => true
  | .fwActivate value => ok64 value
  | .loaderRun => true
  | .firstStart _ => true
  | .fwConfirm value => ok64 value
  | .intSourceEdge id => ok16 id
  | .intClaim target => okTarget target
  | .intComplete agent target id => okAgent agent && okTarget target && ok16 id
  | .intSwi agent target mask => okAgent agent && okTarget target && ok32 mask
  | .intTimer target => okTarget target
  | .intTargetWrite agent id target => okAgent agent && ok16 id && okTarget target
  | .addrerrRead agent hub => okAgent agent && okHub hub
  | .countEnable value => ok64 value
  | .countSnapshot => true
  | .wfgNow value => ok64 value
  | .hangDetect tile => okTile tile
  | .wfgSecondPass => true
  | .globalStop => true
  | .stopNFall => true
  | .globalRelease => true
  | .stopNRise => true
  | .scanOutRead => true
  | .memOutRead => true
  | .tmuxSel output value sid => ok8 output && ok64 value && ok32 sid
  | .jtagExtest _ => true
  | .jtagSamplePreload _ => true
  | .jtagIdcode => true
  | .jtagClamp => true
  | .jtagHighz => true
  | .jtagStop => true
  | .jtagRelease => true
  | .jtagScan chain => ok16 chain
  | .jtagMemrd addr len => okAddr addr && ok32 len
  | .jtagUnlock _ => true
  | .jtagStatus => true
  | .jtagBypass opcode _ => ok8 opcode
  | .testLogicReset => true
  | .resetN _ => true
  | .powerUpStep => true
  | .pgTimeout => true
  | .seqRetry => true
  | .powerDownStep => true
  | .pgFallActive group => ok8 group
  | .powerOnReset => true
  | .cancelAckTimeout => true
  | .blockEraseDone _ => true
  | .pcieLinkChange _ _ _ => true
  | .synthLockLost port => okPort port
  | .partnerLaneControl port op lane => okPort port && ok8 op && okEngLane lane

end Sys2Proof
end

