-- ==== Sys2Proof/Tests/Slice0.lean ====
section
/-!
SUPPORT. Sys2Proof/Tests/Slice0.lean: that the premises of every statement can be met, at the boundary values of their
ranges; that WellFormed refuses an ill-formed operand of each kind; and values the spec's tables give.
-/
namespace Sys2Proof
namespace Tests

set_option Elab.async false

open Machine

/-- A state with nothing waiting. -/
def st (m : M8) : State := { m := m }

/-- Tiles 62 and 63 running: thread 7 of T63 is step-locked and ready, thread 0 free and ready, thread 1 and thread 0 of T62
wait for units of semaphores; one sync object of each kind. -/
def running : State := { m := { ({} : M8) with
  tiles := [
    (62, { st := .running, threads := [(0, { tstate := .waitObj, wait := .take (63 * 4096 + 6) })] }),
    (63, { st := .running, ilen := 32768, rfences := [{ seq := 1, notify := [63 * 4096 + 1] }],
           threads := [(0, { tstate := .ready }), (1, { tstate := .waitObj, wait := .take (63 * 4096 + 3) }),
             (7, { tstate := .ready, locked := true, pc := 8, regs := [(1, 3), (31, 63 * 4096)] })] })],
  sync := [(63 * 4096 + 1, { kind := 1, limit := 1 }), (63 * 4096 + 2, { kind := 2 }), (63 * 4096 + 3, { kind := 3, limit := 1 }),
    (63 * 4096 + 4, { kind := 4, limit := 1 }), (63 * 4096 + 5, { kind := 5 }), (63 * 4096 + 6, { kind := 3, limit := 1, value := 1 }),
    (63 * 4096 + 8, { kind := 5, value := 65536 })] } }

/-- The remote-fence table of T63 full. -/
def fullFences (s : State) : State := { s with m := modTile s.m 63 fun x => { x with
  rfences := List.replicate 1023 ({ seq := 2 } : RFence) ++ [{ seq := 65535 }] } }

/-! StepExecutesTheFrontCommand -/

theorem test_premises_idle : State.reset.pending = [] ∧ State.reset.m.clk.eighths < 8 ∧ State.reset.m.clk.now < 2 ^ 64 := by decide

/-! CommandsLeaveTheQueueAlone -/

theorem test_premises_queue : ∃ u, exec (.nop 0 0 {}) State.reset = .next u := ⟨_, rfl⟩

/-! StepsKeepMemoryCanonical -/

theorem test_premises_invariant : State.Inv State.reset ∧ (∃ u, step State.reset = .next u) :=
  ⟨by unfold State.Inv; decide, ⟨_, rfl⟩⟩

/-! StopFreezesAllButTheAlwaysOnPart -/

theorem test_premises_frozen : Instr.alwaysOn (.nop 0 0 {}) = false ∧
    (st { ({} : M8) with dbg := { stop := true } }).m.dbg.stop = true ∧
    (st { ({} : M8) with pwr := { off := true } }).m.pwr.off = true := by decide

/-! AluInstructionsWriteTheirResult -/

theorem test_premises_alu : Issues running 63 7 := by decide

/-! DivisionWritesQuotientOrTraps -/

theorem test_premises_division : Issues running 63 7 ∧ (getThread running.m 63 7).reg 1 ≠ 0 ∧ (getThread running.m 63 7).reg 0 = 0 := by
  decide

/-! BranchesTimeReadsAndFences -/

theorem test_premises_branches : Issues running 63 7 ∧ 8 * 0 % 8 = 0 ∧ 8 * 0 < 8 * (getTile running.m 63).ilen := by decide
theorem test_premises_rdtime : Issues running 63 7 ∧ (getThread running.m 63 7).locked = true ∧ Issues running 63 0 ∧
    (getThread running.m 63 0).locked = false := by decide

/-! SyncOperationsUpdateTheObject -/

/-- Sync object references of tile 63: kinds 1 to 5 at objects 1 to 4,031, and the firmware's first. -/
theorem test_premises_sync : Issues running 63 7 ∧
    (∀ k ∈ [1, 2, 4, 5], (getSync running.m (63 * 4096 + k)).kind = k) ∧ (63 * 4096 + 4031) % 4096 < 4032 ∧
    (getSync running.m (63 * 4096 + 4031)).kind = 0 ∧ 4032 ≤ (63 * 4096 + 4032) % 4096 ∧
    ((getThread running.m 63 7).reg 31 + (BitVec.ofNat 32 5).signExtend 64).toNat % 2 ^ 18 = 63 * 4096 + 5 := by decide

/-! WaitsTakesAndStepLatches -/

theorem test_premises_waits : Issues running 63 7 ∧ (getSync running.m (63 * 4096 + 3)).kind = 3 ∧
    (getSync running.m (63 * 4096 + 3)).value = 0 ∧ (getThread running.m 63 1).wait = .take (63 * 4096 + 3) ∧
    (getThread running.m 62 0).wait = .take (63 * 4096 + 6) ∧ (getSync running.m (63 * 4096 + 6)).value = 1 ∧
    (getTile running.m 62).st = .running ∧ (getSync running.m (63 * 4096 + 3)).limit = 1 ∧
    (getSync running.m (63 * 4096 + 6)).limit = 1 := by decide
theorem test_premises_latch : running.awake ∧ (getSync running.m (63 * 4096 + 5)).fired = false ∧
    (getSync running.m (63 * 4096 + 5)).value ≤ running.m.pav.tb ∧ running.m.pav.tb < (getSync running.m (63 * 4096 + 8)).value := by decide

/-! RemoteFencesIssueAndComplete -/

theorem test_premises_fence : Issues running 63 7 ∧ ownCounter running.m 63 (63 * 4096 + 1) = true ∧
    ownCounter running.m 63 (63 * 4096 + 3) = false ∧ (getTile running.m 63).rfences.length < 1024 ∧
    (getTile running.m 63).rfences.head? = some { seq := 1, notify := [63 * 4096 + 1] } ∧
    Issues (fullFences running) 63 7 := by decide
theorem test_premises_full_fences :
    (getTile (fullFences running).m 63).rfences = List.replicate 1023 ({ seq := 2 } : RFence) ++ [{ seq := 65535 }] := rfl

/-! LoadsReadMemoryAndRegisters -/

/-- The register that holds an address, for a load of thread 7 of T63. -/
def aims (a : Nat) : State := { running with m := setThread running.m 63 7 { getThread running.m 63 7 with regs := [(2, BitVec.ofNat 64 a)] } }

theorem test_premises_loads : Issues (aims 0x020000000000) 63 7 ∧ waitsInPool (aims 0).m 63 7 = false ∧
    localToPkg 63 0x020000000000 = some 0x020000000000 ∧ reserved 0x020000000000 = false ∧ reserved 0x020000FC0000 = true ∧
    unitOff (aims 0).m 0x020000000000 = false ∧ readMem (aims 0).m 0x020000000000 8 = some (zeros 8) ∧
    localToPkg 63 (2 ^ 48) = none ∧ spaceSee (aims 0).m 63 0x020040000000 8 = .hole ∧ takeAt 0x020040000000 = none := by decide +kernel
theorem test_premises_load_plain : readEffect (aims 0).m 0x0300003F0008 8 = (aims 0).m := by
  unfold readEffect; simp
theorem test_premises_load_register : ∃ v, spaceSee (aims 0).m 63 0x0300003F0008 8 = .val v := ⟨_, rfl⟩

/-! StoresWriteExactlyTheirBytes -/

theorem test_premises_stores : Issues (aims 0x020000000000) 63 7 ∧ (getThread (aims 0).m 63 7).wait = .none ∧ (getThread (aims 0).m 0 7).wait ≠ .take 1 ∧ localToPkg 63 0x020000000000 = some 0x020000000000 ∧
    reserved 0x020000000000 = false ∧ inMem 0x020000000000 8 = true ∧ unitOff (aims 0).m 0x020000000000 = false ∧
    tailsTouched 0x020000000000 8 = none ∧ inPoolTables (aims 0).m 0x020000000000 = false ∧ syncAt 0x020200000010 = some 1 ∧
    reserved 0x020200000010 = false ∧ programLoaded (aims 0).m 0 = false ∧ syncAt 0x0202003F0010 = some (63 * 4096 + 1) ∧
    reserved 0x0202003F0010 = false ∧ programLoaded (aims 0).m 63 = true ∧ unitOff (aims 0).m 0x020200000010 = false := by
  decide +kernel

/-! AgentsWriteTheAddressSpace -/

theorem test_premises_writes : running.awake ∧ unitOff running.m 0x020000000000 = false ∧ inMem 0x020000000000 8 = true ∧
    inMem 0x030004000040 8 = false ∧ unitOff running.m 0x030004000040 = false ∧ inMem 0x020040000000 4 = false ∧
    accessOk 0x020040000000 4 = true ∧ syncAt 0x020040000000 = none ∧ regGranule running.m 0x41 0x020040000000 = .hole ∧
    isCore 0x3F = false ∧ unitOff running.m 0x0300003F0000 = false := by decide +kernel
theorem test_premises_fences : ({ ({} : M8) with fences := [(0x47, true)] } : M8).fences.get false 0x47 = true ∧ isCore 0x47 = true := by
  decide

/-! ReelControlMovesTheTileState -/

/-- Tile 63 in a state, with no action in progress. -/
def tileIn (st : TileSt) : State := { m := setTile {} 63 { st := st, initThreads := [zeros 16] } }

theorem test_premises_control : (tileIn .loaded).awake ∧ isCore 0x47 = true ∧ isCore 0x48 = false ∧
    (∀ st : TileSt, st ∈ [TileSt.loaded, .running, .halted, .trapped, .quarantined] →
      (getTile (tileIn st).m 63).st = st ∧ (getTile (tileIn st).m 63).busy = none) ∧
    reelAllowed .start .running = false ∧ (getTile (setTile {} 63 { busy := some .halt }) 63).busy ≠ none ∧
    (getTile (setTile {} 63 { pendingAct := some .halt }) 63).pendingAct = some .halt := by decide +kernel
theorem test_premises_fences_itself : jobLoaded (odSet { ({} : M8) with grp := { own := [3] } } Od.JOB_STATE 3) = true := by decide +kernel

/-! TilesHaltUnloadAndFail -/

theorem test_premises_halting : (tileIn .running).awake ∧ (getTile (tileIn .running).m 63).dispQ = [] ∧
    (getTile (tileIn .running).m 63).cells = [] ∧ (getTile (tileIn .running).m 63).reqQ = [] ∧
    (getTile (setTile {} 63 { st := .running, busy := some .halt }) 63).busy = some .halt ∧
    (getTile (setTile {} 63 { st := .halted, busy := some .unload }) 63).busy = some .unload ∧
    (getTile (tileIn .running).m 63).retired.testBit 15 = false ∧ popcount 16 (2 ^ 14) = 1 := by decide +kernel

/-! InterruptEdgesClaimsAndTimers -/

/-- Sources pending at both ends of the shared IDs, one waiting target, a private source and an elapsed timer. -/
def irqs : State := { m := { ({} : M8) with
  clk := { now := 100 },
  intc := { srcs := [(0, { pending := true, enable := true, prio := 3, target := 1 }),
              (0x18C, { pending := true, enable := true, prio := 7, target := 7, line := true })],
            tgts := [(2, { privPend := 2 ^ 34, privEn := 2 ^ 34 }), (7, { wfi := true, timecmp := 100 })] } } }

theorem test_premises_interrupts : irqs.awake ∧ (getTgt irqs.m 7).timecmp ≤ irqs.m.clk.now ∧ isCore 0x40 = true ∧ isCore 0x47 = true ∧
    bestSource irqs.m 7 = some 0x18C ∧ bestSource irqs.m 1 = some 0 ∧ bestSource irqs.m 2 = some 0x222 ∧ bestSource irqs.m 0 = none := by
  decide +kernel
theorem test_premises_addrerr : irqs.awake ∧ (3 : Nat) < 4 := by decide

/-! StepSourcesDriveTheTimebase -/

/-- A running Pavane on qualified STEP_IN with the packet source's offset known; source 1 has an old event. -/
def timed (src : Nat) (mode : Nat) : State := { m := odSet (odSet (odSet (odSet { ({} : M8) with
  clk := { now := 5000000 },
  pav := { running := true, src := src, periodFx := 1000000 * 65536, tb := 40000, edge := some 4000000, warned := false,
           pkt := { qualified := true, last := some (0, 0) }, stepin := { qualified := true, last := some (0, 0) } } }
  Od.JOB_STATE 3) Od.PAV_SRC_ENABLE 3) Od.STEPIN_MODE mode) Od.OFFSET_SRC_ADDR 7 }

/-- A timing packet of step 1, phase 0, period 1 ms, SEQ 5. -/
def stepPacket : Bytes :=
  natLe 6 1 ++ natLe 2 0 ++ natLe 8 5000000 ++ natLe 8 1000000 ++ natLe 2 5 ++ natLe 2 0 ++ natLe 4 0

theorem test_premises_sources : (timed 1 0).awake ∧ 2 ≤ jobState (timed 1 0).m ∧
    (odNat (timed 1 0).m Od.PAV_SRC_ENABLE).testBit 0 = true ∧ (odNat (timed 1 0).m Od.PAV_SRC_ENABLE).testBit 1 = true ∧
    packetOk (timed 1 0).m 7 stepPacket = true ∧ odNat (timed 1 0).m Od.OFFSET_SRC_ADDR = 7 ∧
    insideWord (timed 1 0).m ((timed 1 0).m.clk.now - odNat (timed 1 0).m Od.STEPIN_DELAY_NS) = false ∧
    insideWord (timed 2 1).m ((timed 2 1).m.clk.now - odNat (timed 2 1).m Od.STEPIN_DELAY_NS) = false ∧
    edgeTooSoon (timed 1 0).m ((timed 1 0).m.clk.now - odNat (timed 1 0).m Od.STEPIN_DELAY_NS) = false ∧
    odNat (timed 1 0).m Od.STEPIN_MODE ≠ 1 ∧ odNat (timed 2 1).m Od.STEPIN_MODE = 1 ∧
    packetOk (timed 1 0).m 8 stepPacket = true ∧
    (odNat (timed 1 0).m Od.LOSS_STEPS * 65536 - ((0 : Int) % 65536).toNat) * (timed 1 0).m.pav.periodFx ≤
      ((timed 1 0).m.clk.now - 0) * 2 ^ 32 := by decide +kernel
theorem test_premises_coded : codedOk (timed 2 1).m (2 + crc32c (natLe 12 2) * 2 ^ 96) = true := by decide +kernel
theorem test_premises_holdover : (timed 3 1).m.pav.src = 3 ∧
    odNat (odSet (timed 3 1).m Od.HOLDOVER_WARN_STEPS 0) Od.HOLDOVER_WARN_STEPS ≤ 40000 / 65536 := by decide +kernel

/-! TimebaseJumpsSlewsAndTimesOut -/

theorem test_premises_jump : ({ (timed 1 0) with m := { (timed 1 0).m with pav := { (timed 1 0).m.pav with
      tb := 65536, jump := some (0, 10000000), jumpFrom := 0 } } } : State).awake ∧ (0 : Nat) / 65536 < 65536 / 65536 := by decide +kernel
theorem test_premises_slew : (timed 1 0).m.pav.running = true ∧
    (1 : Int).natAbs ≤ 65536 * 2 ^ 48 * 5 / (8 * (timed 1 0).m.pav.periodFx) / 64 := by decide +kernel
theorem test_premises_start : jobState (odSet (odSet (timed 1 0).m Od.JOB_STATE 2) Od.START_TIMEOUT 0) = 2 ∧
    0 + odNat (odSet (odSet (timed 1 0).m Od.JOB_STATE 2) Od.START_TIMEOUT 0) Od.START_TIMEOUT * 1000000 ≤ (timed 1 0).m.clk.now := by
  decide +kernel

/-! WindowsDeadlinesAndTransfers -/

/-- A running job at step 10 of targets 5 to 20 with one owned rank of 1 slot and windows of every KIND. -/
def windowed : State := st (odSet (odSet { ({} : M8) with
  pav := { running := true, tb := 10 * 65536, periodFx := 1000000 * 65536, wins := [{ idx := 0, target := 8 }, { idx := 2, target := 12 }] },
  job := { loaded := true, members := [0xFFFF], jr := { firstStep := 5, ctrlAddr := 9, ranks := [{ slots := 1 }] }, img := { windows := [{ valid := true, openOff := 2, closeOff := 1, kind := 0 }, { valid := true, closeOff := 0, kind := 3 },
             { valid := true, openOff := 3, closeOff := 0, kind := 0 }] } },
  tiles := [(0, { st := .running, threads := [(0, { tstate := .waitWindow, wait := .window 0 6 0 4 })] })] }
  Od.JOB_STATE 3) Od.LAST_STEP 20)

theorem test_premises_windows : windowed.awake ∧ isTarget windowed.m 12 = true ∧ winRec windowed.m 0 12 = none ∧
    openPoint { valid := true, openOff := 2, closeOff := 1, kind := 0 } 12 ≤ windowed.m.pav.tb ∧
    windowOpen windowed.m 0 8 = true ∧ closePoint { valid := true, openOff := 2, closeOff := 1, kind := 0 } 8 ≤ windowed.m.pav.tb ∧
    isTarget windowed.m 10 = true ∧ closePoint { valid := true, closeOff := 0, kind := 3 } 10 ≤ windowed.m.pav.tb ∧
    windowed.m.grp.fenced = false ∧ missingSlots windowed.m 10 0 ≠ [] ∧ sealedTo windowed.m 10 0 = false := by decide +kernel
theorem test_premises_owner : ownedRanks windowed.m = [0] ∧ targetMine windowed.m 10 0 = true := by decide +kernel
/-- The same with a period of n * 2^16 ns. -/
def transferring (n : Nat) : State := { windowed with m := { windowed.m with pav := { windowed.m.pav with periodFx := n * 2 ^ 32 } } }
theorem transferring_period (n : Nat) : (transferring n).m.pav.periodFx = n * 2 ^ 32 := rfl
theorem transferring_ns (n : Nat) : transferNs (transferring n).m 0 0 = transferNs windowed.m 0 0 := by
  have h : (transferring n).m.job = windowed.m.job := rfl
  unfold transferNs
  rw [h]
theorem transferring_windows (n : Nat) : channelWindows (transferring n).m 0 0 =
    [(0, { valid := true, openOff := 2, closeOff := 1, kind := 0 }), (2, { valid := true, openOff := 3, closeOff := 0, kind := 0 })] := rfl
theorem transferring_phase (n d : Nat) : phaseNs (transferring n).m d = d * n := by
  have hs : (transferring n).m.pav.slewFx = 0 := rfl
  unfold phaseNs
  simp only [hs, transferring_period]
  rw [← Nat.mul_assoc]
  simp
theorem transferring_left (n : Nat) :
    timeLeft (transferring n).m { valid := true, openOff := 3, closeOff := 0, kind := 0 } 12 = 131072 * n := by
  unfold timeLeft
  rw [transferring_phase]
  rfl
theorem transferring_long (n : Nat) (h : transferNs windowed.m 0 0 = n) : tooLong (transferring n).m 0 0 0 = false := by
  have hd : (closePoint { valid := true, openOff := 3, closeOff := 0, kind := 0 } 0 -
      openPoint { valid := true, openOff := 3, closeOff := 0, kind := 0 } 0).toNat = 196608 := by decide
  unfold tooLong
  rw [transferring_windows]
  simp only [List.all_cons, hd, transferring_ns, transferring_period, ← Nat.mul_assoc, h, List.all_nil, Bool.and_true]
  simp
  intro _
  omega
/-- The same with a step so long that a transfer of no bytes fits. -/
def transferable : State := transferring (transferNs windowed.m 0 0)

theorem test_premises_transfer_fits : tooLong transferable.m 0 0 0 = false ∧
    transferNs transferable.m 0 0 ≤ timeLeft transferable.m { valid := true, openOff := 3, closeOff := 0, kind := 0 } 12 := by
  refine ⟨transferring_long _ rfl, ?_⟩
  unfold transferable
  rw [transferring_ns, transferring_left]
  omega
theorem test_premises_transfer_state (n : Nat) : windowOpen (transferring n).m 2 12 = true ∧
    (channelWindows (transferring n).m 0 0).all (fun iw => windowSpent (transferring n).m iw.1 iw.2 6 n) = true ∧
    olderFirst (transferring n).m { valid := true, openOff := 3, closeOff := 0, kind := 0 } 0 0 6 12 = false := ⟨rfl, rfl, rfl⟩

/-! GlobalStopsStartAndEnd -/

theorem test_premises_stops : State.reset.m.dbg.stop = false ∧
    (st { ({} : M8) with dbg := { stop := true, releasePending := true }, jtag := { unlocked := true } }).m.dbg.stopNLow = false ∧
    (st { ({} : M8) with dbg := { stop := true, stopNLow := true } }).m.dbg.stop = true := by decide

/-! JtagInstructionsSelectAndAnswer -/

theorem test_premises_jtag : (st { ({} : M8) with dbg := { stop := true }, jtag := { unlocked := true } }).m.jtag.unlocked = true ∧
    State.reset.m.jtag.unlocked = false ∧ jobLoaded State.reset.m = false := by decide +kernel
/-- A maintainer key slot that is filled, and a good nonce. -/
theorem test_premises_unlock : let s := st { odPut ({} : M8) 0x111003 (.bytes (List.replicate 32 1#8)) with jtag := { nonceGood := true } }
    s.m.jtag.nonceGood = true ∧ levelLocked s.m 2 = false ∧ (∃ b ∈ levelKey s.m 2, b ≠ 0) := by
  refine ⟨rfl, by decide +kernel, 1#8, by decide +kernel, by decide⟩

/-! CountersGraphsAndTheTestMux -/

/-- A graph may start, T63 has stood still, counters run. -/
def hung : State := st (odSet { running.m with clk := { now := 10 ^ 12 }, dbg := { countFrom := some 0 } } Od.WFG_ENABLE 1)
theorem test_premises_graphs : hung.awake ∧ odNat hung.m Od.WFG_ENABLE = 1 ∧ allHalted (getTile hung.m 63) = false ∧
    hung.m.dbg.lastProgress.get 0 63 + odNat hung.m Od.HANG_MS * 1000000 ≤ hung.m.clk.now ∧
    tmuxSignal 0 = true ∧ tmuxSignal 0xF97 = true ∧ (16 ∈ [1, 2, 4, 8, 16]) := by decide +kernel

/-! DictionaryReadsAnswer -/

/-- A session of level 3 on the management port with one DOMAIN it reads and one it writes. -/
def talking : State := { m := { ({} : M8) with dict := {
  sessions := [{ path := 4, level := 3, sid := 7, key := [1#8], seq := 65535 }],
  hellos := [{ path := 4, level := 3, sid := 9, nc := zeros 16, nd := zeros 16 }],
  holds := [{ key := 0x601300, sid := 7, isWrite := false, off := 0, staged := zeros 1025 },
            { key := 0x208000, sid := 7, isWrite := true, staged := [1#8] }] } } }

/-- A request of that session with its tag: SEQ 1 follows 65,535. -/
def request (op index sub flags : Nat) (data : Bytes) : DictMsg :=
  { path := 4, flags := flags, seq := 1, session := 7, index := index, sub := sub, data := data,
    tag := dictTag (some [1#8]) (dictHeader op flags 1 7 index sub 0 data.length ++ data) }

theorem test_serves (op index sub flags : Nat) (data : Bytes) (h : data.length ≤ 1024) (g : flags < 2) :
    Serves talking op (request op index sub flags data) { path := 4, level := 3, sid := 7, key := [1#8], seq := 65535 } := by
  refine ⟨⟨rfl, rfl⟩, by decide +kernel, by simp [request], ?_, by rfl, by rfl, by rfl⟩
  simp [formOk, request, h, g]

theorem test_premises_reads : odExists 0x6000 6 = none ∧
    (∃ e, odLookup 0x6000 6 = some e ∧ e.ty ≠ .domain ∧ readRight { level := 3 } e = none) ∧
    (∃ e, odLookup 0x6013 0 = some e ∧ e.ty = .domain ∧ readRight { level := 3 } e = none) ∧
    heldByOther talking.m 0x600006 7 = none ∧ heldByOther talking.m 0x601300 7 = none ∧ odIndexExists 1 = false ∧ odIndexExists 0x6000 = true ∧
    odLookup 0x6000 200 = none ∧ loaderRefuses talking.m 0x6000 = false := by decide +kernel
theorem test_premises_read_next :
    ∃ h, (talking.m.dict.holds.find? fun h => h.key == 0x601300 && h.sid == 7 && !h.isWrite) = some h ∧
      h.off + 1024 < h.staged.length := by decide +kernel

/-! DictionaryWritesTakeTheirValue -/

/-- The entry at a key. -/
def row (index sub : Nat) : OdEntry := (odLookup index sub).getD (odTable.headD ⟨0, 0, 0, .bool, 0, 0, .num 0, .n, .full, false⟩)

/-- The session of talking. -/
def talker : Session := { path := 4, level := 3, sid := 7, key := [1#8], seq := 65535 }

theorem test_premises_write_n : odExists 0x6000 6 = none ∧ odLookup 0x6000 6 = some (row 0x6000 6) ∧ (row 0x6000 6).persist = .n ∧
    writeRight talker (row 0x6000 6) = none ∧ lengthAbort (row 0x6000 6) 1 = none ∧ heldByOther talking.m 0x600006 7 = none ∧
    (row 0x6000 6).ty ≠ .domain ∧ writeAbort odRules (accepted talking.m talker (request 2 0x6000 6 0 [7#8])) talker (row 0x6000 6)
      0x600006 (OdVal.ofBytes (row 0x6000 6).ty [7#8]) = none := by decide +kernel
theorem test_premises_write_plain : ∀ d : M8, odEffect d talker 0x600006 (.num 7) = d := fun _ => rfl
theorem test_premises_write_y : odExists 0x1101 0 = none ∧ (row 0x1101 0).persist = .y ∧ writeRight talker (row 0x1101 0) = none ∧
    lengthAbort (row 0x1101 0) 4 = none ∧ heldByOther talking.m 0x110100 7 = none ∧
    writeAbort odRules (accepted talking.m talker (request 2 0x1101 0 0 (natLe 4 1000))) talker (row 0x1101 0)
      0x110100 (OdVal.ofBytes (row 0x1101 0).ty (natLe 4 1000)) = none := by decide +kernel
theorem test_premises_collision : losesTo (request 2 0x6000 6 0 [7#8]) { path := 0, index := 0x6000, sub := 6 } = true ∧
    rivalCounts talking.m { path := 0, index := 0x6000, sub := 6 } = true ∧
    losesTo (request 2 0x6000 6 0 [7#8]) { path := 0, index := 0x6000, sub := 5 } = false := by decide +kernel
theorem test_premises_write_next : (row 0x2080 0).ty = .domain ∧ (row 0x2080 0).persist = .y ∧ writeRight talker (row 0x2080 0) = none ∧
    (∃ h, (talking.m.dict.holds.find? fun h => h.key == 0x208000 && h.sid == 7 && h.isWrite) = some h ∧
      lengthAbort (row 0x2080 0) (h.staged ++ []).length = none) ∧ odExists 0x2080 0 = none ∧ heldByOther talking.m 0x208000 7 = none ∧
    odLookup 0x2080 0 = some (row 0x2080 0) := by decide +kernel
theorem test_premises_restore : heldByOther talking.m 0x101101 7 = none ∧ heldByOther talking.m 0x111003 7 = none ∧
    loaderRefuses talking.m 0x1011 = false ∧ (2 ≤ talker.level ∧ talker.level < 255) := by decide +kernel

/-! SessionsOpenAndClose -/

/-- talking long after. -/
def late : State := { talking with m := { talking.m with clk := { now := 5000000000 * 20 }, dict := { talking.m.dict with locks := [(1, 5)] } } }

theorem test_premises_hello : (∀ l, l ≤ 3 → pathEnabled talking.m 4 = true ∧ levelLocked talking.m l = false) ∧
    placesUsed talking.m 4 < pathPlaces talking.m 4 ∧ odNat talking.m Od.POWER_STATE ≠ 1 ∧
    formOk { path := 4, data := 3#8 :: zeros 16, tag := zeros 16 } = true ∧ leField (3#8 :: zeros 16) 0 1 ≤ 3 := by
  refine ⟨fun l h => ⟨by decide +kernel, ?_⟩, by decide +kernel, by decide +kernel, by decide +kernel, by decide +kernel⟩
  interval_cases l <;> decide +kernel
theorem test_premises_proof : ∃ h, (talking.m.dict.hellos.find? fun h => h.sid == 9 && h.path == 4) = some h := ⟨_, rfl⟩
theorem test_premises_late : late.awake ∧ (∃ h ∈ late.m.dict.hellos, h.time + 5000000000 ≤ late.m.clk.now) ∧
    (∃ h ∈ late.m.dict.holds, h.time + 1000000000 ≤ late.m.clk.now) ∧
    (∃ x ∈ late.m.dict.sessions, x.active + odNat late.m Od.IDLE_TIMEOUT * 1000000 ≤ late.m.clk.now) ∧
    Sparse.find late.m.dict.locks 1 = some 5 ∧ 5 ≤ late.m.clk.now := by decide +kernel
theorem test_premises_close : Serves talking 0x12 (request 0x12 0 0 0 []) talker := test_serves 0x12 0 0 0 [] (by decide) (by decide)

/-! MailboxSubmitsTheMessageInItsBuffer -/

/-- A READ of 32 bytes, header and tag, stands in MBX_REQ. -/
def posted (op : Byte) : State := { m := { ({} : M8) with mem := [(0x030001008800, op)] } }

theorem test_premises_mailbox : (posted 1).awake ∧ (32 * 65536 + 1).testBit 0 = true ∧ bits (32 * 65536 + 1) 31 16 = 32 ∧
    odInForce (posted 1).m Od.MBX_ENABLE = 1 ∧ (posted 1).m.mbx.busy = false ∧
    (mbxMessage (readMemOnes (posted 1).m 0x030001008800 32)).1 = 1 ∧
    (mbxMessage (readMemOnes (posted 1).m 0x030001008800 32)).2.1 = (mbxMessage (readMemOnes (posted 1).m 0x030001008800 32)).2.2.data.length ∧
    (mbxMessage (readMemOnes (posted 0x12).m 0x030001008800 32)).1 = 0x12 := by decide +kernel

/-! RingsAreEnabledStoppedAndRestarted -/

/-- Ring 63 and fabric ring 1024 in a state. -/
def ringed (x : Ring) : State := { m := setRing (setRing {} 63 x) 1024 x }

theorem test_premises_rings : (ringed {}).awake ∧ (getRing (ringed {}).m 63).st = .disabled ∧ isCore 0x40 = true ∧ isCore 0x3F = false ∧
    (∀ st : RingSt, st ∈ [RingSt.disabled, .running, .frozen, .stopping] → (getRing (ringed { st := st }).m 63).st = st ∧
      (getRing (ringed { st := st }).m 63).inflight = 0 ∧ (getRing (ringed { st := st }).m 1024).st = st) ∧
    (getRing (ringed { sqLog := 5 }).m 63).cqLog < (getRing (ringed { sqLog := 5 }).m 63).sqLog ∧
    (getRing (ringed { st := .frozen, cmds := [{ started := true }] }).m 63).inflight ≠ 0 ∧
    (getRing (ringed { st := .stopping, pendEnable := true }).m 63).pendEnable = true ∧
    ([1, 2].map fun n => ({ seq := n } : RingCmd).seq).Nodup := by decide +kernel

/-! RingCommandsAreFetchedAndWorked -/

/-- Ring 0 with one started command of an opcode, LEN 1 at LPN 0, and pages of the namespace. -/
def commanded (opc ver : Nat) : State := { m := { (setRing { ({} : M8) with fl := { held := [1, 2], openVer := 3 } } 0
  { st := .running, sqTail := 1, cmds := [{ seq := 1, started := true, entry := natLe 4 opc ++ natLe 4 ver ++ zeros 8 ++ natLe 4 1 ++ zeros 44 }] }) with
  dict := { latched := [(Od.NS_CAPACITY, .num 8192)] } } }

theorem test_premises_fetch : (getRing (commanded 0 0).m 0).st = .running ∧ (getRing (commanded 0 0).m 0).sqHead ≠ (getRing (commanded 0 0).m 0).sqTail ∧
    cqRoom (getRing (commanded 0 0).m 0) = true ∧ (commanded 0 0).m.rings.d0 = true ∧ mayStart (commanded 0 0).m = true ∧
    startedAll (commanded 0 0).m < 4096 ∧ (getRing (ringed { st := .running, sqIn := [[]] }).m 1024).sqIn = [[]] := by decide +kernel
theorem test_premises_work : (∀ opc ∈ [0x00, 0x10, 0x11, 0x12, 0x13, 0x14, 0x15, 0x16], ∃ c, Works (commanded opc 1) 0 1 opc c ∧
      c.lpn + c.len ≤ nsPages (commanded opc 1).m ∧ c.version ∈ (commanded opc 1).m.fl.held ∧ c.sgl = false ∧ c.machine = false ∧
      c.fua = false ∧ c.len = 1 ∧ pinnedMaps (commanded opc 1).m c.lpn c.len = false) ∧ (commanded 0 0).m.fl.mounted = true ∧
    (commanded 0 0).m.fl.held.length + sealsPending (commanded 0 0).m.fl < 8 ∧ 3 ∉ (commanded 0 0).m.fl.held := by
  refine ⟨fun opc h => ?_, by decide +kernel, by decide +kernel, by decide +kernel⟩
  simp only [List.mem_cons, List.not_mem_nil, or_false] at h
  rcases h with h | h | h | h | h | h | h | h <;> subst h <;>
    exact ⟨_, ⟨⟨rfl, rfl⟩, rfl, rfl, rfl, by decide +kernel⟩, by decide +kernel, by decide +kernel, by decide +kernel, by decide +kernel,
      by decide +kernel, by decide +kernel, by decide +kernel⟩
theorem test_premises_discard : (discardPieces 2 1 0 1 (commanded 0x12 0).m).2.1 = 0 ∧
    (discardPieces 3 1 0 1 (commanded 0x13 0).m).2.1 = 0 := by decide +kernel
theorem test_premises_store : (storePieces none 0 0 (pieces64 1 [zeros 4096]) (commanded 0x11 0).m).2.2.1 = 0 := by decide +kernel

/-! RingCommandsComplete -/

/-- Ring 0 with a command ready with a STATUS. -/
def readied (status : Nat) : State := ringed { st := .running, cmds := [{ seq := 1, started := true, ready := true, status := status }] }

theorem test_premises_complete : (readied 0).awake ∧ (∃ c, findCmd (getRing (readied 0).m 63) 1 = some c ∧ c.ready = true ∧ c.silent = false ∧
      errorStatus c.status = false) ∧ (∃ c, findCmd (getRing (readied 2).m 63) 1 = some c ∧ errorStatus c.status = true) ∧
    (∀ d ∈ (getRing (readied 2).m 63).cmds, d.started = true) ∧ (getRing (readied 2).m 63).st = .running ∧
    (getRing (readied 2).m 63).pendRestart = none := by decide +kernel

/-! EndpointResetsAndFabricRings -/

/-- A fabric session 5 of address 9, with its ring 1024 in a state. -/
def fabricked (x : RingSt) : State :=
  st (setRing { ({} : M8) with dict := { sessions := [{ path := 2, addr := 9, sid := 5, key := [1#8] }] } } 1024
    { st := x, sess := 5, peer := 9 })

/-- A ring frame of that session on ring 1024. -/
def ringFrame (type count : Nat) (body : Bytes) : Bytes :=
  ringHeader type count 0 0 0 ++ body ++ dictTag (some [1#8]) (ringHeader type count 0 0 0 ++ body)

theorem test_premises_fabric_frames : frameRing (fabricked .running).m 9 (ringFrame 3 1 (zeros 64)) = some 1024 ∧
    (∀ st : RingSt, st ∈ [RingSt.running, .frozen, .stopping, .disabled] → (getRing (fabricked st).m 1024).st = st) ∧
    ringFrameOk (fabricked .running).m 5 9 (ringFrame 1 0 (natLe 4 5 ++ [4#8])) = true ∧
    leField (ringFrame 1 0 (natLe 4 5 ++ [4#8])) 8 4 = 5 ∧ leField (ringFrame 1 0 (natLe 4 5 ++ [16#8])) 12 1 = 16 ∧
    (fabricOpen (fabricked .running).m).length < odInForce (fabricked .running).m Od.FABRIC_RINGS_MAX := by decide +kernel
theorem test_premises_fabric_grant :
    ∃ p, grantable (fabricked .running).m 0 0 { id := 1, owner := 3, cells := ceilDiv 64 512, chain := true } = some p :=
  Option.isSome_iff_exists.mp (by decide +kernel)
theorem test_premises_fabric_restart : (fabricked .frozen).m.rings.rings.has 1024 = true ∧ (getRing (fabricked .frozen).m 1024).sess = 5 ∧
    (getRing (fabricked .frozen).m 1024).inflight = 0 ∧ odNat (odSet (fabricked .frozen).m Od.POWER_STATE 1) Od.POWER_STATE = 1 ∧
    ringsBusy (fabricked .frozen).m = false ∧ ringsBusy (readied 0).m = true := by decide +kernel

/-! JobsLoadDrainAndUnload -/

/-- A job in a state, with nothing running. -/
def jobIn (n : Nat) : State := st (odSet { ({} : M8) with job := { loaded := true } } Od.JOB_STATE n)

theorem test_premises_jobs : Takes State.reset none 0x20 false State.reset.m ∧ loadAllowed State.reset.m = true ∧
    jobState (jobIn 3).m = 3 ∧ unloadAllowed (jobIn 5).m = true ∧ unloadAllowed (jobIn 6).m = true ∧ jobState (jobIn 4).m = 4 ∧
    drained (jobIn 4).m = true ∧ maskTiles (jobIn 4).m.job.img.tileMask = [] :=
  ⟨⟨⟨rfl, rfl⟩, .inl ⟨rfl, rfl⟩⟩, by decide +kernel, by decide +kernel, by decide +kernel, by decide +kernel, by decide +kernel,
    by decide +kernel, by decide +kernel⟩
theorem test_premises_jobs_on_a_ring : ∃ c, Works (commanded 0x20 0) 0 1 0x20 c ∧ c.audit = false :=
  ⟨_, ⟨⟨rfl, rfl⟩, rfl, rfl, rfl, by decide +kernel⟩, by decide +kernel⟩

/-- An audit of one slot, running, on tile 0. -/
def auditing (trapped : Bool) : State := st (odSet { ({} : M8) with
  job := { loaded := true, audit := true, auditRec := zeros 64, img := { tileMask := 1 }, sampleCount := 1,
           jr := { epochs := 1, batch := 1, ranks := [{ slots := 1 }] }, auditSlots := [(0, 0, false, 5, [])] },
  tiles := [(0, { trapValid := trapped, trapCause := 5 })] } Od.AUDIT_STATE 2)

theorem test_premises_audit : odNat (auditing true).m Od.AUDIT_STATE = 2 ∧ auditTrap (auditing true).m = some 5 ∧
    auditTrap (auditing false).m = none ∧ auditMode (auditing false).m ≠ 2 ∧ auditSlotsOf (auditing false).m = some [(0, 0, 0)] ∧ auditSlot (auditing false).m 0 = some (0, false, 5, []) := by decide +kernel

/-! FlashMapsWhatItsJournalMakesDurable -/

/-- Flash with a journal record of a type, ready, and a stream that programs a word line with another behind it. -/
def journaled (type : Nat) (olds : List Nat) : State := st { ({} : M8) with
  clk := { now := 10 ^ 12 },
  fl := { recs := [{ seq := 1, type := type, first := 2047, ents := [2 ^ 62 + 5], olds := olds, ready := true }], nextSeq := 2,
          map := [(2047, 3)], cache := [(0, { dirty := true, seq := 1 }), (9, {})],
          streams := [(0, { last := [.pad] }), (3, { sb := some 7 }), (4, { busy := true, prog := [.pad], last := [.record 1], wl := 734 })] } }

theorem test_premises_journal : (∀ t ∈ [1, 2, 3, 4, 5, 7], ∃ r, nextRec (journaled t []).m.fl = some r ∧ r.ready = true ∧ r.type = t ∧
      r.olds = [] ∧ r.phys 0 = some 5) ∧ (∃ r, nextRec (journaled 1 [3]).m.fl = some r ∧ r.olds = [3]) ∧
    ((journaled 1 []).m.fl.streams.get {} 4).busy = true ∧ ((journaled 1 []).m.fl.streams.get {} 0).buf = [] ∧
    ((journaled 1 []).m.fl.streams.get {} 0).last ≠ [] ∧
    0 + 1000 * odNat (journaled 1 []).m Od.FUA_PAD_US ≤ (journaled 1 []).m.clk.now ∧ checkpointDue (journaled 1 []).m = true ∧
    (∀ r ∈ (journaled 1 []).m.fl.recs, r.type = 7 → r.durable = true) ∧ ({ mounted := false } : Flash).mounted = false := by
  refine ⟨fun t h => ?_, ⟨_, rfl, rfl⟩, by decide +kernel, by decide +kernel, by decide +kernel, by decide +kernel, by decide +kernel,
    by decide +kernel, rfl⟩
  simp only [List.mem_cons, List.not_mem_nil, or_false] at h
  rcases h with h | h | h | h | h | h <;> subst h <;> exact ⟨_, rfl, rfl, rfl, rfl, by decide +kernel⟩
theorem test_premises_cache : (journaled 1 []).m.fl.cache.has 8 = false ∧ (journaled 1 []).m.fl.cache.length < cacheSlots (journaled 1 []).m ∧
    evictable (journaled 1 []).m.fl = some 9 ∧ cacheSlots (odSet { ({} : M8) with dict := { latched := [(Od.PART_MAP_CACHE, .num 0)] } } 0 0) ≤ 2 ∧
    (∃ c, (journaled 1 []).m.fl.cache.find 0 = some c ∧ c.dirty = true ∧ c.writing = false) ∧
    (takePlace (journaled 1 []).m.fl 3).1.isSome = true := by decide +kernel

/-! FlashCollectsErasesAndRetires -/

/-- Flash with a victim that holds one valid codeword, or is being erased; the member holds the role of one parity. -/
def collecting (busy : Bool) : State := st { ({} : M8) with
  clk := { now := 10 ^ 9 },
  grp := { own := [ecK {}] },
  fl := { victim := some 3, map := [(8, 3 * 2 ^ 14)], cw := [(3 * 2 ^ 14, (8, []))], streams := [(1, { sb := some 4 })],
          sbs := [(3, { st := if busy then .closed else .erasing })] } }

theorem test_premises_collection : ((validIn (collecting true).m.fl 3).find? fun e => !(movesFrom (collecting true).m.fl).contains e.2).isSome = true ∧
    (takePlace (collecting true).m.fl 1).1.isSome = true ∧ validIn (collecting true).m.fl 4 = [] ∧ pagesIn (collecting true).m.fl 4 = [] ∧
    ((collecting false).m.fl.sbs.get {} 3).st = .erasing ∧ bits (2 ^ 24 - 1) 23 17 < 128 ∧ State.reset.m.fl.victim = none ∧
    odNat State.reset.m Od.GC_LOW ≤ freeSbs State.reset.m.fl ∧ odNat State.reset.m Od.GC_HIGH ≤ freeSbs State.reset.m.fl ∧
    freeSbs State.reset.m.fl < odNat (odSet State.reset.m Od.GC_LOW 1297) Od.GC_LOW ∧
    0 + 1000000000 ≤ (collecting true).m.clk.now := by decide +kernel

/-! ParityAndRebuiltCodewords -/

theorem test_premises_parity : ((List.range (ecM (collecting true).m)).find? fun q => holdsRole (collecting true).m
      (parityMember (ecK (collecting true).m) (groupW (collecting true).m) (stripeOf (max 1 (ecK (collecting true).m))
        (max 1 (groupW (collecting true).m)) 0 0).1 q)) = some 0 ∧
    ((collecting true).m.fl.parity.get {} 0).waiting = [] ∧
    (writePiece (collecting true).m (parityLpn (ecM (collecting true).m) 0 0 0) [xorBytes (readLpn (collecting true).m.fl 0
      (parityLpn (ecM (collecting true).m) 0 0 0)) []]).isOk = true := by decide +kernel
theorem test_premises_rebuild : (collecting true).m.fl.map.find 8 = some (3 * 2 ^ 14) ∧ ([] : List Nat).length < ecK (collecting true).m := by
  decide +kernel

/-! MovementRequestsQueueInOrder -/

/-- A tile with a loaded program of one stream and one rank, thread 7 about to move data; the queue holds a PLACE or nothing. -/
def mover (place audit : Bool) : State := st (modTile (setSync (setThread { running.m with
    job := { img := { streams := [{}], layouts := [zeros 16], dedupEntries := 16 }, sampleCount := 1, audit := audit,
             jr := { ranks := [{ slots := 1 }] } } } 63 7
    { getThread running.m 63 7 with regs := [(1, BitVec.ofNat 64 (63 * 4096 + 1)), (2, 0x02003F000000)] }) (63 * 4096 + 1) { kind := 1 })
  63 fun x => { x with reqQ := if place then [{}] else [] })

theorem test_premises_movement : Issues (mover true true) 63 7 ∧ (queuedReqs (getTile (mover true true).m 63)).head? = some {} ∧
    (queuedReqs (getTile (mover true true).m 63)).length < 256 ∧
    (let y := getThread (mover true true).m 63 7
     (y.reg 2).toNat % 8 = 0 ∧ ownCounter (mover true true).m 63 (compRef y { sa := 2, sb := 1 }) = true ∧
     ownCounter (mover true true).m 63 (compRef y { sa := 2 }) = false ∧
     (cellRead (mover true true).m 63 (y.reg 2).toNat 40).toOption = some (zeros 40) ∧
     (cellRead (mover true true).m 63 (y.reg 2).toNat 32).toOption = some (zeros 32)) ∧
    fetchDescOk (mover true true).m (zeros 40) = true ∧ placeDescOk (mover true true).m (zeros 40) = true ∧
    fetchDescOk (mover true true).m (patch (zeros 40) 7 [1#8]) = false ∧ placeDescOk (mover true true).m (patch (zeros 40) 23 [1#8]) = false ∧
    queuedReqs (getTile (mover false false).m 63) = [] ∧ Issues (mover false false) 63 7 ∧ leField (zeros 40) 0 1 ≠ 1 ∧
    leField (patch (zeros 40) 0 [1#8]) 0 1 = 1 ∧ (mover false false).m.grp.fenced = false := by decide +kernel
theorem test_premises_dedup : (mover true true).m.job.audit = true ∧ (mover false false).m.job.audit = false ∧
    (mover false false).m.job.dedup.find ((leField (zeros 32) 0 8 + 0) % 16) = none ∧
    Sparse.find [(0, (zeros 32, 5))] ((leField (zeros 32) 0 8 + 0) % 16) = some (zeros 32, 5) ∧
    (∀ k < min 16 1, ∃ e, Sparse.find [(0, (zeros 31, 5))] ((leField (zeros 32) 0 8 + k) % max 1 1) = some e ∧ e.1 ≠ zeros 32) := by
  refine ⟨rfl, rfl, by decide +kernel, by decide +kernel, fun k hk => ⟨(zeros 31, 5), ?_, by decide⟩⟩
  have : k = 0 := by omega
  subst this
  decide +kernel

/-! FetchesAndFillsComplete -/

/-- One request of tile 63, in a phase. -/
def asked (p : ReqPhase) : State := st { ({} : M8) with tiles := [(63, { reqQ := [{ id := 1, kind := .fetch false false, phase := p }] })] }

theorem test_premises_fetches : (∀ p ∈ [ReqPhase.queued, .again, .flash, .copying], (asked p).awake ∧
      (findReq (asked p).m 63 1).isSome = true ∧ ∀ q ∈ queuedReqs (getTile (asked p).m 63), q.id = 1) ∧
    schedulable (asked .again).m 63 { id := 1, kind := .fetch false false, phase := .again } = true ∧
    schedulable (asked .queued).m 63 { id := 1, kind := .fetch false false } = true := by decide +kernel

/-! DispatchesRunTheirItems -/

/-- A dispatch of one NORM item, and of two, on tile 63: items waiting, or the first done on cell 15. -/
def dispatched (n : Nat) (worked : Bool) : State :=
  let d : Dispatch := { id := 1, desc := natLe 2 0x60 ++ zeros 2 ++ natLe 4 n ++ zeros 120, next := if worked then 1 else 0 }
  let cells : Sparse CellRun := if worked then [(15, { disp := 1, worked := true })] else [(14, { disp := 2 })]
  st { ({} : M8) with tiles := [(63, { st := .running, retired := 1, dispQ := [d], cells := cells })] }

theorem test_premises_dispatches : (dispatched 1 false).awake ∧ (∃ p, nextItem (getTile (dispatched 1 false).m 63) = some p) ∧
    (getTile (dispatched 1 false).m 63).cells.has 15 = false ∧ (getTile (dispatched 1 false).m 63).retired.testBit 15 = false ∧
    (getTile (dispatched 1 false).m 63).retired.testBit 0 = true ∧ (getTile (dispatched 1 false).m 63).cells.has 14 = true ∧
    (∀ n ∈ [1, 2], ((getTile (dispatched n true).m 63).dispQ.find? fun d => d.id == 1).any (fun d => d.finished + 1 = (descOf d.desc).items) =
      decide (n = 1)) ∧ (dispatched 1 true).m.job.tap = none := by
  refine ⟨⟨rfl, rfl⟩, ⟨_, rfl⟩, ?_⟩
  decide +kernel
/-- Thread 7 of T63 about to dispatch the VOXEL items that pass every check of R199. -/
def voxelDesc : Bytes := natLe 2 0x51 ++ zeros 2 ++ natLe 4 1 ++ natLe 8 0x010000000000 ++ natLe 8 0x010000100000 ++ zeros 40 ++
  natLe 8 0 ++ natLe 4 1 ++ natLe 2 1 ++ natLe 2 1 ++ natLe 1 1 ++ zeros 3 ++ natLe 8 0x010000200000 ++ zeros 12 ++ natLe 4 1 ++ natLe 4 1 ++ zeros 16

theorem test_premises_disp : (queuedReqs (getTile (mover false false).m 63)).length < 64 ∧
    (∃ b, cellRead (mover false false).m 63 0x02003F000000 128 = .ok b ∧ dispatchOk (mover false false).m 63 b = false) := by
  exact ⟨by decide +kernel, zeros 128, rfl, by decide +kernel⟩
theorem test_premises_disp_check : dispatchOk (mover false false).m 63 voxelDesc = true := by decide +kernel

/-! ItemsWriteWhatTheirPrimitiveGives -/

/-- A cell of tile 63 works on an item of a primitive whose parameters are all 0 but its addresses in HBM, or in a hole. -/
def working (p a : Nat) : State :=
  let d : Dispatch := { id := 1, desc := natLe 2 p ++ zeros 6 ++ natLe 8 a ++ natLe 8 0x010000100000 ++ zeros 8 ++ natLe 8 a ++ zeros 24 ++ zeros 64 }
  st { ({} : M8) with
    job := { img := { streams := [{ kind := 1, maxCoded := 64 }] } },
    tiles := [(63, { st := .running, cells := [(15, { disp := 1 })], dispQ := [d] })] }

theorem test_premises_items : (∀ p ∈ [0x0001, 0x0010, 0x0011, 0x0020, 0x0030, 0x0031, 0x0032, 0x0040, 0x0041, 0x0050, 0x0051, 0x0060, 0x0070],
    (itemAt (working p 0).m 63 15 p).isSome = true) ∧ itemAt (working 0x60 0).m 63 14 0x60 = none := by decide +kernel
theorem test_premises_items_write : (∀ p ∈ [(0x0020, cconvItem), (0x0030, cropItem), (0x0031, randCropItem),
      (0x0032, flipItem), (0x0040, photoItem), (0x0041, noiseItem), (0x0060, normItem), (0x0070, checkItem)],
    (itemAt (working p.1 0).m 63 15 p.1).any (fun d => (p.2 (working p.1 0).m 63 (descOf d.1.desc) d.2).toOption.any
      fun o => (writesAllowed 63 o.writes).toOption.isSome)) := by decide +kernel
theorem test_premises_items_hole : (match itemAt (working 0x41 (2 ^ 48)).m 63 15 0x41 with
    | some (d, i) => match noiseItem (working 0x41 (2 ^ 48)).m 63 (descOf d.desc) i with
      | .error a => a == 2 ^ 48
      | .ok _ => false
    | none => false) = true := by decide +kernel
theorem test_premises_items_scatter : (match itemAt (working 0x50 0).m 63 15 0x50, itemAt (working 0x51 0).m 63 15 0x51 with
    | some (d, i), some (e, j) => (rangeUpdates (working 0x50 0).m 63 (descOf d.desc) i).toOption.isSome &&
        ((outExtents (descOf d.desc)).mapM fun e => cellWritable 63 e.1 e.2).toOption.isSome &&
        (voxelUpdates (working 0x51 0).m 63 (descOf e.desc) j).toOption.isSome &&
        ((outExtents (descOf e.desc)).mapM fun e => cellWritable 63 e.1 e.2).toOption.isSome
    | _, _ => false) = true := by decide +kernel
theorem test_premises_items_gate : (match itemAt (working 0x01 0).m 63 15 0x01 with
    | some (d, i) => (gateInputs (working 0x01 0).m 63 (descOf d.desc) i { kind := 1, maxCoded := 64 }).toOption.isSome &&
        (gateTag (working 0x01 0).m 63 (descOf d.desc) i).toOption.isSome
    | none => false) = true ∧
    (match gateExtent { kind := 1, maxCoded := 64 } 0 0 0 [], gateExtent { kind := 0, maxCoded := 64 } 0 0 0 [] with
    | .pass _, .fail _ _ => true
    | _, _ => false) = true := by decide +kernel
theorem test_premises_items_decode : (match itemAt (working 0x10 0).m 63 15 0x10 with
    | some (d, _) => (cellRead (working 0x10 0).m 63 (descOf d.desc).inAddr (gateRecLen (working 0x10 0).m 63 (descOf d.desc).inAddr)).toOption.isSome &&
        (cellRead (working 0x10 0).m 63 ((descOf d.desc).par 8 8) 0).toOption.isSome
    | none => false) = true := by decide +kernel

/-! BuffersCreditsAndSlotWrites -/

/-- A running job of one rank, which the member owns, with a packed slot and an open delivery window; kind and credit as given,
a grant for key 7 of connection 0. -/
def delivering (kind credit : Nat) (x : RankState) : State :=
  let r : Rank := { kind := kind, credit := credit, bufKey := 7, slots := 4, nbuf := 2, slotStride := 64, bufStride := 256, commitKey := 7, nrec := 2 }
  let j : Job := { loaded := true, jr := { firstStep := 10, ranks := [r] }, members := [ownAddr {}], ranks := [(0, x)],
                   img := { windows := [{ kind := 2, valid := true, closePu := 196608 }] }, packed := [{ id := 1, step := 10, slot := 3, data := [1#8] }], nextId := 2 }
  let m := odSet (odSet { ({} : M8) with job := j } Od.JOB_STATE 3) Od.LAST_STEP 20
  let g := odPut m Od.GRANTS (.bytes (natLe 4 7 ++ natLe 2 0 ++ natLe 2 3 ++ natLe 8 0 ++ natLe 8 4096 ++ zeros 8))
  st { g with pav := { g.pav with running := true, tb := 12 * 65536, periodFx := 2 ^ 40, wins := [{ target := 10 }] } }

theorem test_premises_buffers : (delivering 1 0 {}).awake ∧ isTarget (delivering 1 0 {}).m 12 = true ∧ isTarget (delivering 1 0 {}).m 20 = true ∧
    12 + 1 ≤ 12 * 65536 / 65536 + 2 ∧ 12 * 65536 / 65536 + 2 < 20 + 1 ∧ sealedTo (delivering 1 0 { sealedTo := some 10 }).m (12 - 2) 0 = true ∧
    jobLoaded (delivering 1 1 {}).m = true ∧ ownsRank (delivering 1 1 {}).m 0 = true ∧
    (rankOf (delivering 1 1 {}).m 0).credit = 1 ∧ (delivering 1 1 {}).m.pav.running = true ∧
    max 0 (10 - 0) + 2 ≤ 12 * 65536 / 65536 := by decide +kernel
theorem test_premises_credits : expandStep 10 12 = 12 ∧ sealedTo (delivering 1 1 {}).m 12 0 = false ∧
    sealedTo (delivering 0 1 { sealedTo := some 12 }).m 12 0 = true ∧ creditKeyOk (delivering 0 1 {}).m 0 12 7 = true ∧
    creditKeyOk (delivering 0 1 {}).m 0 12 8 = false ∧ 12 ≤ expandStep 12 12 ∧
    odNat (odSet (delivering 1 1 {}).m Od.CREDIT_STALL_STEPS 2) Od.CREDIT_STALL_STEPS = 2 := by decide +kernel
theorem test_premises_slot_write : (findPacked (delivering 1 0 {}).m 1).isSome = true ∧ bufFree (delivering 1 0 {}).m 0 10 = false ∧
    bufFree (delivering 1 0 { released := [10] }).m 0 10 = true ∧ mayWrite (delivering 1 0 {}).m = true := by decide +kernel
/-- The same with a step of a length. -/
def fitting (kind period : Nat) : State :=
  st { (delivering kind 0 { released := [10] }).m with pav := { (delivering kind 0 { released := [10] }).m.pav with periodFx := period } }

theorem fitting_phase (kind n d : Nat) : phaseNs (fitting kind (n * 2 ^ 32)).m d = d * n := by
  have hs : (fitting kind (n * 2 ^ 32)).m.pav.slewFx = 0 := by
    simp only [fitting, st]
    simp only [delivering, st, odPut, odSet]
  have hf : (fitting kind (n * 2 ^ 32)).m.pav.periodFx = n * 2 ^ 32 := by simp only [fitting, st]
  unfold phaseNs
  simp only [hs, hf]
  rw [← Nat.mul_assoc]
  simp
theorem fitting_close (kind n : Nat) :
    (closePoint { kind := 2, valid := true, closePu := 196608 } 10 - ((fitting kind n).m.pav.tb : Int)).toNat = 65536 := by
  have hf : (fitting kind n).m.pav.tb = 786432 := by
    simp only [fitting, st]
    simp only [delivering, st, odPut, odSet]
  rw [hf]
  decide
theorem fitting_left (kind n : Nat) :
    timeLeft (fitting kind (n * 2 ^ 32)).m { kind := 2, valid := true, closePu := 196608 } 10 = 65536 * n := by
  unfold timeLeft
  rw [fitting_phase, fitting_close]
/-- The same with a step so long that the slot's transfer fits. -/
def roomy (kind : Nat) : State := fitting kind (transferNs (fitting kind 0).m 0 1 * 2 ^ 32)

theorem test_premises_slot_opens (kind : Nat) : deliveryOpen (roomy kind).m { id := 1, step := 10, slot := 3, data := [1#8] } = true := by
  have hw : deliveryWindows (roomy kind).m { id := 1, step := 10, slot := 3, data := [1#8] } =
      [(0, { kind := 2, valid := true, closePu := 196608 })] := rfl
  have hp : (roomy kind).m.pav.wins = [{ target := 10 }] := rfl
  have hl : transferNs (roomy kind).m 0 1 ≤ timeLeft (roomy kind).m { kind := 2, valid := true, closePu := 196608 } 10 := by
    have ht : transferNs (roomy kind).m 0 1 = transferNs (fitting kind 0).m 0 1 := rfl
    have hr := fitting_left kind (transferNs (fitting kind 0).m 0 1)
    unfold roomy at ht ⊢
    omega
  unfold deliveryOpen
  rw [hw, hp]
  simpa using hl
theorem test_premises_slot_goes (kind : Nat) : SlotMayGo (roomy kind) { id := 1, step := 10, slot := 3, data := [1#8] } :=
  ⟨rfl, rfl, rfl, rfl, rfl, test_premises_slot_opens kind⟩
theorem test_premises_slot_grant :
    lifeHold (delivering 0 0 { released := [10] }).m { id := 1, step := 10, slot := 3, data := [1#8] } = false ∧
    granted (delivering 0 0 {}).m 0 (bufKeyOf (delivering 0 0 {}).m 0 10) (slotAddr (rankOf (delivering 0 0 {}).m 0) 10 3) 1 1 = true ∧
    (rankOf (delivering 0 0 {}).m 0).kind = 0 ∧ granted (delivering 0 0 {}).m 0 8 192 1 1 = false := by decide +kernel
theorem test_premises_slot_path : givenUp { (delivering 0 0 {}).m with rem := { paths := [(0, { state := 2 })] } } 0 = true ∧
    givenUp (odPut { (delivering 0 0 {}).m with rem := { paths := [(0, { state := 2 })] } } Od.CONN_TABLE (.bytes (zeros 4 ++ [1#8]))) 0 = false ∧
    lifeHold { (delivering 0 0 {}).m with rem := { bufTx := [(0, (0, 7, 8))] } } { id := 1, step := 10, slot := 3 } = true := by decide +kernel
theorem test_premises_pack : (queuedReqs (getTile (mover true false).m 63)).head? = some {} ∧
    (queuedReqs (getTile (modTile (mover true false).m 63 fun x => { x with reqQ := [{ hold := 1 }] }) 63)).head? = some { hold := 1 } ∧
    findHold (setPool (mover true false).m 3 0 { held := [{ id := 1 }] }) 3 0 1 = some { id := 1 } ∧
    localToPkg 63 (leField (zeros 40) 0 8) = some 0 ∧ fanoutPorts (mover true false).m 0 = [] ∧ (mover true false).m.job.never = [] := by decide +kernel

/-! TheOwnerCommitsAndSubstitutes -/

/-- A SLOT_DONE, CANCEL or CANCEL_ACK of slot 3 of step 10, rank 0. -/
def noticeFor (type flags term : Nat) : Bytes := notice type 0 flags (jobTag (delivering 1 0 {}).m) 10 0 3 5 term

/-- What the owner holds of step 10 of rank 0: slot 3 reported, or the commit's body written. -/
def assembled (a : Assembly) : State := st { (delivering 1 0 {}).m with job := { (delivering 1 0 {}).m.job with
  asm := [{ a with step := 10 }], cancels := [{ step := 10, slot := 3 }], substLayouts := [0] } }

theorem test_premises_notices : (noticeFor 1 0 9).length = 40 ∧ leField (noticeFor 1 0 9) 0 1 = 1 ∧ jobLoaded (delivering 1 0 {}).m = true ∧
    leField (noticeFor 1 0 9) 4 4 = jobTag (delivering 1 0 {}).m ∧ ownsRank (delivering 1 0 {}).m 0 = true ∧ isTarget (delivering 1 0 {}).m 10 = true ∧
    leField (noticeFor 1 0 9) 16 4 = 3 ∧ 3 < (rankOf (delivering 1 0 {}).m 0).slots ∧ (getAsm (delivering 1 0 {}).m 10 0).terms.find 3 = none ∧
    (getAsm (assembled { terms := [(3, 9)] }).m 10 0).terms.find 3 = some 9 := by decide +kernel
theorem test_premises_cancels : noticeOk (assembled {}).m (noticeFor 2 0 0) 2 = true ∧ noticeOk (assembled {}).m (noticeFor 3 1 0) 3 = true ∧
    (assembled {}).m.grp.fenced = false ∧ (leField (noticeFor 3 1 0) 2 1).testBit 0 = true ∧ (leField (noticeFor 3 0 0) 2 1).testBit 0 = false ∧
    (assembled {}).m.job.cancels.any (fun c => c.step == 10 && c.rank == 0 && c.slot == 3) = true ∧
    (delivering 1 0 {}).m.job.cancels = [] ∧ (getAsm (assembled {}).m 10 0).terms.has 3 = false := by decide +kernel
/-- The same job with no slot left to report, its commit window open, its deadline passed. -/
def committing (a : Assembly) : State := st { (assembled a).m with
  job := { (assembled a).m.job with img := { windows := [{ kind := 3, valid := true }] }, asm := [{ a with step := 10, terms := [(0, 0), (1, 0), (2, 0), (3, 0)] }] },
  grp := { acks := [{ step := 10 }] }, pav := { (assembled a).m.pav with passedDeadlines := [(0, 10)] } }

theorem test_premises_commit : commitReady (committing {}).m 10 0 = true ∧ recordHeld (committing {}).m 10 0 = false ∧
    (rankOf (committing {}).m 0).kind = 1 ∧ commitReady (committing { conflict := true }).m 10 0 = false ∧
    sealReady (committing { bodyDone := true }).m 10 0 = true ∧ sealReady (committing {}).m 10 0 = false ∧
    sealAllowed (committing { bodyDone := true }).m 0 = true ∧
    sealAllowed (odSet (committing { bodyDone := true }).m Od.SEAL_HOLD 1) 0 = false := by decide +kernel
theorem test_premises_late_substitution : graceOver (odSet (committing {}).m Od.LATE_SUBST_GRACE 1) 10 = true ∧
    mayWrite (odSet (committing {}).m Od.LATE_SUBST_GRACE 1) = true ∧ odNat (odSet (committing {}).m Od.LATE_SUBST_GRACE 1) Od.LATE_SUBST_GRACE = 1 ∧
    ownedRanks (committing {}).m = [0] ∧ sealedTo (committing {}).m 10 0 = false := by decide +kernel

/-! CodecEnginesRunFillsHitsAndJobs -/

/-- Hub 3 with a codec engine in a state; a descriptor at 0x1000 with an opcode in byte 0. -/
def coding (x : CodecHub) (op : Nat) : State :=
  st (writeMem (setPool (setCodec { ({} : M8) with clk := { hclk := 2000 }, tiles := [(63, { reqQ := [{ id := 1, phase := .hit }] })] } 3 x)
    3 0 { held := [{ id := 1 }] }) 0x1000 [BitVec.ofNat 8 op])

theorem test_premises_codec_submit : (coding {} 0).awake ∧ isCore 0x47 = true ∧ isCore 0x48 = false ∧ 0x40 % 2 ^ 48 % 64 = 0 ∧ 0x41 % 2 ^ 48 % 64 ≠ 0 ∧
    (List.replicate 64 0).length = 64 ∧ (getCodec (coding { jobs := [0x40] } 0).m 3).jobs = [0x40] := by decide +kernel
theorem test_premises_codec_lanes : (∀ op ∈ [1, 2], nextWork (coding { jobs := [0x1000] } op).m 3 15 = some (.fw 0x1000) ∧
      leField (readMemOnes (coding { jobs := [0x1000] } op).m 0x1000 64) 0 1 = op) ∧ inMem 0x1000 64 = true ∧
    inMem 0x0B2D05E000 64 = false ∧ nextWork (coding { jobs := [0x0B2D05E000] } 0).m 3 15 = some (.fw 0x0B2D05E000) ∧
    cdcDescOk (readMemOnes (coding { jobs := [0x1000] } 1).m 0x1000 64) = false ∧ nextWork (coding {} 1).m 3 0 = none ∧
    nextWork (coding { fills := [{}] } 0).m 3 15 = some (.fill {}) ∧
    nextWork (coding { hits := [{ released := some 1 }] } 0).m 3 14 = some (.hit { released := some 1 }) ∧ decompressing {} < 15 ∧
    15 ≤ decompressing { lanes := (List.range 15).map fun l => (l, .hit {} 0 [] 0) } := by decide +kernel
theorem test_premises_codec_call : cdcDescOk (natLe 1 2 ++ zeros 7 ++ natLe 2 1 ++ natLe 2 1 ++ natLe 1 1 ++ zeros 3 ++ natLe 4 1 ++ natLe 4 1 ++ zeros 40) = true ∧
    cdcDescOk (natLe 1 1 ++ zeros 1 ++ natLe 2 0x0101 ++ zeros 4 ++ natLe 2 1 ++ natLe 2 1 ++ natLe 1 1 ++ zeros 3 ++ natLe 4 1 ++ natLe 4 1 ++ zeros 40) = true := by
  decide +kernel
theorem test_premises_codec_ends : (∀ st ∈ [0, 3], ((coding { lanes := [(15, .fill {} st [] 0)] } 0).m.hubs.codec.get {} 3).lanes.has 15 = true) ∧
    ((coding { hits := [{ tile := 63, req := 1, hold := 1, clen := 256 }] } 0).m.hubs.codec.get {} 3).hits.any (fun h => h.released.isNone) = true ∧
    findHold (coding {} 0).m 3 0 1 = some { id := 1 } ∧ findHold (coding {} 0).m 3 0 2 = none ∧
    0 + (1024 + ceilDiv 256 256) ≤ (coding {} 0).m.clk.hclk ∧ (coding {} 0).m.clk.hclk < 1000 + (1024 + ceilDiv 256 256) ∧
    0 + (128 + ceilDiv 125 125) ≤ (coding {} 0).m.clk.hclk ∧ findReq (coding {} 0).m 63 1 = some { id := 1, phase := .hit } ∧
    (coding {} 0).m.clk.hclk < 2000 + (128 + ceilDiv 125 125) := by decide +kernel

/-! CellPoolsGrantShareAndTakeBack -/

/-- The SRAM pool of Hub 3 with a run that an owner holds and a request that waits. -/
def pooled (waiting : List PoolReq) : State :=
  st (setPool {} 3 1 { used := 1, held := [{ id := 1, pieces := [(0, 1)], names := [0x80] }], waiting := waiting })

theorem test_premises_pool_ports : (pooled []).awake ∧ isCore 0x47 = true ∧ 0x80 ≤ 0xFF ∧ 63 < 0x40 ∧ ¬(0x05 ≤ 0x80 ∧ 0x80 ≤ 0x7F) ∧
    (0x05 ≤ 0x7F ∧ 0x7F ≤ 0x7F) ∧ isCore 63 = false ∧
    ((getPool (pooled []).m 3 1).held.find? fun h => h.names.contains 0x80 && cellAddr (pooled []).m 3 1 (h.pieces.headD (0, 0)).1 ==
      cellAddr (pooled []).m 3 1 0 % 2 ^ 48) = some { id := 1, pieces := [(0, 1)], names := [0x80] } ∧ [0x80].erase 0x80 = [] ∧
    ((getPool (pooled []).m 3 1).held.find? fun h => h.names.contains 0x81 && cellAddr (pooled []).m 3 1 (h.pieces.headD (0, 0)).1 == 0) = none := by
  decide +kernel
theorem test_premises_pool_grant : (grantable (pooled [{ id := 2, owner := 0x80 }]).m 3 1 { id := 2, owner := 0x80 }).isSome = true ∧
    firstOfOwner [] [({ id := 2, owner := 0x80 } : PoolReq)] = [{ id := 2, owner := 0x80 }] ∧ firstOfOwner [] ([] : List PoolReq) = [] := by
  decide +kernel
theorem test_premises_pool_audit : (∀ h < 4, unaccounted (pooled []).m h 0 + unaccounted (pooled []).m h 1 = 0) ∧
    unaccounted (setPool {} 3 1 { used := 1 }) 3 0 + unaccounted (setPool {} 3 1 { used := 1 }) 3 1 ≠ 0 := by decide +kernel

/-! DmaChannelsFollowTheirStates -/

/-- Channel 63 of Hub 3 in a state, a valid descriptor at address 0x1000. -/
def channel (x : DmaCh) : State := st (setDma (writeMem {} 0x1000 (zeros 16 ++ [1#8])) 3 63 x)

theorem test_premises_dma : (channel {}).awake ∧ (∀ st ∈ [DmaSt.disabled, .idle, .running, .paced, .preempted, .stopping, .halted],
      (getDma (channel { st := st }).m 3 63).st = st) ∧ 0x1000 % 32 = 0 ∧ 0x1001 % 32 ≠ 0 ∧
    (readMem (channel {}).m 0x1000 32).any (dmaDescOk (channel {}).m) = true ∧
    (readMem (channel {}).m 0x2000 32).any (dmaDescOk (channel {}).m) = false ∧ (readMem (channel {}).m 0x2000 32).isSome = true ∧
    ({ cfg := 8 } : DmaCh).isPaced = true ∧ ({} : DmaCh).high ≤ ({} : DmaCh).low ∧ isCore 0x47 = true ∧ isCore 0 = false := by decide +kernel
theorem test_premises_dma_movers : (dmaBest (hubDma (channel { st := .preempted }).m 3)).any (fun p => p.1 == 63) = true ∧
    dmaBest (hubDma (channel {}).m 3) = none ∧ ((hubDma (channel { st := .preempted }).m 3).filter fun p => p.2.mover).length < 8 ∧
    (let m := (List.range 8).foldl (fun m c => setDma m 3 c { st := .running, mover := true, cfg := 0 }) (channel { st := .preempted, cfg := 7 }).m
     ((hubDma m 3).filter fun p => p.2.mover).length = 8 ∧ (dmaWorst (hubDma m 3)).any (fun p => p.1 == 0 && p.2.prio == 0) = true ∧
     (dmaBest (hubDma m 3)).any (fun p => p.1 == 63 && p.2.prio == 7) = true ∧ (getDma m 3 0).st = .running) := by decide +kernel
theorem test_premises_dma_pace : (dmaLevel (channel { st := .paced, lvl := 0x1000 }).m 3 { lvl := 0x1000 }) = some 0 ∧
    ({ pace := 2 ^ 32 } : DmaCh).resumes 0 = true ∧ ({ pace := 2 ^ 32 } : DmaCh).resumes 1 = false := by decide +kernel
theorem test_premises_dma_errors : ({ cfg := 0x30 } : DmaCh).retries = 3 ∧ (2 : Nat).testBit 1 = true := by decide +kernel
theorem test_premises_dma_errors_address : spaceSee (odInc (channel { st := .running }).m Od.DMA_BUS_ERRORS) (0x48 + 3) 0x1000 1 ≠ .hole := by decide +kernel

/-! TextUnitsLoadRunAndServe -/

/-- Hub 3 with a text unit in a state and bytes at 0x1000. -/
def texting (x : TextHub) (b : Bytes) : State := st (writeMem (setText {} 3 x) 0x1000 b)

/-- A machine of one state and one class that accepts everything. -/
def oneState : Bytes := natLe 2 0x4D47 ++ natLe 1 1 ++ natLe 1 0 ++ natLe 2 1 ++ natLe 2 1 ++ zeros 8 ++ zeros 256 ++ natLe 4 0x01000000 ++ natLe 1 1

theorem test_premises_text_loads : textBusy (texting {} []).m = false ∧ textBusy (texting { jobs := [64] } []).m = true ∧
    vocabRule (texting {} []).m (zeros 1) ≠ 0 ∧ machRule (zeros 1) ≠ 0 ∧ machRule oneState = 0 ∧ (texting {} []).awake := by decide +kernel
theorem test_premises_text_jobs : laneFree (texting { jobs := [0x1000] } []).m 3 3 = true ∧ laneFree (texting {} []).m 3 4 = false ∧
    (∀ op ∈ [1, 2], textDescOk (texting {} []).m (natLe 1 op ++ zeros 63) = true) ∧ textDescOk (texting {} []).m (zeros 64) = false ∧
    textDescOk (odPut {} (machineKey 0) (.bytes oneState)) (natLe 1 3 ++ zeros 63) = true ∧
    leField (readMemOnes (texting {} [2#8]).m 0x1000 64) 0 1 = 2 ∧ readMem (texting {} []).m 0 0 = some [] ∧
    readMem (texting {} []).m 0x0B2D05E000 4 = none ∧ isCore 0x47 = true ∧ isCore 0 = false := by decide +kernel
theorem test_premises_grammar_tail : serialDiff 16 (64 % 65536) 0 = 64 ∧ serialDiff 16 (65 % 65536) 0 = 65 ∧ 65536 / 65536 ≠ 0 ∧ 64 / 65536 = 0 := by
  decide +kernel
/-- Hub 3 with a grammar request waiting in queue 63 and a context that may answer it. -/
def asking (op : Nat) (c : Sparse GrammarCtx) : State :=
  st (odPut (writeMem (setText {} 3 { tails := [(63, 1)], ctxs := c }) (grammarArea 3 + 63 * 0x1000) (natLe 1 op ++ zeros 3 ++ natLe 4 1 ++ zeros 56))
    (machineKey 0) (.bytes oneState))

theorem test_premises_grammar : (∀ op ∈ [1, 2, 3], nextGrammar (asking op [(0, {})]).m 3 = some (63, 0) ∧
      grammarOk (readMemOnes (asking op [(0, {})]).m (grammarArea 3 + 63 * 0x1000) 64) = true ∧
      leField (readMemOnes (asking op [(0, {})]).m (grammarArea 3 + 63 * 0x1000) 64) 0 1 = op) ∧
    (getText (asking 2 [(0, {})]).m 3).ctxs.find 0 = some {} ∧ machineOf (asking 1 []).m 0 ≠ [] ∧ 1 = (0 + 1) % 2 ^ 32 ∧
    nextGrammar (texting {} []).m 3 = none := by decide +kernel
theorem test_premises_ctx_idle : 0 + odNat ({} : M8) Od.CTX_IDLE_MS * 1000000 ≤ 10 ^ 18 ∧ 0 < 0 + odNat ({} : M8) Od.CTX_IDLE_MS * 1000000 := by
  decide +kernel

/-! LinksCarryFramesInSequence -/

/-- Port 31 up in Acsal mode with a link in a state, the device's address 5. -/
def linked (x : Link) : State := st (setLink (odSet (setPort {} 31 { st := .up }) Od.FABRIC_ADDRESS 5) 31 x)

/-- A frame of an address and class on the fibre. -/
def sentFrame (dst cls hops : Nat) : Bytes := ({ dst := dst, src := 9, cls := cls, hops := hops } : Frame).bytes 0

theorem test_premises_links : (linked {}).awake ∧ acsalUp (linked {}).m 31 = true ∧ acsalUp {} 31 = false ∧ portUp {} 31 = false ∧ lcrcOk [] = false ∧
    lcrcOk (sentFrame 5 2 1) = true ∧ frameFormOk (sentFrame 5 2 1) = true ∧ (parseFrame (sentFrame 5 2 1)).2 = 0 ∧
    (parseFrame (sentFrame 5 2 1)).1.dst = ownAddr (linked {}).m ∧ (parseFrame (sentFrame 5 2 1)).1.cls ∉ [0, 1, 4, 7, 8] ∧
    (∀ h ∈ [0, 1], (parseFrame (sentFrame 6 2 h)).1.hops = h ∧ forUs (linked {}).m (parseFrame (sentFrame 6 2 h)).1 = false) ∧
    (parseFrame (sentFrame 5 9 1)).1.cls ≠ 0 ∧ frameFormOk (sentFrame 5 9 1) = false ∧ lcrcOk (sentFrame 5 9 1) = true ∧
    leField (policerRec (linked {}).m 31 7) 0 1 = 0 ∧ (linked {}).m.fab.nbrs.find 31 = none ∧ (linked {}).m.fab.units = [] ∧
    nextFrame (linked {}).m 31 = none := by decide +kernel
theorem test_premises_link_egress : (let m := (linked { credits := [(5, 1)] }).m
    (nextFrame { m with fab := { m.fab with egress := [(31 * 8 + 5, [{ cls := 3 }])] } } 31).isSome) = true ∧
    0 + 500 ≤ 500 ∧ (0 < 1 ∧ (32 ≤ 1 ∨ 0 + 200 ≤ 200)) ∧ (getLink (linked { replay := [(0, {})] }).m 31).replay = [(0, {})] := by decide +kernel

/-! NeighboursAddressesAndLinkState -/

/-- Port 31 up with a neighbour of address 7 on it; the device has an address and a cable map of given positions. -/
def placed (own : Nat) (map : Bytes) (near : Neighbour) : State :=
  let m := odPut (odSet (odSet (setPort {} 31 { st := .up }) Od.FABRIC_ADDRESS own) Od.SERIAL 5) Od.CABLE_MAP (.bytes map)
  st { m with fab := { m.fab with nbrs := [(31, near)], acting := true, proxies := [(6, 31)] } }

/-- A position of an address whose port 31 leads to port 1 of address 7. -/
def positionAt (a : Nat) : Bytes := natLe 2 a ++ natLe 1 2 ++ natLe 1 1 ++ zeros 4 ++ natLe 1 31 ++ natLe 2 7 ++ natLe 1 1 ++ zeros 52

/-- An ADDR_REQ of serial 6 that saw that link. -/
def askAddr : Bytes := natLe 1 2 ++ natLe 1 1 ++ zeros 2 ++ natLe 8 6 ++ natLe 1 31 ++ natLe 2 7 ++ natLe 1 1

theorem test_premises_hellos : (placed 1 [] {}).awake ∧ acsalUp (placed 1 [] {}).m 31 = true ∧ (placed 1 [] {}).m.fab.helloAt.find 31 = none ∧
    (natLe 1 1 ++ zeros 31).length = 32 ∧ leField (natLe 1 1 ++ zeros 31) 0 1 = 1 ∧ (neighbourOf (placed 1 (zeros 4 ++ [1#8]) {}).m (zeros 32)).mismatch = true ∧
    (placed 1 [] {}).m.fab.nbrs.find 31 = some {} ∧ 0 + 3 * (odNat (placed 1 [] {}).m Od.HELLO_MS * 1000000) ≤ 10 ^ 9 := by decide +kernel
theorem test_premises_addresses : ownAddr (placed 0xFFFF [] {}).m = 0xFFFF ∧ odInForce (placed 0xFFFF [] {}).m Od.FIXED_ADDRESS = 0xFFFF ∧
    (bestNeighbour (placed 0xFFFF [] { addr := 7 }).m).isSome = true ∧ ownLinks (placed 0xFFFF [] {}).m = [] ∧
    odNat (placed 0xFFFF [] {}).m Od.ADDR_STATUS = 0 ∧ odNat (odSet (placed 0xFFFF [] {}).m Od.ADDR_STATUS 3) Od.ADDR_STATUS = 3 ∧
    leField (assignBytes 5 1) 4 8 = odNat (placed 0xFFFF [] {}).m Od.SERIAL ∧ leField (assignBytes 5 1) 0 1 = 3 ∧ leField (refuseBytes 5 1) 0 1 = 4 ∧
    leField (assignBytes 6 1) 4 8 ≠ odNat (placed 1 [] {}).m Od.SERIAL ∧
    ((placed 1 [] {}).m.fab.proxies.find? fun q => q.1 == leField (assignBytes 6 1) 4 8) = some (6, 31) := by decide +kernel
theorem test_premises_requests : leField askAddr 0 1 = 2 ∧
    (let found := fun (n : Nat) => (let m := odSet (placed 1 (zeros 32 ++ (List.range n).flatMap fun i => positionAt (2 + i)) {}).m Od.MATCH_MIN 1
      (positions m).filter fun q => positionMatches m q (observations askAddr))
     (found 0).length = 0 ∧ (found 1).map Position.addr = [2] ∧ (found 2).length = 2) ∧ sameGroup 2 (ownAddr (placed 1 [] {}).m) = true ∧
    positionHeld (placed 1 [] {}).m 2 6 = false ∧ positionHeld (placed 1 [] {}).m 1 6 = true ∧ (placed 1 [] {}).m.fab.acting = true := by decide +kernel
theorem test_premises_lsas : leField (natLe 1 5 ++ zeros 1 ++ natLe 2 2 ++ natLe 4 9) 0 1 = 5 ∧
    leField (natLe 1 5 ++ zeros 1 ++ natLe 2 2 ++ natLe 4 9) 2 2 = 2 ∧ (placed 1 [] {}).m.fab.lsas.find 2 = none ∧ ownAddr (placed 1 [] {}).m ≠ 2 ∧
    serialNewer 32 9 8 = true ∧ serialNewer 32 8 9 = false := by decide +kernel

/-! FabricTablesOffsetsAndFanout -/

/-- A measurement with device 9 in progress, in a loaded job; a fan-out delivery of two ports. -/
def exchanging (o : OffsetMeas) : State :=
  st (setPool (odSet { ({} : M8) with clk := { now := 10 ^ 6 }, fab := { offsets := [{ o with peer := 9 }], fanouts := [{ id := 1, status := [0, 1], hold := 1 }] } } Od.JOB_STATE 2)
    0 0 { held := [{ id := 1, names := [0] }] })

theorem test_premises_tables : cableMapOk [1#8] = false ∧ routeTableOk {} [1#8] = false ∧ policersOk [1#8] = false ∧ shapersOk [1#8] = false ∧
    cableMapOk [] = true ∧ routeTableOk {} [] = true ∧ policersOk [] = true ∧ shapersOk [] = true ∧ (exchanging {}).awake := by decide +kernel
theorem test_premises_offsets : ((exchanging {}).m.fab.offsets.find? fun o => o.peer == 9) = some { peer := 9 } ∧ 2 ≤ jobState (exchanging {}).m ∧
    ((exchanging { done := 15, last := 0 }).m.fab.offsets.find? fun o => o.peer == 9) = some { peer := 9, done := 15 } ∧ 0 + 1000000 ≤ (exchanging {}).m.clk.now ∧
    ((exchanging {}).m.fab.offsets.find? fun o => o.peer == 8) = none ∧ (zeros 32).length = 32 ∧ (zeros 31).length ≠ 32 ∧
    ((exchanging { done := 14, out := some (0, 0) }).m.fab.offsets.find? fun o => o.peer == 9) = some { peer := 9, done := 14, out := some (leField (zeros 32) 24 4, leField (zeros 32) 0 8) } := by
  decide +kernel
theorem test_premises_fanouts : ((exchanging {}).m.fab.fanouts.find? fun f => f.id == 1) = some { id := 1, status := [0, 1], hold := 1 } ∧
    ((exchanging {}).m.fab.fanouts.find? fun f => f.id == 2) = none ∧ [0, 1].getD 0 1 ≠ 1 ∧ [0, 1].getD 1 1 = 1 ∧
    ((getPool (exchanging {}).m 0 0).held.find? fun h => h.id == 1) = some { id := 1, names := [0] } ∧ [0].erase 0 = [] := by decide +kernel

/-! PortsFollowTheirStates -/

/-- Port 31 in a state with its four lanes working and their lasers at set; engine 7 is on. -/
def optical (x : Port) (lane : Lane) (laser : Laser) : State :=
  let m := setPort { ({} : M8) with clk := { now := 10 ^ 10 }, pwr := { oeOn := [(7, true)] } } 31 x
  st ([12, 13, 14, 15].foldl (fun m l => setLaser (setLane m (126 + l) lane) (126 + l) laser) m)

theorem test_premises_ports : (optical {} {} {}).awake ∧ oeMayWrite 0x47 7 = true ∧ oeMayWrite 0x44 7 = false ∧
    (∀ t ∈ [PortSt.disabled, .ramping, .settling, .acquiring, .up, .stopping, .fault], (getPort (optical { st := t } {} {}).m 31).st = t) ∧
    (optical {} {} {}).m.pwr.oeOn.get false 7 = true ∧ ({} : M8).pwr.oeOn.get false 7 = false ∧ (optical {} {} {}).m.pwr.domOff.get false 83 = false ∧
    ({ domOff := [(83, true)] } : Power).domOff.get false 83 = true ∧ (10 : Nat) ^ 9 * 9 + 10000000 ≤ (optical {} {} {}).m.clk.now := by decide +kernel
theorem test_premises_ports_ramp : (let s := optical { st := .ramping } { lstate := 1 } { ctl := 1, atSet := true }
    rampDone s.m 31 = true ∧ (∀ c ∈ portLanes s.m 31, (getLaser s.m c).faulted = false ∧ (getLane s.m c).lstate = 1)) ∧
    (let s := optical { st := .ramping } { lstate := 5 } { short := true }
     rampDone s.m 31 = true ∧ ¬∀ c ∈ portLanes s.m 31, (getLaser s.m c).faulted = false ∧ (getLane s.m c).lstate < 4) ∧
    rampDone (optical { st := .ramping } {} {}).m 31 = false ∧ (∀ c ∈ portLanes (optical { st := .stopping } {} {}).m 31,
      (getLaser (optical { st := .stopping } {} {}).m c).dark = true) ∧ (getPort (optical { mode := 1 } {} {}).m 31).acsal = false := by decide +kernel
theorem test_premises_ports_queue : (List.replicate 15 (TxCmd.bytes [])).length < 16 ∧ 16 ≤ (List.replicate 16 (TxCmd.bytes [])).length ∧
    (∀ i < 4, (getPort (optical {} {} {}).m (28 + i)).st = .disabled) ∧ (getEngine (optical {} {} {}).m 7).idleSince + 1000000000 ≤ 10 ^ 10 ∧
    (some ({ phase := 2 } : LaneJobCmd)).any (fun c => c.own && c.phase < 3) = true := by decide +kernel

/-! LanesAndLasersAreKept -/

/-- An engine 7 whose ports are optical, with a lane command and spare 16 of the port. -/
def sparing (e : Engine) (x : Port) (lane : Lane) (laser : Laser) : State :=
  let m := setEngine (optical x lane laser).m 7 e
  st { m with dict := { m.dict with latched := [(Od.SPARE_HOME_L16, .num 3)] } }

theorem test_premises_lanes : (sparing {} { st := .up } { lstate := 1 } { ctl := 1 }).awake ∧
    (let m := (sparing {} { st := .up } { lstate := 1 } { ctl := 1 }).m
     lanePort m 7 15 = some 31 ∧ acsalUp m 31 = true ∧ spareHome m 7 16 = some 31 ∧ spareFree m 7 16 = true ∧ freeSpare m 31 = some 16 ∧
       lanePort m 7 16 = none ∧ (getLaser m 141).on = true) ∧
    (let m := (sparing {} { st := .up, map := [12, 13, 14, 0x1F] } { lstate := 4 } {}).m
     acsalUp m 31 = true ∧ 0x1F ∈ portMap m 31 ∧ (getLane m 141).lstate = 4 ∧ some (4 * 7 + 15 / 4) = some 31 ∧ (portMap m 31).getD 3 0x1F ≠ 15) := by
  decide +kernel
theorem test_premises_lanes_bad : (let m := (sparing {} { st := .up } { lstate := 1 } { ctl := 1 }).m
     odNat m Od.BER_RETIRE * 0 < 1 * 1000000000 ∧ ¬(odNat m Od.BER_RETIRE * 1 < 0 * 1000000000) ∧ ¬(255 % 256 < odNat m Od.EYE_MIN_RETIRE) ∧
     ¬(odNat m Od.DRIFT_RETIRE < 0 % 65536) ∧ 0 < odNat m Od.FLAP_LIMIT ∧ jobState m ≠ 3) ∧ jobState (odSet {} Od.JOB_STATE 3) = 3 ∧
    lineCrosses [1, 2, 3] 100 24 true = true ∧ lineCrosses [] 0 24 true = false := by decide +kernel
theorem test_premises_lanes_moves : (let m := (sparing { cmd := some { op := 1, port := 31, lane := 15, target := 14, phase := 2 } } { st := .up } {} { atSet := true }).m
     portUp m 31 = true ∧ (getLaser m (126 + 14)).atSet = true ∧ (15 : Nat) ≠ 14 ∧ 0 + 10000000 ≤ m.clk.now) ∧
    0 + odNat (sparing {} {} {} {}).m Od.RETURN_SOAK_S * 1000000000 ≤ 10 ^ 14 ∧ railOf 141 = 23 ∧ Sparse.find ([(23, 0)] : Sparse Nat) 23 = some 0 ∧
    ({ ctl := 3 } : Laser).apc = true ∧ ({ ctl := 1 } : Laser).apc = false ∧ ({ ctl := 1 } : Laser).on = true ∧ min 64 (63 + 1) = 64 := by decide +kernel

/-! RemoteWritePathsRecoverFromLoss -/

/-- A connection record of any-path with retry count 1 and MTU 1,024, sr for Acsal-SR, inbound writes admitted. -/
def connOf (sr : Nat) : Bytes := natLe 2 0 ++ natLe 1 sr ++ zeros 1 ++ natLe 1 1 ++ natLe 1 1 ++ natLe 1 1 ++ natLe 1 10 ++ natLe 4 500 ++ natLe 4 16 ++ zeros 48 ++
  (zeros 4 ++ natLe 4 7 ++ zeros 32 ++ zeros 12 ++ natLe 2 (9 * sr) ++ zeros 10) ++ zeros 192

/-- Connection 0 with its path 0 in a state, the device 10 s after its start. -/
def pathed (sr : Nat) (x : Path) : State :=
  st (setPath (odPut { ({} : M8) with clk := { now := 10 ^ 10 } } Od.CONN_TABLE (.bytes (connOf sr))) 0 0 x)

theorem test_premises_paths : (pathed 0 {}).awake ∧ psnOut (pathed 0 {}).m 0 0 5 = false ∧ psnOut (pathed 0 { state := 1, una := 5, high := 6 }).m 0 0 5 = true ∧
    (connInfo (pathed 0 {}).m 0).retry = 1 ∧ (connInfo (pathed 0 {}).m 0).sr = false ∧ 0 + (connInfo (pathed 0 {}).m 0).timeout ≤ 10 ^ 10 ∧
    0 + odNat (pathed 0 {}).m Od.PATH_HOLD_MS * 1000000 ≤ 10 ^ 10 := by decide +kernel
theorem test_premises_conn_table : connAbort {} [1#8] = some 0x06090030 ∧ connAbort {} [] = none ∧ grantAbort {} [1#8] = some 0x06090030 ∧ grantAbort {} [] = none ∧
    0 < connCount (pathed 0 {}).m [] ∧ (5 ∈ [5] ∧ holdOver {} 5 = true) ∧ jobLoaded (odSet {} Od.JOB_STATE 3) = true := by decide +kernel

/-! InboundWritesPfcAndAcsalSr -/

/-- Port 0 in Ethernet mode with a PFC state, its PORT_IP all ones. -/
def ethernet (x : Pfc) : State :=
  let m := setPort { ({} : M8) with clk := { now := 10 ^ 10 } } 0 { mode := 1, st := .up }
  let m := odPut m Od.PORT_IP (.bytes (List.replicate 16 0xFF#8))
  st (setPfc (setPath (odPut m Od.CONN_TABLE (.bytes (connOf 0))) 0 0 { state := 1, high := 6 }) 0 x)

/-- A frame with its FCS. -/
def framedWith (b : Bytes) : Bytes := b ++ natLe 4 (crc32 b)

/-- A RoCE v2 packet to that port: a transport header of an operation and queue pair. -/
def roceTo (q op : Nat) : Bytes :=
  let trans := bth op 0 q 5 false ++ zeros 4
  let udp := fun sum : Nat => natBe 2 0xC000 ++ natBe 2 4791 ++ natBe 2 (8 + trans.length + 4) ++ natBe 2 sum
  let ip := fun ones => ipHeader 26 (zeros 16) (List.replicate 16 0xFF#8) (8 + trans.length + 4) ones
  let icrc := crc32 (List.replicate 8 0xFF#8 ++ ip true ++ udp 0xFFFF ++ patch trans 4 [0xFF#8])
  framedWith (zeros 12 ++ natBe 2 0x8100 ++ natBe 2 0x6000 ++ natBe 2 0x86DD ++ ip false ++ udp 0 ++ trans ++ natLe 4 icrc)

theorem test_premises_pfc : (ethernet {}).awake ∧ (1 <<< odNat (ethernet {}).m Od.ROCE_PRIO).testBit (odNat (ethernet {}).m Od.ROCE_PRIO) = true ∧
    (1 : Nat).testBit (odNat (ethernet {}).m Od.ROCE_PRIO) = false ∧ odNat (ethernet {}).m Od.PFC_XOFF_KIB * 1024 - 32768 ≤ 200 * 1024 ∧
    0 < odNat (ethernet {}).m Od.PFC_XOFF_KIB * 1024 - 32768 ∧ 0 + odNat (ethernet {}).m Od.PFC_STORM_MS * 1000000 ≤ (ethernet {}).m.clk.now ∧
    (getPort (ethernet {}).m 0).acsal = false ∧ leField [1#8, 0, 0, 0] 0 4 ≠ crc32 [] ∧ pathsOn (ethernet {}).m 0 = [(0, 0)] := by decide +kernel
theorem test_premises_pfc_frames : (let b := framedWith (natBe 6 0x0180C2000001 ++ zeros 6 ++ natBe 2 0x8808 ++ natBe 2 0x0101 ++ natBe 2 8 ++ zeros 16)
    let t := b.take (b.length - 4)
    leField b (b.length - 4) 4 = crc32 t ∧ beField t 0 6 = 0x0180C2000001 ∧ beField t 12 2 = 0x8808 ∧ beField t 14 2 = 0x0101 ∧ (beField t 16 2).testBit 3 = true) ∧
    (roceParse []).isNone = true := by decide +kernel
set_option maxRecDepth 4000 in
theorem test_premises_roce_frames : ∀ q ∈ [(0x100000, 0x11), (0x100000, 0x81), (7, 0x11)],
    (let b := roceTo q.1 q.2
     let t := b.take (b.length - 4)
     leField b (b.length - 4) 4 = crc32 t ∧ beField t 0 6 ≠ 0x0180C2000001 ∧ (roceParse t).any (fun r => r.dst == List.replicate 16 0xFF#8 &&
       r.icrc == crc32 r.masked && beField r.trans 5 3 == q.1 && beField r.trans 0 1 == q.2 && beField r.trans 9 3 == 5 && beField r.trans 12 1 == 0 &&
       leField (policerRec (ethernet {}).m 0 r.pcp) 0 1 == 0) = true) ∧
    psnOut (ethernet {}).m 0 0 5 = true ∧ (getPath (ethernet {}).m 0 0).state ≠ 0 := by decide +kernel
theorem test_premises_inbound : (pathed 0 { state := 1 }).awake ∧ (getPath (pathed 0 { state := 1 }).m 0 0).state = 1 ∧ serialDiff 24 (2 ^ 24 - 1) 0 = 2 ^ 24 - 1 ∧
    serialDiff 24 1 0 = 1 ∧ (connInfo (pathed 0 {}).m 0).inbound = true ∧ serialDiff 24 0 0 = 0 := by decide +kernel
theorem test_premises_inbound_keys : inboundNak {} (Config.inboundKey 0 % 2 ^ 32) (grammarArea 0) 8 true = none ∧
    (∃ h, ((inboundKeys {}).find? fun q => q.1 == Config.inboundKey 0 % 2 ^ 32 && q.2.1 ≤ grammarArea 0 && grammarArea 0 + 8 ≤ q.2.1 + q.2.2.1) = some h ∧
      h.2.2.2 = false ∧ grammarArea 0 - h.2.1 + 8 ≤ 0x40000) ∧ inboundNak {} (Config.inboundKey 0 % 2 ^ 32) 0 8 true = some 0x62 := by
  have hf : jobLoaded {} = false := by decide +kernel
  have hr : List.range 4 = [0, 1, 2, 3] := rfl
  refine ⟨?_, ⟨(Config.inboundKey 0 % 2 ^ 32, grammarArea 0, 0x40000 + 512, false), ?_, rfl, by decide⟩, ?_⟩ <;>
    simp [inboundNak, inboundKeys, hf, hr, grammarArea, hubSram]

theorem test_premises_sr : (let s := pathed 1 { state := 1, una := 5, next := 6, high := 6, rx := 9, got := [11], toSack := 15 }
    s.awake ∧ srConn s.m 9 (natLe 1 1 ++ zeros 31) = some 0 ∧ srConn s.m 8 (natLe 1 1 ++ zeros 31) = none ∧ (connInfo s.m 0).sr = true ∧
    (let b := fun (psn : Nat) => natLe 1 1 ++ zeros 7 ++ natLe 4 psn ++ zeros 12 ++ natLe 4 1 ++ zeros 5
     (∀ q ∈ [8, 9, 10, 11, 12, 74, 75], leField (b q) 0 1 = 1 ∧ leField (b q) 24 4 = 1 ∧ (b q).length = 32 + 1 ∧ leField (b q) 8 4 = q ∧ srConn s.m 9 (b q) = some 0)) ∧
    (let b := fun (status cum : Nat) => natLe 1 2 ++ natLe 1 status ++ zeros 6 ++ natLe 4 cum ++ zeros 20
     ∀ t ∈ [0, 1], ∀ q ∈ [5, 6, 7], leField (b t q) 0 1 = 2 ∧ leField (b t q) 1 1 = t ∧ leField (b t q) 8 4 = q ∧ srConn s.m 9 (b t q) = some 0)) := by decide +kernel

/-! HeartbeatsFaultsAndMirrors -/

/-- A member at address 1 of a group of three working positions and a spare at 9, role 0 held, the job running. -/
def grouped (g : Group) (js : Nat) : State :=
  let pos := fun a flags : Nat => natLe 2 a ++ natLe 1 flags ++ zeros 61
  let m := odPut { ({} : M8) with clk := { now := 10 ^ 10 }, job := { members := [1, 2, 3], jr := { ranks := [{}] } } } Od.CABLE_MAP
    (.bytes (zeros 32 ++ pos 1 2 ++ pos 2 0 ++ pos 3 0 ++ pos 9 1))
  st { odSet (odSet m Od.FABRIC_ADDRESS 1) Od.JOB_STATE js with grp := { g with own := [0], spareAddr := 9, master := 1 } }

/-- A recovery message of a type and RB_ID. -/
def recovery (type rb : Nat) (body : Bytes) : Bytes := natLe 1 type ++ zeros 7 ++ natLe 4 rb ++ body

theorem test_premises_heartbeats : (grouped {} 3).awake ∧ (grouped {} 3).m.grp.own ≠ [] ∧ 0 + odNat (grouped {} 3).m Od.HB_US * 1000 ≤ 10 ^ 10 ∧
    groupW (grouped {} 3).m = 3 ∧ jobRuns (grouped {} 3).m = true ∧ holdsRole (grouped {} 3).m (nextRole (grouped {} 3).m 2) = true ∧
    roleHolder (grouped {} 3).m 2 = 3 ∧ ownAddr (grouped {} 3).m = 1 ∧ silent (grouped {} 3).m 3 = true ∧
    hbTargets (grouped {} 3).m = [3, 2] ∧ (∀ a ∈ hbTargets (grouped {} 3).m, silent (grouped {} 3).m a = true) ∧ 0 + 1000000 ≤ 10 ^ 10 ∧
    roleOfAddr (grouped {} 3).m 2 = some 1 := by decide +kernel
theorem test_premises_faults : (let b := recovery 2 0 (natLe 2 2 ++ zeros 10)
    heard (grouped {} 3).m b 2 ∧ 24 ≤ b.length ∧ leField b 14 1 = bits (ownAddr (grouped {} 3).m) 9 6 ∧ leField b 12 2 = 2 ∧
    coordFor (grouped {} 3).m 2 = 1 ∧ (grouped {} 3).m.grp.roles.has 2 = false ∧ spareIdle (grouped {} 3).m = true ∧
    spareIdle (grouped { wanted := [(1, 1)] } 3).m = false ∧ roleHolder (grouped {} 3).m (nextRole (grouped {} 3).m 2) = 1 ∧
    ((List.range 3).filter fun i => i != 2 && roleHolder (grouped {} 3).m i == 1).length = 1 ∧
    ((List.range 3).filter fun i => i != 2 && roleHolder (grouped { roles := [(1, { holder := 1 })] } 3).m i == 1).length = 2 ∧
    jobLoaded (grouped {} 3).m = true) := by
  refine ⟨⟨?_, ?_, ?_, ?_⟩, ?_⟩ <;> decide +kernel
theorem test_premises_intents : (∀ q ∈ [(6, 68), (7, 12), (9, 12)],
      let b := recovery q.1 0 (natLe 2 0 ++ natLe 2 1 ++ zeros (q.2 - 4))
      12 ≤ b.length ∧ leField b 0 1 = q.1 ∧ leField b 4 4 = jobTag (grouped {} 3).m ∧ serialNewer 32 0 (leField b 8 4) = false ∧ 12 + q.2 ≤ b.length ∧
      leField b 12 2 = 0 ∧ leField b 14 2 = 1) ∧ (grouped { rebuilding := true } 3).m.grp.rebuilding = true ∧
    nowStep { ({} : M8) with pav := { tb := 65536 } } = 1 := by decide +kernel

/-! RolesRollbacksAndSwaps -/

theorem test_premises_roles : (∀ r ∈ [1, 4], let b := recovery 3 0 (natLe 2 1 ++ natLe 1 r ++ zeros 9)
      12 ≤ b.length ∧ leField b 0 1 = 3 ∧ leField b 4 4 = jobTag (grouped {} 3).m ∧ serialNewer 32 0 (leField b 8 4) = false ∧ 24 ≤ b.length ∧
      leField b 12 2 = 1 ∧ leField b 14 1 = r) ∧ busyWithOther (grouped {} 3).m 1 = false ∧ busyWithOther (grouped { takenRole := some 2 } 3).m 1 = true ∧
    (∃ a ∈ [({ kind := 3, key := 1, dst := 9 } : AwaitMsg)], a.kind = 3 ∧ a.key = 1 ∧ a.dst = 9) ∧ holdsRole (grouped {} 3).m 0 = true ∧
    holdsRole (grouped {} 3).m 1 = false := by decide +kernel
theorem test_premises_role_acks : (∀ r ∈ [0, 2], let b := recovery 4 0 (natLe 2 1 ++ natLe 1 1 ++ natLe 1 r ++ zeros 8)
      12 ≤ b.length ∧ leField b 0 1 = 4 ∧ leField b 4 4 = jobTag (grouped {} 3).m ∧ serialNewer 32 0 (leField b 8 4) = false ∧ 24 ≤ b.length ∧
      leField b 14 1 = 1 ∧ leField b 15 1 = r) ∧ sameGroup 9 (ownAddr (grouped {} 3).m) = true ∧ sameGroup 65 (ownAddr (grouped {} 3).m) = false ∧
    (∃ w ∈ (grouped { wanted := [(1, 1)] } 3).m.grp.wanted, w.1 = 1) := by decide +kernel
theorem test_premises_rollbacks : (∀ r ∈ [1, 2], let b := recovery 5 1 (natLe 2 1 ++ zeros 2 ++ natLe 2 r ++ zeros 6)
      12 ≤ b.length ∧ leField b 0 1 = 5 ∧ leField b 4 4 = jobTag (grouped {} 3).m ∧ serialNewer 32 0 (leField b 8 4) = false ∧ 24 ≤ b.length ∧
      serialNewer 32 (leField b 8 4) 0 = true ∧ leField b 14 1 = bits (ownAddr (grouped {} 3).m) 9 6 ∧ leField b 16 2 = r) ∧
    jobRuns (grouped {} 3).m = true ∧ (∀ r < 1, (Sparse.find ([(0, some 7)] : Sparse (Option Nat)) r).join.isSome = true) ∧
    (let b := recovery 8 0 (natLe 2 1 ++ zeros 2 ++ zeros 2 ++ natLe 6 5)
     12 ≤ b.length ∧ leField b 0 1 = 8 ∧ leField b 12 2 = 1 ∧ 16 + 8 * 1 ≤ b.length ∧ leField b 18 6 = 5) := by decide +kernel
theorem test_premises_swaps : (let s := grouped { lowSteps := [(2, 8)], slacks := [(2, 8192)] } 3
     odNat s.m Od.STRAG_STEPS ≤ s.m.grp.lowSteps.get 0 (roleHolder s.m 1) ∧ 2 * (odNat s.m Od.STRAG_SLACK_PU : Int) ≤ slackMedian s.m ∧
     spareIdle s.m = true ∧ s.m.grp.master = ownAddr s.m ∧ jobRuns s.m = true) ∧ nowStep (grouped {} 3).m = 0 ∧
    roleRanks (grouped {} 3).m 0 = [0] ∧ sealedTo (grouped {} 3).m 5 0 = false ∧ roleCmdAbort (grouped {} 3).m 1 = none ∧
    roleCmdAbort (grouped {} 3).m 257 = none ∧ roleCmdAbort (grouped {} 3).m 63 = some 0x06090030 ∧ roleHolder (grouped {} 3).m 1 = 2 := by decide +kernel

/-! TheSafetyControllerReacts -/

/-- Tile 63 running with its canary due, the hubs' canaries due, a notice held and a watchdog late. -/
def guarded (x : Tile) (y : Safety) : State :=
  st { ({} : M8) with clk := { now := 10 ^ 10, hclk := 1600000 },
                      tiles := [(63, { x with st := .running, cycle := 2400000 })], safe := y }

theorem test_premises_held : (let s := guarded { cellCanary := (List.range 16).map fun c => (c, 5) } { held := [{ hub := 3, tile := 63, heldAt := 4 }], hubCanary := [(3, 5)] }
    s.awake ∧ s.m.safe.held[0]? = some { hub := 3, tile := 63, heldAt := 4 } ∧
    (∀ c ∈ liveCells (getTile s.m 63), 4 < (getTile s.m 63).cellCanary.get 0 c) ∧ 4 < s.m.safe.hubCanary.get 0 3 ∧ s.m.grp.fenced = false ∧
    s.m.safe.held[1]? = none) := by decide +kernel
theorem test_premises_canary : (let s := guarded {} {}
    (getTile s.m 63).canaryAt < (getTile s.m 63).cycle / ((2400 - 400 * s.m.pwr.point.get 0 (63 / 16)) * 1000) ∧ (getTile s.m 63).st = .running ∧
    liveCells (getTile s.m 63) ≠ [] ∧ (liveCells (getTile s.m 63)).filter (fun c => (0 : Nat).testBit c) = [] ∧
    (liveCells (getTile s.m 63)).filter (fun c => (65535 : Nat).testBit c) = liveCells (getTile s.m 63) ∧
    (liveCells (getTile s.m 63)).filter (fun c => (1 : Nat).testBit c) = [0] ∧ popcount 16 (getTile s.m 63).retired < 2 ∧
    s.m.safe.hubRuns.get 0 3 < (s.m.clk.hclk - s.m.safe.hubStart) / 1600000) := by decide +kernel
theorem test_premises_safety : (let q : Safety := { watches := [{ step := 7, rank := 2 }], detectTime := 5, tileCanary := [(63, 6)], hubCanary := [(0, 6), (1, 6), (2, 6), (3, 6)] }
    let s := guarded {} { q with gates := [(3, true)] }
    (∃ w ∈ s.m.safe.watches, w.step = 7 ∧ w.rank = 2 ∧ w.time + 1600000 ≤ s.m.clk.hclk) ∧ s.m.safe.gates.get false 3 = true ∧
    s.m.safe.detectTime + 10000 ≤ s.m.clk.now ∧ odNat (odSet s.m Od.SEAL_HOLD 1) Od.SEAL_HOLD = 1 ∧ serialNewer 32 1 s.m.safe.detectRb = true ∧
    (∀ t ∈ runningTiles s.m, 5 < s.m.safe.tileCanary.get 0 t) ∧ (∀ h < 4, s.m.pwr.domOff.get false h = true ∨ 5 < s.m.safe.hubCanary.get 0 h) ∧
    odNat (odSet s.m Od.SAFE_HB_ENABLE 1) Od.SAFE_HB_ENABLE = 1 ∧ 0 + odNat s.m Od.SAFE_HB_MS * 1000000 ≤ s.m.clk.now ∧
    jobLoaded (odSet s.m Od.JOB_STATE 2) = true ∧ jobLoaded s.m = false ∧ ({ ctrlAddr := 5 } : JobRec).ctrlAddr ≠ 0xFFFF) := by decide +kernel

/-! ResetsPowerSequenceSleepAndWake -/

/-- A package whose power is in a state. -/
def powered (x : Power) : State := st (odSet { ({} : M8) with clk := { now := 10 ^ 10 }, pwr := x } Od.SERIAL 7)

theorem test_premises_sequence : (powered {}).m.pwr.resetLow = false ∧ (powered { resetLow := true }).m.pwr.resetLow = true ∧
    (∀ q ∈ [SeqSt.up, .rising, .falling, .down, .waiting], (powered { seq := q }).m.pwr.seq = q) ∧ 0 + 1000000000 ≤ (powered {}).m.clk.now ∧
    (powered {}).awake ∧ odNat (powered {}).m Od.POWER_STATE = 0 ∧ jobLoaded (powered {}).m = false ∧
    jobLoaded (odSet (powered {}).m Od.JOB_STATE 3) = true := by decide +kernel
theorem test_premises_sleep : sleepAbort (powered {}).m 0 = some 0x06090030 ∧ sleepAbort (powered {}).m 0x51EE = none ∧ (∀ k < 6, (powered { sleepStage := k }).m.pwr.sleepStage = k) ∧
    (powered {}).m.dbg.stop = false ∧ ringsBusy (powered {}).m = false ∧ (∀ r ∈ (powered {}).m.fl.recs, r.durable = true) := by decide +kernel
theorem test_premises_wake : (let s := st (odSet (powered { seq := .down, wakeTag := zeros 16, wakeAt := some (0, 0) }).m Od.POWER_STATE 2)
    odNat s.m Od.POWER_STATE = 2 ∧ s.m.pwr.seq = .down ∧ s.m.pwr.resetLow = false ∧
    (let b := natLe 2 0x574B ++ natLe 2 1 ++ natLe 8 7 ++ zeros 20
     b.length = 32 ∧ leField b 0 2 = 0x574B ∧ leField b 2 1 = 1 ∧ leField b 3 1 = 0 ∧ leField b 4 8 = odNat s.m Od.SERIAL ∧
     leField b 12 4 = odNat s.m Od.SLEEP_SEQ ∧ s.m.pwr.wakeTag ≠ [] ∧ b.drop 16 = s.m.pwr.wakeTag)) ∧
    (let s := powered { seq := .rising, cause := 1, wakeAt := some (10 ^ 10, 0) }
     s.m.pwr.wakeAt = some (s.m.clk.now, s.m.clk.eighths) ∧ odNat s.m Od.POWER_STATE ≠ 2) := by decide +kernel

/-! OperatingPointsAgeingAndFirmware -/

/-- A package with a firmware manifest whose body hash is that of the empty body, in a FW_STATE. -/
def imaged (fw : Nat) (x : Power) : State :=
  st (odSet (odSet (powered { x with fwManifest := zeros 32 ++ sha384 [] ++ zeros 176 }).m Od.FW_STATE fw) Od.SEC_FUSE 0)

theorem test_premises_points : quadOpAbort (powered {}).m 3 4 = some 0x06090031 ∧ quadOpAbort (powered {}).m 3 3 = none ∧
    quadOpAbort (powered { point := [(3, 3)] }).m 3 0 = none ∧ (getRail (powered { point := [(3, 3)] }).m 3).target ≠ railMv (powered {}).m 3 0 ∧
    (powered { relock := [(3, true)] }).m.pwr.relock.get false 3 = true ∧ (getRail (powered { rails := [(3, { target := 790, outcome := 1 })] }).m 3).outcome = 1 ∧
    (0 : Nat) + odNat (powered {}).m Od.AVS_ACK_US * 1000 ≤ (powered {}).m.clk.now ∧ railMv (powered {}).m 3 0 = 790 := by decide +kernel
theorem test_premises_ageing : (odNat (powered {}).m Od.TEMP_WARN : Int) ≤ 2000 ∧ (odNat (powered {}).m Od.TEMP_TRIP : Int) ≤ 2000 ∧
    (grouped {} 3).m.grp.own ≠ [] ∧ (grouped {} 3).m.grp.fenced = false ∧ jobLoaded (grouped {} 3).m = true ∧
    ¬(0 + odNat (powered {}).m Od.REPLAN_DAYS * 86400000000000 ≤ (powered {}).m.clk.now) ∧ 8 ∈ List.range 9 ∧ railIdle (powered {}).m 8 = true := by decide +kernel
/-- A manifest of two body blocks, the last of one byte (R581), and its block (R582). -/
def manifest2 : Bytes := natLe 4 0x4D384657 ++ natLe 4 1 ++ zeros 16 ++ natLe 4 2 ++ natLe 4 1 ++ zeros 224
def block2 : Bytes := zeros 4 ++ natLe 4 256 ++ natLe 4 0x337AAA9E ++ zeros 4 ++ manifest2

theorem crc_append {a b : Bytes} {c v w : Nat} (x : a.foldl (crcByte 0x82F63B78) c = v)
    (y : b.foldl (crcByte 0x82F63B78) v = w) : (a ++ b).foldl (crcByte 0x82F63B78) c = w := by
  rw [List.foldl_append, x, y]
theorem crc_of {b : Bytes} {v w : Nat} (x : b.foldl (crcByte 0x82F63B78) 0xFFFFFFFF = v) (y : v ^^^ 0xFFFFFFFF = w) : crc32c b = w := by
  unfold crc32c
  rw [x, y]
theorem test_manifest_crc : crc32c manifest2 = 0x337AAA9E := by
  have e : manifest2 = manifest2.take 32 ++ (zeros 32 ++ (zeros 32 ++ (zeros 32 ++ (zeros 32 ++ (zeros 32 ++ (zeros 32 ++ zeros 32)))))) := by
    decide +kernel
  exact crc_of (e ▸ (crc_append (v := 393949056) (by decide +kernel)
    (crc_append (v := 3016487035) (by decide +kernel)
    (crc_append (v := 1917299036) (by decide +kernel)
    (crc_append (v := 2271086177) (by decide +kernel)
    (crc_append (v := 3067160533) (by decide +kernel)
    (crc_append (v := 3415257608) (by decide +kernel)
    (crc_append (v := 1146169610) (by decide +kernel)
    (by decide +kernel : (zeros 32).foldl (crcByte 0x82F63B78) 1146169610 = 3431290209))))))))) (by decide)
theorem test_premises_manifest : fwBlockAbort (imaged 0 {}).m 1 block2 = none := by
  have d : block2.drop 16 = manifest2 := by decide +kernel
  simp only [fwBlockAbort, blockResult, d, test_manifest_crc]
  decide +kernel
theorem test_premises_firmware : (imaged 2 {}).awake ∧ odNat (imaged 2 {}).m Od.FW_STATE = 2 ∧ fwBlockAbort (imaged 0 {}).m 1 [] = some 0x06090030 ∧
    (let s := imaged 1 { fwOwner := 1 }
     let m := modPwr s.m fun p => { p with fwManifest := zeros 24 ++ natLe 4 2 ++ natLe 4 1 ++ zeros 224 }
     fwBlockAbort m 1 (natLe 4 2 ++ natLe 4 1 ++ natLe 4 (crc32c [5#8]) ++ zeros 4 ++ [5#8]) = none) ∧
    fwActivateAbort (imaged 3 {}).m 0xAC71 = none ∧ fwActivateAbort (imaged 3 {}).m 0 = some 0x06090030 ∧
    fwConfirmAbort (imaged 7 {}).m 0xC0F1 = none ∧ fwConfirmAbort (imaged 7 {}).m 0 = some 0x06090030 := by decide +kernel
theorem test_premises_loader : sha384 (fwBody (imaged 5 {}).m) = slice (imaged 5 {}).m.pwr.fwManifest 32 48 ∧
    sha384 (fwBody (powered {}).m) ≠ slice (powered {}).m.pwr.fwManifest 32 48 := by
  have a : fwBody (imaged 5 {}).m = [] := by decide +kernel
  have b : fwBody (powered {}).m = [] := by decide +kernel
  have c : (imaged 5 {}).m.pwr.fwManifest = zeros 32 ++ sha384 [] ++ zeros 176 := rfl
  have d : (powered {}).m.pwr.fwManifest = [] := rfl
  rw [a, b, c, d]
  decide +kernel

/-! QuadrilleWorksOnTheFewestEvenBits -/

theorem test_premises_width : (∀ n ∈ [1, 2, 4, 5, 16, 17, 2 ^ 47, 2 ^ 48], 1 ≤ n ∧ n ≤ 2 ^ 48 ∧ 3 < 2 ^ (2 * qdrHalf n)) ∧
    [1, 4, 5, 16, 17, 2 ^ 46 + 1, 2 ^ 48].map qdrHalf = [1, 1, 2, 2, 3, 24, 24] ∧ (2 ≤ 4 ∧ 4 % 2 = 0 ∧ 5 ≤ 2 ^ 4) := by decide +kernel

/-! QuadrilleIsAPermutationAndItsInverse -/

theorem test_premises_permutation : 1 ≤ 3 ∧ 3 ≤ 2 ^ 48 ∧ 2 < 3 ∧ quadrille 5 6 3 7 2 < 3 ∧ quadrilleInv 5 6 3 7 (quadrille 5 6 3 7 2) = 2 := by decide +kernel

/-! EgressSendsTheHighestEligibleClass -/

theorem test_premises_classes : (let f : Frame := { cls := 3 }
    let m := (linked { credits := [(5, 1)] }).m
    let s := st { m with fab := { m.fab with egress := [(31 * 8 + 5, [f, f]), (31 * 8 + 7, [f])] } }
    s.awake ∧ acsalUp s.m 31 = true ∧ s.m.fab.units = [] ∧ s.m.fab.egress.get [] (31 * 8 + 5) = [f, f] ∧ eligible s.m 31 5 f = true ∧
      s.m.fab.egress.get [] (31 * 8 + 7) = [f] ∧ eligible s.m 31 7 f = false ∧ s.m.fab.egress.get [] (31 * 8 + 6) = []) ∧
    tcOf ({ cls := 3 } : Frame).cls = some 5 ∧ (∀ tc < 8, (linked {}).m.fab.egress.get [] (31 * 8 + tc) = []) := by decide +kernel

/-! ### WellFormed refuses an ill-formed operand of each kind -/

theorem test_wellformed_refuses_units : ([.pkgFenceStart 0x4C, .pkgFenceStart 0x72, .cellSelfCheckFail 64 0, .cellSelfCheckFail 0 16,
    .transferAdmit 0 8 0 0, .cdcSubmit 0 4 0, .intClaim 8, .poolTake 0 0 2 0, .poolTake 0 0 0 256, .portEnable 0 32, .laneSwap 0 8 0 0,
    .laneSwap 0 0 18 0, .laneMonitorUpdate 144 0 0 0 0, .codecCompress 0 16, .tokenise 0 4, .dmaStart 0 0 64, .grammarTailWrite 0 64 0 true,
    .wordlineProgramDone 5, .roceAckReceive 0 4 0, .stepLatchFire 0 4096, .authLockoutEnd 4, .ringEnable 0 64 true,
    .ringEnable 0 2048 true] : List Instr).all (fun c => !c.wellFormed) = true := by decide

theorem test_wellformed_refuses_fields : ([.regWrite 0 (2 ^ 48) 8 0, .regWrite 0 0 3 0, .tileHwFault 0 0 256 0, .timingPacket 65536 [],
    .dictStoreComplete (2 ^ 24) true, .sessionIdleTimeout (2 ^ 32), .windowOpen 0 (2 ^ 48), .flaggedWriteIssue (2 ^ 64),
    .healthUpdate (2 ^ 15), .healthUpdate (-2 ^ 15 - 1), .nop 0 0 { sd := 32 }, .nop 0 0 { imm := 2 ^ 32 }, .dictRead { path := 5 },
    .dictRead { index := 65536 }, .dictWrite {} [{ sub := 256 }]] : List Instr).all (fun c => !c.wellFormed) = true := by decide

theorem test_wellformed_accepts : ([.pkgFenceStart 0x71, .cellSelfCheckFail 63 15, .transferAdmit 63 7 65535 (2 ^ 48 - 1), .intClaim 7,
    .poolTake 0x4B 3 1 255, .portEnable 0 31, .laneSwap 0 7 17 17, .codecCompress 3 15, .dmaStart 0 3 63, .stepLatchFire 63 4095,
    .ringEnable 0 63 true, .ringEnable 0 2047 true, .regWrite 0 (2 ^ 48 - 1) 8 (2 ^ 64 - 1), .healthUpdate (-2 ^ 15),
    .nop 63 7 { sd := 31, imm := 2 ^ 32 - 1 }, .dictWrite {} [{ sub := 255 }]] : List Instr).all Instr.wellFormed = true := by decide

/-! ### Values the spec's tables and examples give -/

/-- The check value of the slot digest (R167). -/
theorem test_crc64_check : crc64xz (ascii "123456789") = 0x995DC9BBDF1939FA := by decide +kernel

/-- The first round constants of R272's table. -/
theorem test_round_constants : [0, 1, 2].map qdrRc = [0x9E3779B97F4A7C15#64, 0x3C6EF372FE94F82A#64, 0xDAA66D2C7DDF743F#64] := by decide +kernel

/-- N = 48,000,000 takes m = 26, h = 13 (the example after R277). -/
theorem test_quadrille_half : qdrHalf 48000000 = 13 := by decide +kernel

/-- The example after R366: "carcass" under the vocabulary of "ca", "car" and "si". -/
theorem test_tokenise_carcass : tokeniseChunk [(0x63, 0x61), (258, 0x72), (0x73, 0x69)] 7 ((ascii "carcass").map BitVec.toNat) =
    [259, 258, 115, 115] := by decide +kernel

/-- The worked block before R327: eight U8 elements in mode LEFT with the static table. -/
theorem test_codec_worked_block : (let ts := tokens 9 [200, 4, 0, 0, 0, 1, 6, 0]
    blockResidues 0x00 1 8 #[100, 102, 102, 102, 102, 101, 104, 104] #[] = [200, 4, 0, 0, 0, 1, 6, 0] ∧
    payload staticLens ts = [0xFC#8, 0x91#8, 0x4D#8, 0xB6#8, 0x00#8] ∧
    blockHeader 1 0 0 1 5 true false false false = natLe 1 0x18 ++ zeros 3 ++ natLe 1 1 ++ zeros 3 ++ natLe 1 5 ++ zeros 7) := by decide +kernel

/-- The example after R410: member index 9 of 23 writes data chunk 100 with 12 data and 4 parity chunks a stripe. -/
theorem test_stripe_example : stripeOf 12 23 9 100 = (189, 4) ∧ [0, 1, 2, 3].map (parityMember 12 23 189) = [17, 18, 19, 20] := by decide +kernel

/-- The example after R478: the entries that match 0.1.9, and the hash of the two frames. -/
theorem test_route_example : ([0xC003FF8000000011, 0xC001F80000000100, 0xE021F80000001000, 0xA000000000002000].map fun e =>
      (routeMatches e 0x0049, bits e 62 59, bits e 31 0)) =
    [(true, 8, 0x11), (true, 8, 0x100), (false, 12, 0x1000), (true, 4, 0x2000)] ∧
    (0x0049 ^^^ 0x0005 ^^^ 0x0012 ^^^ 8 * 256) = 0x085E := by decide +kernel

/-- The published vector of Philox-4x32-10 for counter and key 0, whose definition R278 takes over. -/
theorem test_philox_zero : philox ⟨0, 0, 0, 0⟩ 0 0 = ⟨0x6627E8D5, 0xE169C58D, 0xBC57AC4C, 0x9B00DBD8⟩ := by decide +kernel

end Tests
end Sys2Proof
end

/-!
PROOFS of the statements of scope: what memory, interrupts, entries and package fences read as after the operations a write of an
agent comes to, and where in the package address space such a write arrives (R16, R37 to R46, R61, R62, R104).
-/
namespace Sys2Proof
namespace Machine

/-! ### Memory: the bytes written read back -/

@[simp] theorem natLe_length (k n : Nat) : (natLe k n).length = k := by
  induction k generalizing n with
  | zero => rfl
  | succ k ih => simp [natLe, ih]

/-- The interleaved address of a byte of a stack's row: rows of 4 KiB go around the eight stacks (R39). -/
theorem interleavedAddr_row (stack row byte : Nat) (hs : stack < 8) (hr : row < 0x1000000) (hb : byte < 4096) :
    interleavedAddr (stack * 0x1000000000 + (row * 4096 + byte)) = 0x010000000000 + row * 32768 + stack * 4096 + byte := by
  have hin : (stack * 0x1000000000 + (row * 4096 + byte)) % 0x1000000000 = row * 4096 + byte := by omega
  have hstack : (stack * 0x1000000000 + (row * 4096 + byte)) / 0x1000000000 = stack := by omega
  have hbyte : (stack * 0x1000000000 + (row * 4096 + byte)) % 4096 = byte := by omega
  simp only [interleavedAddr, hin, hstack, hbyte, Nat.shiftRight_eq_div_pow, Nat.shiftLeft_eq, Nat.reducePow]
  omega

/-- The cell an offset of the interleaved view names is one of HBM, and its interleaved address gives the offset back (R39). -/
theorem interleavedAddr_hbmInterleaved {off k : Nat} (h : hbmInterleaved off = some k) :
    k < 0x8000000000 ∧ interleavedAddr k = 0x010000000000 + off := by
  obtain ⟨hoff, hk⟩ := Option.ite_none_left_eq_some.1 h
  obtain rfl := Option.some.inj hk
  simp only [hbmView] at hoff
  simp only [Nat.shiftRight_eq_div_pow, Nat.shiftLeft_eq, Nat.reducePow]
  rw [interleavedAddr_row _ _ _ (by omega) (by omega) (by omega)]
  omega

/-- An address that names a cell is the cell's own or its address in the interleaved view. -/
theorem memKey_eq_some {a k : Nat} (h : memKey a = some k) : a = k ∨ a = interleavedAddr k ∧ 0x010000000000 ≤ a ∧ k < 0x8000000000 := by
  unfold memKey at h
  split at h
  · split at h <;> simp_all
  · split at h
    · next hv =>
      simp only [Bool.and_eq_true, decide_eq_true_eq] at hv
      have := interleavedAddr_hbmInterleaved h
      omega
    · left
      grind

/-- Two addresses less than the direct view's size apart name different cells: only the direct and the interleaved view share
cells, and they stand further apart (R37 to R39). -/
theorem memKey_ne_of_near {a b k : Nat} (hab : a < b) (hnear : b < a + 0x8000000000) (ha : memKey a = some k) :
    memKey b ≠ some k := by
  intro hb
  obtain h | ⟨h, h1, h2⟩ := memKey_eq_some ha <;> obtain h' | ⟨h', h1', h2'⟩ := memKey_eq_some hb <;> omega

theorem inMem_succ (a n : Nat) : inMem a (n + 1) = ((memKey a).isSome && inMem (a + 1) n) := rfl

theorem writeMem_cons (s : M8) (a : Nat) (b : Byte) (bs : Bytes) (h : (memKey a).isSome = true) :
    writeMem s a (b :: bs) = writeMem (writeMem s a [b]) (a + 1) bs := by
  obtain ⟨k, hk⟩ := Option.isSome_iff_exists.1 h
  simp [writeMem, putBytes, hk]

/-- Bytes written where memory stands read back. -/
theorem readMem_writeMem (s : M8) (a : Nat) (bs : Bytes) (hin : inMem a bs.length = true) (hlen : bs.length ≤ 0x8000000000) :
    readMem (writeMem s a bs) a bs.length = some bs := by
  induction bs generalizing s a with
  | nil => rfl
  | cons b bs ih =>
    simp only [List.length_cons, inMem_succ, Bool.and_eq_true] at hin hlen
    obtain ⟨ha, hin⟩ := hin
    obtain ⟨k, hk⟩ := Option.isSome_iff_exists.1 ha
    have hfirst : memByte (writeMem s a (b :: bs)) a = some b := by
      rw [writeMem_cons s a b bs ha, memByte_writeMem_other, memByte_writeMem_one s a b ha]
      intro i hi
      exact .inl (hk ▸ memKey_ne_of_near (by omega) (by omega) hk)
    have hrest := ih (writeMem s a [b]) (a + 1) hin (by omega)
    rw [← writeMem_cons s a b bs ha] at hrest
    simp [readMem, hfirst, hrest]

/-- Writing the low n bytes of v stores them and nothing else. -/
theorem writeMem_stored (s : M8) (a n v : Nat) (hin : inMem a n = true) (hn : n ≤ 0x8000000000) :
    Stored a n v s (writeMem s a (natLe n v)) where
  bytes := by simpa using readMem_writeMem s a (natLe n v) (by simpa using hin) (by simpa using hn)
  memory k hk := memByte_writeMem_other s a _ k fun i hi => .inl (hk i (by simpa using hi))

/-! ### Interrupts: what an edge and a line leave as they were -/

@[simp] theorem wakeTarget_addrErr (s : M8) (g id : Nat) : (wakeTarget s g id).intc.addrErr = s.intc.addrErr := by
  unfold wakeTarget
  dsimp only
  split <;> rfl

@[simp] theorem sourceEdge_addrErr (s : M8) (id : Nat) : (sourceEdge s id).intc.addrErr = s.intc.addrErr := by
  unfold sourceEdge
  split
  · rfl
  · dsimp only
    split <;> split <;> simp [setSrc]

@[simp] theorem setLine_addrErr (s : M8) (id : Nat) (level : Bool) : (setLine s id level).intc.addrErr = s.intc.addrErr := by
  unfold setLine
  split
  · rfl
  · dsimp only
    split <;> simp [setSrc]

/-- An edge does not move a line. -/
@[simp] theorem getSrc_sourceEdge_line (s : M8) (id j : Nat) : (getSrc (sourceEdge s id) j).line = (getSrc s j).line := by
  by_cases hj : j = id
  · subst hj
    unfold sourceEdge
    split
    · rfl
    · dsimp only
      split <;> split <;> simp
  · rw [getSrc_sourceEdge_other s id j hj]

/-- A line takes the level it is set to (R593). -/
theorem getSrc_setLine_line (s : M8) (id : Nat) (level : Bool) (h : id ≤ 0x18C) : (getSrc (setLine s id level) id).line = level := by
  unfold setLine
  rw [if_neg (by omega)]
  dsimp only
  split <;> simp

/-- A line of one source leaves every other source as it was. -/
theorem getSrc_setLine_other (s : M8) (id j : Nat) (level : Bool) (h : j ≠ id) : getSrc (setLine s id level) j = getSrc s j := by
  unfold setLine
  split
  · rfl
  · dsimp only
    split <;> simp [getSrc_sourceEdge_other, getSrc_setSrc, h]

@[simp] theorem getTgt_odInc (s : M8) (k g : Nat) : getTgt (odInc s k) g = getTgt s g := rfl

@[simp] theorem getSrc_setTgt (s : M8) (g j : Nat) (x : IntTarget) : getSrc (setTgt s g x) j = getSrc s j := rfl

@[simp] theorem getTgt_setTgt_self (s : M8) (g : Nat) (x : IntTarget) : getTgt (setTgt s g x) g = x := by simp [getTgt_setTgt]

/-- A wake leaves what is pending as it was (R597). -/
@[simp] theorem wakeTarget_privPend (s : M8) (g id h : Nat) : (getTgt (wakeTarget s g id) h).privPend = (getTgt s h).privPend := by
  unfold wakeTarget
  dsimp only
  split
  · by_cases hh : h = g <;> simp [getTgt_setTgt, hh]
  · rfl

@[simp] theorem getSrc_privEdge (s : M8) (g b j : Nat) : getSrc (privEdge s g b) j = getSrc s j := by
  unfold privEdge
  dsimp only
  split <;> split <;> simp

/-- A rising edge leaves the source of its pair pending (R594, R595). -/
theorem privEdge_pending (s : M8) (g b : Nat) : (getTgt (privEdge s g b) g).privPend.testBit b = true := by
  unfold privEdge
  dsimp only
  split <;> split <;> simp_all [Nat.testBit_or, Nat.testBit_two_pow_self]

/-! ### What an update of interrupts alone leaves as it was -/

theorem IntOnly.mem {a b : M8} (h : IntOnly a b) : b.mem = a.mem := by rw [h]

theorem IntOnly.pav {a b : M8} (h : IntOnly a b) : b.pav = a.pav := by rw [h]

theorem IntOnly.fences {a b : M8} (h : IntOnly a b) : b.fences = a.fences := by rw [h]

/-! ### Entries: what interrupts count -/

theorem EntriesBut.of_dict {ks : List Nat} {a b : M8} (h : b.dict = a.dict) : EntriesBut ks a b :=
  ⟨by rw [h], fun k _ => by simp only [odGet, h]⟩

theorem EntriesBut.trans {ks : List Nat} {a b c : M8} (h : EntriesBut ks a b) (h' : EntriesBut ks b c) : EntriesBut ks a c :=
  ⟨by rw [h'.engine, h.engine], fun k hk => by rw [h'.others k hk, h.others k hk]⟩

theorem EntriesBut.ite {ks : List Nat} {a x y : M8} {c : Prop} [Decidable c] (hx : EntriesBut ks a x) (hy : EntriesBut ks a y) :
    EntriesBut ks a (if c then x else y) := by
  split <;> assumption

theorem odInc_entries (s : M8) (k : Nat) : EntriesBut [k] s (odInc s k) :=
  ⟨rfl, fun j hj => odGet_odPut_other s k j _ (by simpa using hj)⟩

theorem wakeTarget_dict (s : M8) (g id : Nat) : (wakeTarget s g id).dict = s.dict := by
  unfold wakeTarget
  dsimp only
  split <;> rfl

/-- A wake that may follow an update. -/
theorem EntriesBut.wake {ks : List Nat} {a b : M8} {c : Prop} [Decidable c] {g id : Nat} (h : EntriesBut ks a b) :
    EntriesBut ks a (if c then wakeTarget b g id else b) :=
  .ite (h.trans (.of_dict (wakeTarget_dict ..))) h

/-- An edge counts an overrun at most (R595). -/
theorem sourceEdge_entries (s : M8) (id : Nat) : EntriesBut [Od.INT_OVERRUNS] s (sourceEdge s id) :=
  .ite (.of_dict rfl) (.wake (.ite (.trans (b := setSrc s id _) (.of_dict rfl) (odInc_entries ..)) (.of_dict rfl)))

theorem setLine_entries (s : M8) (id : Nat) (level : Bool) : EntriesBut [Od.INT_OVERRUNS] s (setLine s id level) :=
  .ite (.of_dict rfl) (.ite (.trans (b := setSrc s id _) (.of_dict rfl) (sourceEdge_entries ..)) (.of_dict rfl))

theorem privEdge_entries (s : M8) (g b : Nat) : EntriesBut [Od.INT_OVERRUNS] s (privEdge s g b) :=
  .wake (.ite (odInc_entries ..) (.of_dict rfl))

/-! ### Address errors -/

theorem agentHub_lt (agent : Nat) : agentHub agent < 4 := by
  unfold agentHub
  grind

/-- All that an address-error event does (R41, R601). -/
theorem addressError_errs (s : M8) (agent addr : Nat) : AddressErrs agent addr s (addressError s agent addr) where
  held := by simp [addressError]
  otherHubs h hh := by simp [addressError, Sparse.get_set_other _ _ _ _ _ hh]
  line := getSrc_setLine_line _ _ _ (by have := agentHub_lt agent; omega)
  otherSources i hi := getSrc_setLine_other _ _ _ _ hi
  entries := by
    refine EntriesBut.trans ?_ (setLine_entries _ _ _)
    exact .of_dict rfl
  rest := addressError_int ..

theorem coreOnly_refused {agent : Nat} (h : isCore agent = false) (s : M8) (a : Nat) (f : M8 → M8) :
    coreOnly s agent a f = addressError s agent a := by simp [coreOnly, h]

/-! ### A write of the bits of a register -/

/-- The bits of y taken out of x (W1C, R16). -/
theorem testBit_sub_and (x y i : Nat) : (x - (x &&& y)).testBit i = (x.testBit i && !y.testBit i) := by
  induction i generalizing x y with
  | zero =>
    have hle : x &&& y ≤ x := Nat.and_le_left
    have hm : (x &&& y) % 2 = x % 2 &&& y % 2 := Nat.and_mod_two_pow (n := 1)
    generalize x &&& y = z at hle hm
    obtain hx | hx := Nat.mod_two_eq_zero_or_one x <;> obtain hy | hy := Nat.mod_two_eq_zero_or_one y <;>
      simp [hx, hy] at hm ⊢ <;> omega
  | succ i ih =>
    have hd : (x &&& y) / 2 = x / 2 &&& y / 2 := Nat.and_div_two
    have hm : (x &&& y) % 2 = x % 2 &&& y % 2 := Nat.and_mod_two_pow (n := 1)
    have hhalf : ∀ z, z / 2 ≤ x / 2 → z % 2 ≤ x % 2 → (x - z) / 2 = x / 2 - z / 2 := fun z _ _ => by omega
    rw [Nat.testBit_succ, Nat.testBit_succ, Nat.testBit_succ, ← ih, ← hd,
      hhalf _ (hd ▸ Nat.and_le_left) (hm ▸ Nat.and_le_left)]

/-! ### Package fences -/

/-- A package fence that starts sets PEND of its agent and of no other (R61). -/
theorem fenceStart_get (s : M8) (agent k : Nat) :
    (fenceStart s agent).fences.get false k = (k == agent || s.fences.get false k) := by
  by_cases h : k = agent <;> simp [fenceStart, Sparse.get_set, h]

/-! ### Writes of agents over the address space -/

/-- A size of a register access (R16). -/
abbrev AccessSize (n : Nat) : Prop := n = 1 ∨ n = 2 ∨ n = 4 ∨ n = 8

/-- A command of a stoppable part ends, while the block runs, in what its meaning makes of the machine. -/
theorem ends_live {c : Instr} {s : State} {g : M8 → M8} {P : M8 → Prop} (hs : s.awake) (hc : exec c s = live s g) (h : P (g s.m)) :
    Ends c s P :=
  ⟨g s.m, by rw [hc, live_awake s g hs.1 hs.2], h⟩

theorem regWriteBy_of_some {s m : M8} {agent a n v : Nat} (hn : AccessSize n) (h : spaceWrite s agent a n v = some m) :
    regWriteBy s agent a n v = m := by
  obtain rfl | rfl | rfl | rfl := hn <;> simp [regWriteBy, h]

/-- Where there is nothing to write to, a write is an address error (R41). -/
theorem regWriteBy_of_none {s : M8} {agent a n v : Nat} (hn : AccessSize n) (h : spaceWrite s agent a n v = none) :
    regWriteBy s agent a n v = addressError s agent a := by
  obtain rfl | rfl | rfl | rfl := hn <;> simp [regWriteBy, h]

/-- A domain that is off takes no write (R41, R562). -/
theorem spaceWrite_off {s : M8} {agent a n v : Nat} (h : unitOff s a = true) : spaceWrite s agent a n v = none := by
  simp [spaceWrite, h]

/-- A unit's write to memory below the mailbox that is no word another unit looks after stores its bytes (R46). -/
theorem spaceWrite_mem {s : M8} {agent a n v : Nat} (hag : agent ≠ 0x70) (hoff : unitOff s a = false) (hin : inMem a n = true)
    (htail : tailsTouched a n = none) (hpool : inPoolTables s a = false) (hlt : a < 0x030000000000) :
    spaceWrite s agent a n v = some (writeMem s a (natLe n v)) := by
  have h1 : ¬ 0x030001009000 ≤ a := by omega
  have h2 : ¬ 0x030001008800 ≤ a := by omega
  simp [spaceWrite, memWrite, hag, hoff, hin, htail, hpool, h1, h2]

/-- An access of a wrong form finds nothing outside memory (R16, R41, assumption log 52). -/
theorem spaceWrite_misformed {s : M8} {agent a n v : Nat} (hin : inMem a n = false) (hok : accessOk a n = false) :
    spaceWrite s agent a n v = none := by
  simp [spaceWrite, hin, hok]

/-- A unit's write of proper form that meets neither memory nor sync objects goes to a register's granule. -/
theorem spaceWrite_reg {s : M8} {agent a n v : Nat} (hag : agent ≠ 0x70) (hoff : unitOff s a = false) (hin : inMem a n = false)
    (hok : accessOk a n = true) (hsync : syncAt a = none) (hge : 0x030000000000 ≤ a) :
    spaceWrite s agent a n v =
      regWrite s agent (a / 8 * 8) ((2 ^ (8 * n) - 1) * 2 ^ (8 * (a % 8))) (v % 2 ^ (8 * n) * 2 ^ (8 * (a % 8))) := by
  simp [spaceWrite, hag, hoff, hin, hok, hsync, Nat.not_lt.mpr hge]

/-- A granule that holds nothing takes no write; only a port of an optical engine may take one while it reads as nothing. -/
theorem regWrite_hole {s : M8} {agent a mask v : Nat} (h : regGranule s agent a = .hole) (ha : a < 0x030003000000 ∨ 0x030003800000 ≤ a) :
    regWrite s agent a mask v = none := by
  have hoe : (decide (0x030003000000 ≤ a) && decide (a < 0x030003800000)) = false := by
    simp only [Bool.and_eq_false_iff, decide_eq_false_iff_not]
    omega
  simp [regWrite, h, hoe]

/-- Where no memory, sync object or register stands, and no port of an optical engine, there is nothing to write to (R41). -/
theorem spaceWrite_hole {s : M8} {agent a n v : Nat} (hin : inMem a n = false) (hsync : syncAt a = none)
    (hreg : regGranule s agent (a / 8 * 8) = .hole) (ha : a < 0x030003000000 ∨ 0x030003800000 ≤ a) :
    spaceWrite s agent a n v = none := by
  simp [spaceWrite, hin, hsync, regWrite_hole hreg (by omega)]

/-- No memory stands at or above the registers but the mailbox buffers (R37). -/
theorem inMem_reg {a n : Nat} (hn : n ≠ 0) (ha : 0x030000000000 ≤ a) (hbuf : a < 0x030001008800 ∨ 0x030001009800 ≤ a) : inMem a n = false := by
  obtain ⟨k, rfl⟩ := Nat.exists_eq_succ_of_ne_zero hn
  have hkey : memKey a = none := by
    unfold memKey
    grind
  simp [inMem, hkey]

theorem syncAt_reg {a : Nat} (ha : 0x030000000000 ≤ a) : syncAt a = none := by
  simp only [syncAt, Bool.and_eq_true, decide_eq_true_eq]
  rw [if_neg (by omega)]

/-- The write to a register's granule that an aligned write of a unit is. -/
theorem spaceWrite_granule {s : M8} {agent a n v : Nat} (hag : agent ≠ 0x70) (hn : AccessSize n) (h8 : a % 8 = 0)
    (hoff : unitOff s a = false) (ha : 0x030000000000 ≤ a) (hbuf : a < 0x030001008800 ∨ 0x030001009800 ≤ a) :
    spaceWrite s agent a n v = regWrite s agent a (2 ^ (8 * n) - 1) (v % 2 ^ (8 * n)) := by
  have hok : accessOk a n = true := by
    obtain rfl | rfl | rfl | rfl := hn <;> simp [accessOk] <;> omega
  rw [spaceWrite_reg hag hoff (inMem_reg (by omega) ha hbuf) hok (syncAt_reg ha) ha, h8, Nat.div_mul_cancel (Nat.dvd_of_mod_eq_zero h8)]
  simp

theorem tileRegAddr_zero (t : Nat) : tileRegAddr t 0 = 0x030000000000 + t * 0x10000 := by rw [tileRegAddr, Nat.add_zero]

/-- A write of REEL_CTL is one of its tile's registers (R214). -/
theorem regWrite_reelCtl {s : M8} {agent t mask v : Nat} (ht : t < 64) (hoff : unitOff s (tileRegAddr t 0) = false) :
    regWrite s agent (tileRegAddr t 0) mask v = some (tileRegWrite s agent t 0 mask v) := by
  have hlo : 0x030000000000 ≤ tileRegAddr t 0 := by simp [tileRegAddr]
  have hhi : tileRegAddr t 0 < 0x030000400000 := by rw [tileRegAddr_zero]; omega
  have htile : (tileRegAddr t 0 - 0x030000000000) / 0x10000 = t := by simp [tileRegAddr]
  have hreg : tileRegAddr t 0 % 0x10000 = 0 := by rw [tileRegAddr_zero]; omega
  have hval : regGranule s agent (tileRegAddr t 0) = .val 0 := by simp [regGranule, hoff, hlo, hhi, hreg, tileReg]
  simp [regWrite, hval, htile, hreg, show tileRegAddr t 0 < 0x030001000000 by omega]

/-- The package control block is in no domain that can be off (R562). -/
theorem unitOff_pkg {s : M8} {off : Nat} : unitOff s (0x030004000000 + off) = false := by
  have h (k : Nat) (hk : k ≤ 0x030004000000) : ¬ 0x030004000000 + off < k := by omega
  simp [unitOff, h]

/-- A write of a register of the package control block (R61, R104). -/
theorem regWrite_pkg {s : M8} {agent off mask v : Nat} (hlt : off < 0x1000) (hreg : pkgReg s agent off ≠ .hole) :
    regWrite s agent (0x030004000000 + off) mask v = some (pkgRegWrite s agent off mask v) := by
  have h (k : Nat) (hk : k ≤ 0x030004000000) : ¬ 0x030004000000 + off < k := by omega
  have hmod : (0x030004000000 + off) % 0x1000 = off := by omega
  have hend : ¬ 0x030004001000 ≤ 0x030004000000 + off := by omega
  have hval : regGranule s agent (0x030004000000 + off) = pkgReg s agent off := by
    simp [regGranule, unitOff_pkg, h, hend, hmod]
  simp [regWrite, hval, hreg, h, hmod]

/-- A write of START sets PEND of the writing agent (R61). -/
theorem spaceWrite_fenceStart {s : M8} {agent n v : Nat} (hag : agent ≠ 0x70) (hn : AccessSize n) (hv : v.testBit 0 = true) :
    spaceWrite s agent 0x030004000040 n v = some (fenceStart s agent) := by
  have hbit : ((v % 2 ^ (8 * n)) &&& (2 ^ (8 * n) - 1)).testBit 0 = true := by
    rw [Nat.and_two_pow_sub_one_eq_mod, Nat.mod_mod, Nat.testBit_mod_two_pow, hv, Bool.and_true, decide_eq_true_eq]
    omega
  rw [spaceWrite_granule hag hn rfl (unitOff_pkg (off := 0x40)) (by omega) (by omega),
    regWrite_pkg (off := 0x40) (by omega) (by simp [pkgReg])]
  simp only [pkgRegWrite, hbit, if_true]

/-- PAV_EVENT with the bits of v taken away, and the line of its source (R104, R593). -/
def pavCleared (s : M8) (v : Nat) : M8 :=
  let e := s.pav.event - (s.pav.event &&& v)
  setLine { s with pav := { s.pav with event := e } } 0x148 (e != 0)

/-- An 8-byte write of PAV_EVENT clears the bits it writes 1 to (R104). -/
theorem spaceWrite_pavEvent {s : M8} {agent v : Nat} (hag : agent ≠ 0x70) :
    spaceWrite s agent 0x030004000120 8 v = some (pavCleared s (v % 2 ^ 64)) := by
  rw [spaceWrite_granule hag (by omega) rfl (unitOff_pkg (off := 0x120)) (by omega) (by omega),
    regWrite_pkg (off := 0x120) (by omega) (by simp [pkgReg])]
  have hmask : (v % 2 ^ (8 * 8)) &&& (2 ^ (8 * 8) - 1) = v % 2 ^ 64 := by
    rw [Nat.and_two_pow_sub_one_eq_mod, Nat.mod_mod]
  simp only [pkgRegWrite, pavCleared, hmask, Nat.reduceEqDiff, if_false, if_true]

/-- Taking bits from PAV_EVENT changes Pavane in those bits and may raise or drop its source. -/
theorem pavCleared_int (s : M8) (v : Nat) :
    IntOnly { s with pav := { s.pav with event := s.pav.event - (s.pav.event &&& v) } } (pavCleared s v) := setLine_int ..

theorem pavCleared_line (s : M8) (v : Nat) : (getSrc (pavCleared s v) 0x148).line = (s.pav.event - (s.pav.event &&& v) != 0) :=
  getSrc_setLine_line _ _ _ (by omega)

theorem pavCleared_entries (s : M8) (v : Nat) : EntriesBut [Od.INT_OVERRUNS] s (pavCleared s v) := by
  refine EntriesBut.trans ?_ (setLine_entries _ _ _)
  exact .of_dict rfl

/-- What a write of PAV_EVENT does: it clears the bits of its low word, the source's line follows, and nothing else of Pavane and
no byte of memory changes (R104). -/
theorem pavCleared_clears (s : M8) (v : Nat) :
    let m := pavCleared s (v % 2 ^ 64)
    (∀ i < 64, m.pav.event.testBit i = (s.pav.event.testBit i && !v.testBit i)) ∧
    m.pav = { s.pav with event := m.pav.event } ∧ (getSrc m 0x148).line = (m.pav.event != 0) ∧ m.mem = s.mem ∧
    EntriesBut [Od.INT_OVERRUNS] s m := by
  have hpav := (pavCleared_int s (v % 2 ^ 64)).pav
  refine ⟨fun i hi => ?_, by rw [hpav], ?_, (pavCleared_int s _).mem, pavCleared_entries s _⟩
  · rw [hpav, testBit_sub_and, Nat.testBit_mod_two_pow]
    simp [hi]
  · rw [hpav]
    exact pavCleared_line s _

/-- A package fence that is done clears PEND of its agent and of no other; a core pends source 34 of its pair (R62, R594). -/
def fenceDone (s : M8) (agent : Nat) : M8 :=
  let s := { s with fences := s.fences.set false agent false }
  if isCore agent then privEdge s (agent - 0x40) 34 else s

theorem fenceDone_get (s : M8) (agent k : Nat) :
    (fenceDone s agent).fences.get false k = (k != agent && s.fences.get false k) := by
  have hf : (fenceDone s agent).fences = s.fences.set false agent false := by
    unfold fenceDone
    dsimp only
    split
    · exact (privEdge_int ..).fences
    · rfl
  by_cases h : k = agent <;> simp [hf, Sparse.get_set, h]

theorem fenceDone_other {agent : Nat} (s : M8) (h : isCore agent = false) :
    fenceDone s agent = { s with fences := (fenceDone s agent).fences } := by simp [fenceDone, h]

/-- A core's fence that is done pends source 34 of its pair and changes no shared source (R62, R594). -/
theorem fenceDone_core {agent : Nat} (s : M8) (h : isCore agent = true) :
    (getTgt (fenceDone s agent) (agent - 0x40)).privPend.testBit 34 = true ∧
    (∀ i, getSrc (fenceDone s agent) i = getSrc s i) ∧ EntriesBut [Od.INT_OVERRUNS] s (fenceDone s agent) ∧
    fenceDone s agent = { s with
      fences := (fenceDone s agent).fences, intc := (fenceDone s agent).intc, dict := (fenceDone s agent).dict } := by
  have hd : fenceDone s agent = privEdge { s with fences := s.fences.set false agent false } (agent - 0x40) 34 := by
    simp [fenceDone, h]
  have hint := privEdge_int { s with fences := s.fences.set false agent false } (agent - 0x40) 34
  rw [hd]
  refine ⟨privEdge_pending .., fun i => getSrc_privEdge .., ?_, ?_⟩
  · refine EntriesBut.trans ?_ (privEdge_entries _ _ _)
    exact .of_dict rfl
  · rw [hint.fences]
    exact hint

/-! ### What a write of a unit ends in -/

/-- A write that finds something ends in what the address space makes of it. -/
theorem ends_regWrite {s : State} {m : M8} {agent a n v : Nat} {P : M8 → Prop} (hs : s.awake) (hn : AccessSize n)
    (hw : spaceWrite s.m agent a n v = some m) (hP : P m) : Ends (.regWrite agent a n v) s P :=
  ends_live (g := fun m => regWriteBy m agent a n v) hs (exec_regWrite ..) (by rwa [regWriteBy_of_some hn hw])

/-- A write that finds nothing ends in an address error (R41). -/
theorem ends_regWrite_nothing {s : State} {agent a n v : Nat} (hs : s.awake) (hn : AccessSize n)
    (hw : spaceWrite s.m agent a n v = none) : Ends (.regWrite agent a n v) s (AddressErrs agent a s.m) :=
  ends_live (g := fun m => regWriteBy m agent a n v) hs (exec_regWrite ..)
    (by rw [regWriteBy_of_none hn hw]; exact addressError_errs ..)

/-- A unit's write of REEL_CTL, which the control cores alone may write, is an address error (R41, R214). -/
theorem ends_regWrite_reelCtl {s : State} {agent t n v : Nat} (hs : s.awake) (hag : agent ≠ 0x70) (hn : AccessSize n) (ht : t < 64)
    (hcore : isCore agent = false) (hoff : unitOff s.m (tileRegAddr t 0) = false) :
    Ends (.regWrite agent (tileRegAddr t 0) n v) s (AddressErrs agent (tileRegAddr t 0) s.m) := by
  have haddr := tileRegAddr_zero t
  refine ends_regWrite hs hn ?_ (addressError_errs s.m agent (tileRegAddr t 0))
  rw [spaceWrite_granule hag hn (by omega) hoff (by omega) (by omega), regWrite_reelCtl ht hoff, tileRegWrite, coreOnly_refused hcore]

/-- A pending fence that is done ends in PEND cleared (R62). -/
theorem ends_pkgFenceDone {s : State} {agent : Nat} {P : M8 → Prop} (hs : s.awake) (hpend : s.m.fences.get false agent = true)
    (hP : P (fenceDone s.m agent)) : Ends (.pkgFenceDone agent) s P := by
  refine ends_live hs (exec_pkgFenceDone s agent) ?_
  rwa [if_pos hpend]

/-- Settles O14: each clause names what the write meets in the address space, and the lemma of that place says what it does. -/
theorem agentsWriteTheAddressSpace : Obligations.AgentsWriteTheAddressSpace := by
  intro s agent a n v hs
  refine ⟨fun ⟨hag, hn⟩ => ⟨?memory, ?nothing, ?coreAlone, ?pavEvent, ?fence⟩, ?start, ?done⟩
  case memory =>
    rintro ⟨hoff, hin, htail, hpool, hlt⟩
    exact ends_regWrite hs hn (spaceWrite_mem hag hoff hin htail hpool hlt) ⟨writeMem_stored s.m a n v hin (by omega), rfl⟩
  case nothing =>
    rintro (hoff | ⟨hin, hok⟩ | ⟨hin, hsync, hreg, hport⟩)
    · exact ends_regWrite_nothing hs hn (spaceWrite_off hoff)
    · exact ends_regWrite_nothing hs hn (spaceWrite_misformed hin hok)
    · exact ends_regWrite_nothing hs hn (spaceWrite_hole hin hsync hreg hport)
  case coreAlone =>
    rintro t ⟨ht, hcore, rfl, hoff⟩
    rw [← tileRegAddr_zero] at hoff ⊢
    exact ends_regWrite_reelCtl hs hag hn ht hcore hoff
  case pavEvent =>
    rintro ⟨rfl, rfl⟩
    exact ends_regWrite hs hn (spaceWrite_pavEvent hag) (pavCleared_clears s.m v)
  case fence =>
    rintro ⟨rfl, hv⟩
    exact ends_regWrite hs hn (spaceWrite_fenceStart hag hn hv) ⟨rfl, fenceStart_get s.m agent⟩
  case start => exact ends_live (g := fun m => fenceStart m agent) hs (exec_pkgFenceStart ..) ⟨rfl, fenceStart_get s.m agent⟩
  case done =>
    intro hpend
    exact ends_pkgFenceDone hs hpend ⟨fenceDone_get s.m agent, fenceDone_other s.m, fenceDone_core s.m⟩

end Machine
end Sys2Proof

/-!
PROOFS of the statements of the object dictionary and its sessions: what a reply sends, how an accepted request is served, what
reading and writing an entry do, how sessions open and close, what the mailbox submits (R63 to R98).
-/
namespace Sys2Proof
namespace Machine

/-! ### The mailbox's response buffer (R37, R81) -/

/-- No other address names a cell of the mailbox's buffers. -/
theorem memKey_mailbox {a k : Nat} (hk : 0x030001008800 ≤ k) (h : memKey a = some k) : a = k := by
  obtain h | ⟨_, _, h⟩ := memKey_eq_some h
  · exact h
  · omega

theorem memKey_mbxRsp {a : Nat} (ha : 0x030001009000 ≤ a) : memKey a = if a < 0x030001009800 then some a else none := by
  unfold memKey
  grind

theorem inMem_mbxRsp {a n : Nat} (ha : 0x030001009000 ≤ a) (hn : a + n ≤ 0x030001009800) : inMem a n = true := by
  induction n generalizing a with
  | zero => rfl
  | succ n ih =>
    rw [inMem_succ, memKey_mbxRsp ha, if_pos (by omega), ih (by omega) (by omega)]
    rfl

/-- A reply written to the response buffer leaves every byte outside it as it was. -/
theorem memByte_writeMem_mbxRsp (s : M8) (bs : Bytes) (k : Nat) (hk : k < 0x030001009000 ∨ 0x030001009000 + bs.length ≤ k) :
    memByte (writeMem s 0x030001009000 bs) k = memByte s k := by
  refine memByte_writeMem_other s _ bs k fun i hi => ?_
  rw [memKey_mbxRsp (by omega)]
  split
  · refine .inl fun h => ?_
    have := memKey_mailbox (by omega) h.symm
    omega
  · cases h : memKey k <;> simp

/-! ### What a reply sends (R79 to R82) -/

/-- A reply to the mailbox: the response buffer takes its bytes, MBX_STAT tells of it, MSI-X where IRQ_EN asks for it (R81, R82). -/
theorem dictSend_mailbox (s : M8) (addr : Nat) (reply : Bytes) :
    dictSend s 3 addr reply = writeMem { s with
      mbx := { s.mbx with rspLen := reply.length, done := true, busy := false },
      out := if s.mbx.irqEn then .msix 127 :: s.out else s.out } 0x030001009000 reply := by
  cases h : s.mbx.irqEn <;> simp [dictSend, h, emit, writeMem]

/-- Sending a reply on a path of sessions sends its bytes there and does nothing else. -/
theorem dictSend_sent (s : M8) (path addr : Nat) (reply : Bytes) (hp : 2 ≤ path) : Sent path addr reply s (dictSend s path addr reply) := by
  by_cases h2 : path = 2
  · subst h2
    exact ⟨rfl, rfl, rfl, by simp, fun _ _ => rfl, rfl⟩
  by_cases h3 : path = 3
  · subst h3
    rw [dictSend_mailbox]
    refine ⟨rfl, rfl, ?_, fun _ hlen => ?_, fun k hk => ?_, rfl⟩
    · simp
    · exact readMem_writeMem _ _ reply (inMem_mbxRsp (by omega) (by omega)) (by omega)
    · exact memByte_writeMem_mbxRsp _ reply k (by omega)
  by_cases h4 : path = 4
  · subst h4
    exact ⟨rfl, rfl, rfl, by simp, fun _ _ => rfl, rfl⟩
  · have hs : dictSend s path addr reply = s := by simp [dictSend, h2, h3, h4]
    rw [hs]
    exact ⟨by simp [h2], by simp [h3], by simp [h3, h4], by simp [h3], fun _ _ => rfl, rfl⟩

theorem Sent.dict_eq {path addr : Nat} {reply : Bytes} {a b : M8} (h : Sent path addr reply a b) : b.dict = a.dict := by rw [h.rest]

theorem dictSend_dict (s : M8) (path addr : Nat) (reply : Bytes) (hp : 2 ≤ path) : (dictSend s path addr reply).dict = s.dict :=
  (dictSend_sent s path addr reply hp).dict_eq

theorem Sent.freeCtr_eq {path addr : Nat} {reply : Bytes} {a b : M8} (h : Sent path addr reply a b) : b.freeCtr = a.freeCtr := by
  rw [h.rest]

/-! ### Sessions -/

theorem findSession_congr {a b : M8} (h : b.dict.sessions = a.dict.sessions) (path sid : Nat) :
    findSession b path sid = findSession a path sid := by
  simp only [findSession, h]

theorem findSession_names {s : M8} {path sid : Nat} {x : Session} (h : findSession s path sid = some x) :
    x.sid = sid ∧ x.path = path := by
  have := List.find?_some h
  simpa using this

/-- A session put back is found where it stood. -/
theorem findSession_setSession_self {s : M8} {path sid : Nat} {x y : Session} (h : findSession s path sid = some x) (hsid : y.sid = sid)
    (hpath : y.path = path) : findSession (setSession s y) path sid = some y := by
  subst hsid hpath
  simp only [findSession, setSession] at h ⊢
  generalize s.dict.sessions = l at h ⊢
  induction l with
  | nil => simp at h
  | cons z l ih =>
    by_cases hz : z.sid = y.sid
    · simp [hz]
    · simp only [List.find?_cons, beq_eq_false_iff_ne.2 hz, Bool.false_and] at h
      simpa [hz] using ih h

/-- A session put back leaves the sessions of every other identifier as they were. -/
theorem findSession_setSession_other (s : M8) (y : Session) (path sid : Nat) (h : sid ≠ y.sid) :
    findSession (setSession s y) path sid = findSession s path sid := by
  simp only [findSession, setSession]
  generalize s.dict.sessions = l
  induction l with
  | nil => rfl
  | cons z l ih =>
    by_cases hz : z.sid = y.sid
    · simp [hz, h.symm, ih]
    · simp only [List.map_cons, if_neg hz, List.find?_cons, ih]

/-! ### What an update keeps of the machine -/

/-- b shows the same as a in a view of the machine. -/
def Keeps {α : Type} (view : M8 → α) (a b : M8) : Prop := view b = view a

section
variable {α : Type} {view : M8 → α}

theorem Keeps.refl (a : M8) : Keeps view a a := rfl

theorem Keeps.trans {a b c : M8} (h : Keeps view a b) (h' : Keeps view b c) : Keeps view a c := Eq.trans h' h

theorem Keeps.ite {a x y : M8} {c : Prop} [Decidable c] (hx : Keeps view a x) (hy : Keeps view a y) :
    Keeps view a (if c then x else y) := by
  split <;> assumption

theorem Keeps.foldl {β : Type} {f : M8 → β → M8} (hf : ∀ s x, Keeps view s (f s x)) (l : List β) (s : M8) :
    Keeps view s (l.foldl f s) := by
  induction l generalizing s with
  | nil => exact .refl s
  | cons x l ih => exact (hf s x).trans (ih _)

end

/-- The clock, and all of the dictionary engine but the values of entries. -/
def engineView (s : M8) : Clock × Dict := (s.clk, { s.dict with live := [] })

theorem Keeps.sessions {a b : M8} (h : Keeps engineView a b) : b.dict.sessions = a.dict.sessions := congrArg (fun v => v.2.sessions) h

theorem Keeps.now {a b : M8} (h : Keeps engineView a b) : b.clk.now = a.clk.now := congrArg (fun v => v.1.now) h

/-! ### An accepted request is served (R78, R83, R98) -/

/-- The SEQ that follows is another one (R83). -/
theorem nextSeq_ne (n : Nat) : nextSeq n ≠ n := by
  unfold nextSeq
  split <;> omega

/-- What the engine makes of the result r of an accepted request that left d: the session keeps the reply and it is sent. -/
def dictAnswer (op : Nat) (q : DictMsg) (x : Session) (r : DictRes) (d : M8) : M8 :=
  let reply := dictReply op q (some x.key) r
  match r with
  | .later => d
  | _ =>
    let d := match findSession d q.path q.session with
      | some y => setSession d { y with reply := reply }
      | none => d
    dictSend d q.path q.addr reply

/-- A request that passes form, session, tag and SEQ is answered with what its body makes of the accepted state. -/
theorem dictServe_of_serves {s : State} {op : Nat} {q : DictMsg} {x : Session} (h : Serves s op q x) (body : M8 → Session → DictRes × M8) :
    dictServe s.m op q body = dictAnswer op q x (body (accepted s.m x q) x).1 (body (accepted s.m x q) x).2 := by
  obtain ⟨⟨hstop, -⟩, hpow, hpath, hform, hx, htag, hseq⟩ := h
  have hne : q.seq ≠ x.seq := hseq ▸ nextSeq_ne x.seq
  have hpow' : odNat (accepted s.m x q) Od.POWER_STATE ≠ 1 := hpow
  have hstop' : (accepted s.m x q).dbg.stop = false := hstop
  unfold dictServe
  rw [if_neg (by omega)]
  simp only [hstop, hform, hx, htag, hne, ← hseq, Bool.false_and, Bool.not_true, Bool.and_false, Bool.false_eq_true, decide_false,
    ne_eq, not_true_eq_false, if_false]
  rw [← accepted]
  simp only [hstop', hpow', Bool.false_and, Bool.false_or, decide_false, Bool.false_eq_true, if_false]
  generalize body (accepted s.m x q) x = p
  obtain ⟨r, d⟩ := p
  cases r <;> rfl

theorem serve_later {s : State} {op : Nat} {q : DictMsg} {x : Session} {body : M8 → Session → DictRes × M8} {d : M8} (h : Serves s op q x)
    (hb : body (accepted s.m x q) x = (.later, d)) : dictServe s.m op q body = d := by
  rw [dictServe_of_serves h, hb]
  rfl

/-- The session of a request accepted now, with the reply it keeps (R83). -/
def Session.after (x : Session) (q : DictMsg) (now : Nat) (reply : Bytes) : Session :=
  { x with seq := q.seq, active := now, reply := reply }

/-- The session of an accepted request holds its SEQ and has been active. -/
theorem findSession_accepted {s : State} {op : Nat} {q : DictMsg} {x : Session} (h : Serves s op q x) :
    findSession (accepted s.m x q) q.path q.session = some (x.after q s.m.clk.now []) := by
  obtain ⟨-, -, -, -, hx, -, -⟩ := h
  obtain ⟨hsid, hpath⟩ := findSession_names hx
  exact findSession_setSession_self hx hsid hpath

/-- A result given at once is kept by the session and sent. -/
theorem dictAnswer_now {op : Nat} {q : DictMsg} {x : Session} {r : DictRes} {d : M8} {now : Nat} (hr : r ≠ .later)
    (hd : findSession d q.path q.session = some (x.after q now [])) : dictAnswer op q x r d =
      dictSend (setSession d (x.after q now (dictReply op q (some x.key) r))) q.path q.addr (dictReply op q (some x.key) r) := by
  cases r with
  | later => exact absurd rfl hr
  | data b last => simp only [dictAnswer, hd, Session.after]
  | abort c => simp only [dictAnswer, hd, Session.after]

/-- A body that leaves the sessions alone and gives a result at once: the result is the reply (R76, R83). -/
theorem serve_replied {s : State} {op : Nat} {q : DictMsg} {x : Session} {body : M8 → Session → DictRes × M8} {r : DictRes} {d : M8}
    (h : Serves s op q x) (hb : body (accepted s.m x q) x = (r, d)) (hr : r ≠ .later)
    (hses : d.dict.sessions = (accepted s.m x q).dict.sessions) (hnow : d.clk.now = s.m.clk.now) :
    Replied op q x r d (dictServe s.m op q body) := by
  obtain ⟨-, -, hpath, -, hx, -, -⟩ := id h
  obtain ⟨hsid, hxpath⟩ := findSession_names hx
  have hd : findSession d q.path q.session = some (x.after q d.clk.now []) :=
    hnow ▸ (findSession_congr hses _ _).trans (findSession_accepted h)
  have hsent := dictSend_sent (setSession d (x.after q d.clk.now (dictReply op q (some x.key) r))) q.path q.addr
    (dictReply op q (some x.key) r) hpath
  have hsessions := congrArg Dict.sessions hsent.dict_eq
  rw [dictServe_of_serves h, hb, dictAnswer_now hr hd]
  refine ⟨?_, fun path sid hne => ?_, ?_, ?_⟩
  · exact (findSession_congr hsessions _ _).trans (findSession_setSession_self hd hsid hxpath)
  · exact (findSession_congr hsessions _ _).trans (findSession_setSession_other d _ path sid (hsid ▸ hne))
  · rw [hsent.dict_eq]
    rfl
  · rw [hsent.dict_eq]
    exact hsent

/-- A dictionary message ends, while the part is powered, in what its meaning makes of the machine. -/
theorem ends_dictLive {c : Instr} {s : State} {g : M8 → M8} {P : M8 → Prop} (hoff : s.m.pwr.off = false) (hc : exec c s = dictLive s g)
    (h : P (g s.m)) : Ends c s P :=
  ⟨g s.m, by rw [hc, dictLive, hoff]; rfl, h⟩

section
variable {c : Instr} {s : State} {g : M8 → M8} {op : Nat} {q : DictMsg} {x : Session} {body : M8 → Session → DictRes × M8} {d : M8}

/-- A command that serves a request ends in the reply its body gives. -/
theorem ends_replied {r : DictRes} (h : Serves s op q x) (hc : exec c s = dictLive s g) (hg : g s.m = dictServe s.m op q body)
    (hb : body (accepted s.m x q) x = (r, d)) (hr : r ≠ .later) (hses : d.dict.sessions = (accepted s.m x q).dict.sessions)
    (hnow : d.clk.now = s.m.clk.now) : Ends c s (Replied op q x r d) := by
  obtain ⟨⟨-, hoff⟩, -⟩ := id h
  exact ends_dictLive hoff hc (hg ▸ serve_replied h hb hr hses hnow)

/-- A command that serves a request whose answer is still to come ends in what its body leaves. -/
theorem ends_later {P : M8 → Prop} (h : Serves s op q x) (hc : exec c s = dictLive s g) (hg : g s.m = dictServe s.m op q body)
    (hb : body (accepted s.m x q) x = (.later, d)) (hP : P d) : Ends c s P := by
  obtain ⟨⟨-, hoff⟩, -⟩ := id h
  exact ends_dictLive hoff hc (by rwa [hg, serve_later h hb])

end

theorem Replied.tiles_eq {op : Nat} {q : DictMsg} {x : Session} {r : DictRes} {a b : M8} (h : Replied op q x r a b) : b.tiles = a.tiles := by
  rw [h.sent.rest]

theorem Replied.job_eq {op : Nat} {q : DictMsg} {x : Session} {r : DictRes} {a b : M8} (h : Replied op q x r a b) : b.job = a.job := by
  rw [h.sent.rest]

/-! ### Reading an entry (R70, R75) -/

theorem haltTile_kept (s : M8) (t : Nat) : Keeps engineView s (haltTile s t) := .ite rfl (.refl s)

theorem fenceSelf_kept (s : M8) : Keeps engineView s (fenceSelf s) := by
  unfold fenceSelf
  refine .ite (.refl s) ?_
  dsimp only
  refine .trans ?_ (.foldl haltTile_kept _ _)
  rfl

/-- A member's fault against itself is sent and fences it: the dictionary engine and the clock stay (R519, R522). -/
theorem declareSelf_kept (s : M8) (kind : Nat) : Keeps engineView s (declareSelf s kind) := by
  unfold declareSelf
  refine .ite ?_ (.refl s)
  have hsent := Keeps.foldl (view := engineView) (f := fun s r => sendFault s r kind) (fun _ _ => rfl) s.grp.own s
  dsimp only
  refine hsent.trans (.trans ?_ (fenceSelf_kept _))
  rfl

theorem sourceEdge_kept (s : M8) (id : Nat) : Keeps engineView s (sourceEdge s id) := by
  have hclk : (sourceEdge s id).clk = s.clk := by rw [sourceEdge_int s id]
  exact Prod.ext hclk (congrArg (fun d : Dict => { d with live := [] }) (sourceEdge_entries s id).engine)

theorem odPut_kept (s : M8) (k : Nat) (v : OdVal) : Keeps engineView s (odPut s k v) := rfl

theorem unaccountedFaults_kept (s : M8) : Keeps engineView s (unaccountedFaults s) := by
  refine Keeps.foldl (fun s hub => ?_) [0, 1, 2, 3] s
  exact .ite (.refl s) ((sourceEdge_kept s (0x14E + hub)).trans (declareSelf_kept _ 3))

/-- A pool audit may find a hub fault and change the units' state, but neither session nor hold (R345, R346). -/
theorem takePoolAudit_kept (s : M8) : Keeps engineView s (takePoolAudit s).2 := by
  simp only [takePoolAudit]
  exact (odPut_kept s Od.POOL_AUDIT (.bytes (poolAudit s))).trans (unaccountedFaults_kept (odPut s Od.POOL_AUDIT (.bytes (poolAudit s))))

/-- A read that gives a value keeps the dictionary engine and the clock. -/
def ReadKeeps (s : M8) (r : Except Nat (OdVal × M8)) : Prop := ∀ v d, r = .ok (v, d) → Keeps engineView s d

@[simp] theorem readKeeps_ok {s d : M8} {v : OdVal} : ReadKeeps s (.ok (v, d)) ↔ Keeps engineView s d :=
  ⟨fun h => h v d rfl, fun h => by rintro _ _ ⟨⟩; exact h⟩

@[simp] theorem readKeeps_error (s : M8) (c : Nat) : ReadKeeps s (.error c) := fun _ _ h => by cases h

theorem ReadKeeps.ite {s : M8} {x y : Except Nat (OdVal × M8)} {c : Prop} [Decidable c] (hx : ReadKeeps s x) (hy : ReadKeeps s y) :
    ReadKeeps s (if c then x else y) := by
  split <;> assumption

/-- Reading gives an entry's value from the state as it is, or takes a pool audit. -/
theorem odRead_keeps (s : M8) (x : Session) (key : Nat) : ReadKeeps s (odRead s x key) := by
  unfold odRead
  dsimp only
  repeat' refine ReadKeeps.ite ?_ ?_
  all_goals simp [Keeps.refl, takePoolAudit_kept]

theorem odRead_kept {s d : M8} {x : Session} {key : Nat} {v : OdVal} (h : odRead s x key = .ok (v, d)) : Keeps engineView s d :=
  odRead_keeps s x key v d h

section
variable {rules : OdRules} {q : DictMsg} {s d : M8} {x : Session} {e : OdEntry}

theorem dictRead_absent {code : Nat} (h : odExists q.index q.sub = some code) : dictRead rules q s x = (.abort code, s) := by
  simp [dictRead, h]

/-- A value that is no DOMAIN is answered whole (R70). -/
theorem dictRead_value {v : OdVal} (he : odExists q.index q.sub = none) (hl : odLookup q.index q.sub = some e) (hr : readRight x e = none)
    (hq : q.data = []) (hh : heldByOther s (q.index * 256 + q.sub) x.sid = none)
    (hv : rules.read s x (q.index * 256 + q.sub) = .ok (v, d)) (ht : e.ty ≠ .domain) :
    dictRead rules q s x = (.data (v.toBytes e.ty) false, d) := by
  simp only [dictRead, he, hl, hr, hh, hv, dataAbort, hq, firstAbort, List.isEmpty_nil, if_true]
  split
  · contradiction
  · rfl

/-- A DOMAIN is answered in segments of 1,024 bytes, of which a longer one holds the entry (R75). -/
theorem dictRead_domain {b : Bytes} (he : odExists q.index q.sub = none) (hl : odLookup q.index q.sub = some e) (hr : readRight x e = none)
    (hq : q.data = []) (hh : heldByOther s (q.index * 256 + q.sub) x.sid = none)
    (hv : rules.read s x (q.index * 256 + q.sub) = .ok (.bytes b, d)) (ht : e.ty = .domain) :
    dictRead rules q s x = if b.length ≤ 1024 then (.data b true, dropHold d (q.index * 256 + q.sub))
      else (.data (b.take 1024) false, addHold d
        { key := q.index * 256 + q.sub, sid := x.sid, isWrite := false, off := 1024, staged := b, time := d.clk.now }) := by
  simp only [dictRead, he, hl, hr, hh, hv, ht, dataAbort, hq, firstAbort, List.isEmpty_nil, if_true]

/-- The session's own transfer goes on, its last segment releases the hold (R75). -/
theorem dictReadNext_held {h : DomainHold} (he : odExists q.index q.sub = none) (hl : odLookup q.index q.sub = some e)
    (hr : readRight x e = none) (hq : q.data = []) (hh : heldByOther s (q.index * 256 + q.sub) x.sid = none)
    (hf : (s.dict.holds.find? fun h => h.key == q.index * 256 + q.sub && h.sid == x.sid && !h.isWrite) = some h) :
    dictReadNext q s x = if h.off + 1024 ≥ h.staged.length
      then (.data ((h.staged.drop h.off).take 1024) true, dropHold s (q.index * 256 + q.sub))
      else (.data ((h.staged.drop h.off).take 1024) false, addHold s { h with off := h.off + 1024, time := s.clk.now }) := by
  simp only [dictReadNext, he, hl, hr, hh, hf, dataAbort, hq, firstAbort, List.isEmpty_nil, if_true]

/-- The descriptor of an entry (R77). -/
theorem dictDescribe_entry (he : odExists q.index q.sub = none) (hl : odLookup q.index q.sub = some e) (hq : q.data = []) :
    dictDescribe q s x = (.data (natLe 1 e.ty.code ++ natLe 1 e.rl ++ natLe 1 e.wl ++ natLe 1 e.persist.code ++
      natLe 4 e.ty.maxLen ++ (if e.ty.numeric then natLe e.ty.size (unsigned (8 * e.ty.size) (odBounds e).1) ++
        natLe e.ty.size (unsigned (8 * e.ty.size) (odBounds e).2) else []) ++ (e.dflt.toBytes e.ty).take 1024) false, s) := by
  simp [dictDescribe, he, hl, hq]

end

theorem odExists_of_no_index {index sub : Nat} (h : odIndexExists index = false) : odExists index sub = some 0x06020000 := by
  simp [odExists, h]

theorem odExists_of_no_entry {index sub : Nat} (h : odIndexExists index = true) (hl : odLookup index sub = none) :
    odExists index sub = some 0x06090011 := by
  simp [odExists, h, hl]

/-- Settles O24: the accepted request reaches the body of its command, whose lemma gives the reply and what it leaves. -/
theorem dictionaryReadsAnswer : Obligations.DictionaryReadsAnswer := by
  intro s q x
  refine ⟨fun hs => ⟨fun hi => ?noIndex, fun ⟨hi, hl⟩ => ?noEntry, fun e v d ⟨he, hl, hr, hq, hh, hv⟩ => ⟨fun ht => ?value, ?domain⟩⟩,
    fun e h ⟨hs, he, hl, hr, hq, hh, hf⟩ => ⟨fun hlen => ?more, fun hlen => ?last⟩, fun e ⟨hs, hq, he, hl, hload⟩ => ?describe⟩
  case noIndex =>
    exact ends_replied hs (exec_dictRead ..) rfl (dictRead_absent (odExists_of_no_index hi)) (by simp) rfl rfl
  case noEntry =>
    exact ends_replied hs (exec_dictRead ..) rfl (dictRead_absent (odExists_of_no_entry hi hl)) (by simp) rfl rfl
  case value =>
    exact ends_replied hs (exec_dictRead ..) rfl (dictRead_value he hl hr hq hh hv ht) (by simp) (odRead_kept hv).sessions (odRead_kept hv).now
  case domain =>
    rintro b ⟨ht, rfl⟩
    have hnow : d.clk.now = s.m.clk.now := (odRead_kept hv).now
    have hread := dictRead_domain (rules := odRules) (s := accepted s.m x q) he hl hr hq hh hv ht
    rw [hnow] at hread
    refine ⟨fun hlen => ?_, fun hlen => ?_⟩
    · rw [if_pos hlen] at hread
      exact ends_replied hs (exec_dictRead ..) rfl hread (by simp) (odRead_kept hv).sessions hnow
    · rw [if_neg (by omega)] at hread
      exact ends_replied hs (exec_dictRead ..) rfl hread (by simp) (odRead_kept hv).sessions hnow
  case more =>
    have hread := dictReadNext_held (s := accepted s.m x q) he hl hr hq hh hf
    rw [if_neg (by omega)] at hread
    exact ends_replied hs (exec_readNext ..) rfl hread (by simp) rfl rfl
  case last =>
    have hread := dictReadNext_held (s := accepted s.m x q) he hl hr hq hh hf
    rw [if_pos hlen, List.take_of_length_le (by simp; omega)] at hread
    exact ends_replied hs (exec_readNext ..) rfl hread (by simp) rfl rfl
  case describe =>
    have hload' : loaderRefuses (accepted s.m x q) q.index = false := hload
    refine ends_replied hs (exec_describe ..) rfl ?_ (by simp) rfl rfl
    rw [if_neg (by simp [hload'])]
    exact dictDescribe_entry he hl hq

/-! ### Writing an entry (R66, R67, R75, R91, R98) -/

theorem odGet_congr {a b : M8} (h : b.dict.live = a.dict.live) (k : Nat) : odGet b k = odGet a k := by
  simp only [odGet, h]

theorem odNat_congr {a b : M8} (h : b.dict.live = a.dict.live) (k : Nat) : odNat b k = odNat a k := by
  simp only [odNat, odGet_congr h]

theorem Replied.live {op : Nat} {q : DictMsg} {x : Session} {r : DictRes} {a b : M8} (h : Replied op q x r a b) :
    b.dict.live = a.dict.live := by rw [h.dict]

section
variable {rules : OdRules} {q : DictMsg} {s : M8} {x : Session} {e : OdEntry}

/-- A DOMAIN segment without LAST is held (R75). -/
theorem dictWrite_segment (he : odExists q.index q.sub = none) (hl : odLookup q.index q.sub = some e) (hw : writeRight x e = none)
    (hlen : lengthAbort e q.data.length = none) (hh : heldByOther s (q.index * 256 + q.sub) x.sid = none) (ht : e.ty = .domain)
    (hf : q.flags = 0) : dictWrite rules q s x = (.data [] false, addHold s
      { key := q.index * 256 + q.sub, sid := x.sid, isWrite := true, off := 0, staged := q.data, time := s.clk.now }) := by
  simp [dictWrite, he, hl, hw, hlen, hh, ht, hf, firstAbort]

/-- A whole value that passes the checks is accepted. -/
theorem dictWrite_whole {v : OdVal} (he : odExists q.index q.sub = none) (hl : odLookup q.index q.sub = some e) (hw : writeRight x e = none)
    (hlen : lengthAbort e q.data.length = none) (ht : e.ty ≠ .domain ∨ q.flags = 1) (hv : v = OdVal.ofBytes e.ty q.data)
    (hok : writeAbort rules s x e (q.index * 256 + q.sub) v = none) : dictWrite rules q s x =
      acceptWrite rules q 2 (dropHold s (q.index * 256 + q.sub)) x e (q.index * 256 + q.sub) v := by
  have hwhole : (e.ty = .domain && q.flags % 2 = 0 : Bool) = false := by
    obtain h | h := ht <;> simp [h]
  subst hv
  simp only [dictWrite, he, hl, hw, hlen, hok, firstAbort, hwhole, Bool.false_eq_true, if_false]

/-- The session's own transfer takes a further segment (R75). -/
theorem dictWriteNext_segment {h : DomainHold} (he : odExists q.index q.sub = none) (hl : odLookup q.index q.sub = some e)
    (hw : writeRight x e = none) (hh : heldByOther s (q.index * 256 + q.sub) x.sid = none)
    (hf : (s.dict.holds.find? fun h => h.key == q.index * 256 + q.sub && h.sid == x.sid && h.isWrite) = some h)
    (hlen : lengthAbort e (h.staged ++ q.data).length = none) (hq : q.flags = 0) : dictWriteNext rules q s x =
      (.data [] false, addHold s { h with staged := h.staged ++ q.data, time := s.clk.now }) := by
  simp only [dictWriteNext, he, hl, hw, hh, hf, hlen, hq, firstAbort, Nat.zero_mod, if_true]

/-- The LAST segment of the session's own transfer commits the whole value (R75). -/
theorem dictWriteNext_last {h : DomainHold} (he : odExists q.index q.sub = none) (hl : odLookup q.index q.sub = some e)
    (hw : writeRight x e = none) (hh : heldByOther s (q.index * 256 + q.sub) x.sid = none)
    (hf : (s.dict.holds.find? fun h => h.key == q.index * 256 + q.sub && h.sid == x.sid && h.isWrite) = some h)
    (hlen : lengthAbort e (h.staged ++ q.data).length = none) (hq : q.flags = 1)
    (hok : writeAbort rules s x e (q.index * 256 + q.sub) (.bytes (h.staged ++ q.data)) = none) : dictWriteNext rules q s x =
      acceptWrite rules q 4 (dropHold s (q.index * 256 + q.sub)) x e (q.index * 256 + q.sub) (.bytes (h.staged ++ q.data)) := by
  simp only [dictWriteNext, he, hl, hw, hh, hf, hlen, hq, hok, firstAbort, Nat.mod_succ, one_ne_zero, if_false]

variable {op key : Nat} {v : OdVal}

/-- A Y or YR entry waits for the persistent store (R66, R67). -/
theorem acceptWrite_stores (h : e.persist = .y ∨ e.persist = .yr) : acceptWrite rules q op s x e key v =
    (.later, { s with dict := { s.dict with
      stores := s.dict.stores ++ [{ key := key, val := v, master := x.path, sid := x.sid, seq := q.seq, op := op }] } }) := by
  obtain h | h := h <;> simp [acceptWrite, h]

/-- An N entry takes its value at once (R66). -/
theorem acceptWrite_now (h : e.persist = .n) : acceptWrite rules q op s x e key v =
    (.data [] false, odPut (rules.effect s x key v) key v) := by
  simp [acceptWrite, h]

theorem acceptWrite_ne_abort (c : Nat) : (acceptWrite rules q op s x e key v).1 ≠ .abort c := by
  unfold acceptWrite
  split <;> simp

/-- The checks of a value pass where each does. -/
theorem writeAbort_none (hv : valueAbort e v = none) (hc : rules.check s x key v = none) (hh : heldByOther s key x.sid = none)
    (hj : e.job = false) : writeAbort rules s x e key v = none := by
  simp [writeAbort, firstAbort, hv, hc, hh, jobAbort, hj]

end

/-! ### Writes that reach the engine in one hub clock (R89, R90) -/

section
variable {rules : OdRules} {ws : List DictMsg} {s : State} {q : DictMsg} {x : Session}

/-- A write that loses to none of the others is served. -/
theorem dictWriteAmong_wins (d : M8) (h : ∀ r ∈ ws, losesTo q r = false) :
    dictWriteAmong rules ws d q = dictServe d 0x02 q (dictWrite rules q) := by
  have hany : ws.any (losesTo q) = false := by simpa using h
  simp only [dictWriteAmong, hany, Bool.false_eq_true, if_false]

/-- A write that passes every check and loses to another is answered so, and the collision is recorded (R90). -/
theorem dictWriteAmong_loses (h : Serves s 2 q x) (hlose : ws.any (losesTo q) = true)
    (hok : ∀ c, (dictWrite rules q (accepted s.m x q) x).1 ≠ .abort c) :
    Replied 2 q x (.abort 0x08000024) (recordConflict (accepted s.m x q) q) (dictWriteAmong rules ws s.m q) := by
  unfold dictWriteAmong
  refine serve_replied h ?_ (by simp) rfl rfl
  rw [if_pos hlose]
  generalize dictWrite rules q (accepted s.m x q) x = p at hok
  obtain ⟨r, d⟩ := p
  cases r with
  | data b last => rfl
  | abort c => exact absurd rfl (hok c)
  | later => rfl

end

/-- A collision recorded changes its three entries alone (R72, R90). -/
theorem recordConflict_other (s : M8) (q : DictMsg) (k : Nat) (hk : k ∉ [Od.CONFLICT_COUNT, Od.CONFLICT_LAST, Od.CONFLICT_LOSER]) :
    odGet (recordConflict s q) k = odGet s k := by
  simp only [List.mem_cons, List.not_mem_nil, or_false, not_or] at hk
  obtain ⟨hcount, hlast, hloser⟩ := hk
  simp only [recordConflict, odInc, odAdd, odSet]
  rw [odGet_odPut_other _ _ _ _ hloser, odGet_odPut_other _ _ _ _ hlast, odGet_odPut_other _ _ _ _ hcount]

/-- The loser's master number is recorded (R90). -/
theorem recordConflict_loser (s : M8) (q : DictMsg) (h : q.path < 256) : odNat (recordConflict s q) Od.CONFLICT_LOSER = q.path := by
  rw [recordConflict, odNat_odSet_self _ _ _ _ rfl rfl]
  exact Nat.mod_eq_of_lt h

/-- A collision is counted (R90). -/
theorem recordConflict_count (s : M8) (q : DictMsg) :
    odNat (recordConflict s q) Od.CONFLICT_COUNT = (odNat s Od.CONFLICT_COUNT + 1) % 2 ^ 32 := by
  rw [recordConflict, odNat_odSet_other _ _ _ _ (by decide), odNat_odSet_other _ _ _ _ (by decide), odInc, odAdd,
    odNat_odSet_self _ _ _ _ rfl rfl]
  rfl

/-! ### RESTORE_DEFAULTS and the key slots (R72, R73) -/

/-- A session of level 2 or above may write an entry of level 2 (R65). -/
theorem writeRight_maintainer {x : Session} {e : OdEntry} (hp : 2 ≤ x.path) (hlevel : 2 ≤ x.level) (hc : e.persist ≠ .c) (hw : e.wl = 2) :
    writeRight x e = none := by
  have hp0 : x.path ≠ 0 := by omega
  have hlow : ¬2 > x.level := by omega
  simp [writeRight, hc, hw, hp0, hlow]

/-- OD 0x1011:01, RESTORE_DEFAULTS. -/
def restoreRow : OdEntry := ⟨0x1011, 1, 1, .unsigned 4, 255, 2, .num 0, .n, .oneOf [0x0DEF], false⟩

theorem odLookup_restore : odLookup 0x1011 1 = some restoreRow := rfl

/-- The identity range is served in loader service (R587). -/
theorem loaderRefuses_identity (s : M8) {index : Nat} (h : 0x1000 ≤ index ∧ index ≤ 0x1FFF) : loaderRefuses s index = false := by
  simp [loaderRefuses, h]

theorem odCheck_restore (s : M8) (x : Session) (n : Nat) : odCheck s x Od.RESTORE_DEFAULTS (.num n) = none := by
  have hload : loaderRefuses s (Od.RESTORE_DEFAULTS / 256) = false := loaderRefuses_identity s (by decide)
  have hown : odCheckNum s x Od.RESTORE_DEFAULTS n = none := rfl
  simp only [odCheck, hown, hload, Bool.and_false, Bool.false_eq_true, if_false, firstAbort]

/-- The three key slots are entries of 32 octets of level 2, kept over a reset (R72, R73). -/
def keySlotRow (sub : Nat) (dflt : Bytes) : OdEntry := ⟨0x1110, sub, sub, .octets 32, 255, 2, .bytes dflt, .y, .full, false⟩

theorem odLookup_keySlot {sub : Nat} (h1 : 1 ≤ sub) (h3 : sub ≤ 3) : ∃ b, odLookup 0x1110 sub = some (keySlotRow sub b) := by
  interval_cases sub <;> exact ⟨_, rfl⟩

theorem odCheck_keySlot (s : M8) (x : Session) (b : Bytes) {sub : Nat} (h1 : 1 ≤ sub) (h3 : sub ≤ 3) :
    odCheck s x (0x1110 * 256 + sub) (.bytes b) = none := by
  have hload : loaderRefuses s ((0x1110 * 256 + sub) / 256) = false := loaderRefuses_identity s (by omega)
  have hown : odCheckBytes s x (0x1110 * 256 + sub) b = none := by
    interval_cases sub <;> rfl
  simp only [odCheck, hown, hload, Bool.and_false, Bool.false_eq_true, if_false, firstAbort]

theorem odExists_of_entry {index sub : Nat} {e : OdEntry} (hi : odIndexExists index = true) (h : odLookup index sub = some e) :
    odExists index sub = none := by
  simp [odExists, hi, h]

section
variable {q : DictMsg} {s : M8} {x : Session}

/-- A maintainer's write of 0x0DEF to RESTORE_DEFAULTS arms the restore (R72). -/
theorem dictWrite_restore (hi : q.index = 0x1011) (hsub : q.sub = 1) (hpath : 2 ≤ x.path) (hlevel : 2 ≤ x.level)
    (hdata : q.data = natLe 4 0x0DEF) (hh : heldByOther s (q.index * 256 + q.sub) x.sid = none) :
    dictWrite odRules q s x = (.data [] false, odPut { dropHold s Od.RESTORE_DEFAULTS with
      dict := { (dropHold s Od.RESTORE_DEFAULTS).dict with restoreArmed := true } } Od.RESTORE_DEFAULTS (.num 0x0DEF)) := by
  have hkey : q.index * 256 + q.sub = Od.RESTORE_DEFAULTS := by rw [hi, hsub]; rfl
  have hl : odLookup q.index q.sub = some restoreRow := by rw [hi, hsub]; rfl
  have he : odExists q.index q.sub = none := odExists_of_entry (by rw [hi]; rfl) hl
  have hw : writeRight x restoreRow = none := writeRight_maintainer hpath hlevel (by decide) rfl
  have hlen : lengthAbort restoreRow q.data.length = none := by rw [hdata]; rfl
  have hv : .num 0x0DEF = OdVal.ofBytes restoreRow.ty q.data := by rw [hdata]; rfl
  rw [hkey] at hh
  have hok : writeAbort odRules s x restoreRow Od.RESTORE_DEFAULTS (.num 0x0DEF) = none :=
    writeAbort_none rfl (odCheck_restore s x 0x0DEF) hh rfl
  rw [dictWrite_whole he hl hw hlen (.inl (by decide)) hv (hkey ▸ hok), hkey, acceptWrite_now rfl]
  rfl

/-- A maintainer's write of 32 bytes to a key slot waits for its store (R67, R73). -/
theorem dictWrite_keySlot (hi : q.index = 0x1110) (h1 : 1 ≤ q.sub) (h3 : q.sub ≤ 3) (hpath : 2 ≤ x.path) (hlevel : 2 ≤ x.level)
    (hdata : q.data.length = 32) (hh : heldByOther s (q.index * 256 + q.sub) x.sid = none) :
    ∃ e : OdEntry, e.persist = .y ∧ dictWrite odRules q s x =
      acceptWrite odRules q 2 (dropHold s (q.index * 256 + q.sub)) x e (q.index * 256 + q.sub) (.bytes q.data) := by
  obtain ⟨b, hl⟩ := odLookup_keySlot h1 h3
  rw [← hi] at hl
  have he : odExists q.index q.sub = none := odExists_of_entry (by rw [hi]; rfl) hl
  have hw : writeRight x (keySlotRow q.sub b) = none := writeRight_maintainer hpath hlevel (fun h => by cases h) rfl
  have hlen : lengthAbort (keySlotRow q.sub b) q.data.length = none := by rw [hdata]; rfl
  have hok : writeAbort odRules s x (keySlotRow q.sub b) (q.index * 256 + q.sub) (.bytes q.data) = none :=
    writeAbort_none rfl (hi ▸ odCheck_keySlot s x q.data h1 h3) hh rfl
  exact ⟨_, rfl, dictWrite_whole he hl hw hlen (.inl fun h => by cases h) rfl hok⟩

end

/-! ### The persistent store (R67, R91) -/

/-- The machine after the store of write r to entry key has ended: it waits no longer, and the entry and its stored copy hold its
value where the store ended well. -/
def storeEnded (s : M8) (key : Nat) (r : StoreReq) (ok : Bool) : M8 :=
  let d := { s with dict := { s.dict with stores := s.dict.stores.erase r } }
  if ok then odSetStored d key r.val else d

/-- What the writer of a waiting write is told (R67). -/
def storeReply (key : Nat) (r : StoreReq) (y : Session) (ok : Bool) : Bytes :=
  dictReply r.op { path := r.master, seq := r.seq, session := r.sid, index := key / 256, sub := key % 256 } (some y.key)
    (if ok then .data [] false else .abort 0x08000022)

section
variable {rules : OdRules} {s : M8} {key : Nat} {r : StoreReq} {y : Session}

theorem storeComplete_eq (ok : Bool) (hr : (s.dict.stores.find? fun r => r.key == key) = some r) (hm : 2 ≤ r.master)
    (hy : findSession s r.master r.sid = some y) (heff : ∀ d, rules.effect d y key r.val = d) :
    storeComplete rules s key ok = dictSend (setSession (storeEnded s key r ok)
      { y with reply := if y.seq = r.seq then storeReply key r y ok else y.reply }) r.master y.addr (storeReply key r y ok) := by
  have hlow : ¬r.master < 2 := by omega
  have hwait : findSession { s with dict := { s.dict with stores := s.dict.stores.erase r } } r.master r.sid = some y := hy
  have hput : findSession (odSetStored { s with dict := { s.dict with stores := s.dict.stores.erase r } } key r.val) r.master r.sid =
      some y := hy
  cases ok
  · simp only [storeComplete, hr, hwait, hlow, storeEnded, storeReply, Bool.false_eq_true, if_false]
  · simp only [storeComplete, hr, hwait, heff, hput, hlow, storeEnded, storeReply, if_true, if_false]

/-- The end of a store tells the writer, whose session keeps the reply; beside that only the entry and the queue follow (R67). -/
theorem storeComplete_tells (ok : Bool) (hr : (s.dict.stores.find? fun r => r.key == key) = some r) (hm : 2 ≤ r.master)
    (hy : findSession s r.master r.sid = some y) (heff : ∀ d, rules.effect d y key r.val = d) :
    (storeComplete rules s key ok).dict =
      { (storeEnded s key r ok).dict with sessions := (storeComplete rules s key ok).dict.sessions } ∧
    Sent r.master y.addr (storeReply key r y ok) { s with dict := (storeComplete rules s key ok).dict } (storeComplete rules s key ok) := by
  rw [storeComplete_eq ok hr hm hy heff]
  have hsent := dictSend_sent (setSession (storeEnded s key r ok)
    { y with reply := if y.seq = r.seq then storeReply key r y ok else y.reply }) r.master y.addr (storeReply key r y ok) hm
  refine ⟨by rw [hsent.dict_eq]; rfl, ?_⟩
  rw [hsent.dict_eq]
  cases ok <;> exact hsent

end

/-- Settles O25: each write reaches the body of its command with its checks passed; what the body accepts is put in the entry or in
the store's queue, and the end of a store tells the writer. -/
theorem dictionaryWritesTakeTheirValue : Obligations.DictionaryWritesTakeTheirValue := by
  intro s q x
  have among {rivals : List DictMsg} (h : ∀ r ∈ rivals, losesTo q r = false) :
      dictWriteAmong odRules (rivals.filter (rivalCounts s.m)) s.m q = dictServe s.m 0x02 q (dictWrite odRules q) :=
    dictWriteAmong_wins _ fun r hr => h r (List.mem_of_mem_filter hr)
  refine ⟨fun e rivals ⟨hs, ⟨he, hl, hw, hlen, hh⟩, hwins⟩ =>
      ⟨fun ⟨ht, hf⟩ => ?segment, fun v ⟨ht, hv, hok⟩ => ⟨fun ⟨hn, hplain⟩ => ?now, fun hy => ?store⟩⟩,
    fun e rivals ⟨hs, ⟨he, hl, hw, hlen, hh⟩, ht, hok, hlose⟩ => ?collision,
    fun e h ⟨hs, he, hw, hh, hf, hl, hlen⟩ => ⟨fun hq => ?next, fun ⟨hq, hy, hok⟩ => ?last⟩,
    fun ⟨hs, hi, hsub, hlevel, _, hdata, hh, _⟩ => ?restore,
    fun ⟨hs, hi, h1, h3, hlevel, _, hdata, hh⟩ => ?keySlot,
    fun k r y ⟨hs, hr, hm, hy, heff⟩ => ⟨?stored, ?failed⟩⟩
  case segment =>
    exact ends_replied hs (exec_dictWrite ..) (among hwins)
      (dictWrite_segment (s := accepted s.m x q) he hl hw hlen hh ht hf) (by simp) rfl rfl
  case now =>
    have hwrite := dictWrite_whole (rules := odRules) (s := accepted s.m x q) he hl hw hlen ht hv hok
    rw [acceptWrite_now hn, show odRules.effect = odEffect from rfl, hplain] at hwrite
    obtain ⟨m, hm, hrep⟩ := ends_replied hs (exec_dictWrite s q rivals) (among hwins) hwrite (by simp) rfl rfl
    have hget (k : Nat) : odGet m k = odGet (odPut (dropHold (accepted s.m x q) _) _ v) k := odGet_congr hrep.live k
    refine ⟨m, hm, (hget _).trans (odGet_odPut_self ..), fun k hk => (hget k).trans (odGet_odPut_other _ _ _ _ hk), hrep⟩
  case store =>
    have hwrite := dictWrite_whole (rules := odRules) (s := accepted s.m x q) he hl hw hlen ht hv hok
    rw [acceptWrite_stores hy] at hwrite
    exact ends_later hs (exec_dictWrite ..) (among hwins) hwrite rfl
  case collision =>
    obtain ⟨r, hr, hcounts, hloses⟩ := hlose
    have hany : (rivals.filter (rivalCounts s.m)).any (losesTo q) = true := List.any_eq_true.2 ⟨r, List.mem_filter.2 ⟨hr, hcounts⟩, hloses⟩
    have hwrite := dictWrite_whole (rules := odRules) (s := accepted s.m x q) he hl hw hlen (.inl ht) rfl hok
    have hrep := dictWriteAmong_loses (rules := odRules) hs hany fun c => hwrite ▸ acceptWrite_ne_abort c
    obtain ⟨⟨-, hoff⟩, -⟩ := id hs
    refine ends_dictLive hoff (exec_dictWrite ..) ⟨hrep, fun hp => ?_, ?_, ?_⟩
    · exact (odNat_congr hrep.live _).trans (recordConflict_loser _ q hp)
    · exact (odNat_congr hrep.live _).trans (recordConflict_count ..)
    · refine ⟨?_, fun k hk => (odGet_congr hrep.live k).trans (recordConflict_other _ q k hk)⟩
      rw [hrep.dict]
      rfl
  case next =>
    exact ends_replied hs (exec_writeNext ..) rfl (dictWriteNext_segment (s := accepted s.m x q) he hl hw hh hf hlen hq) (by simp) rfl rfl
  case last =>
    have hwrite := dictWriteNext_last (rules := odRules) (s := accepted s.m x q) he hl hw hh hf hlen hq hok
    rw [acceptWrite_stores hy] at hwrite
    exact ends_later hs (exec_writeNext ..) rfl hwrite rfl
  case restore =>
    obtain ⟨-, -, hq, -, hx, -⟩ := id hs
    obtain ⟨-, hpath⟩ := findSession_names hx
    have hwrite := dictWrite_restore (s := accepted s.m x q) hi hsub (by omega) hlevel hdata hh
    obtain ⟨m, hm, hrep⟩ := ends_replied hs (exec_restoreDefaults s q) ((if_pos hi).trans (dictWriteAmong_wins _ (by simp))) hwrite
      (by simp) rfl rfl
    exact ⟨m, hm, by rw [hrep.dict]; rfl, hrep.session, hrep.tiles_eq, hrep.job_eq, by rw [hrep.dict]; rfl⟩
  case keySlot =>
    obtain ⟨-, -, hq, -, hx, -⟩ := id hs
    obtain ⟨-, hpath⟩ := findSession_names hx
    obtain ⟨e, hy, hwrite⟩ := dictWrite_keySlot (s := accepted s.m x q) hi h1 h3 (by omega) hlevel hdata hh
    rw [acceptWrite_stores (.inl hy)] at hwrite
    exact ends_later hs (exec_keySlotWrite ..) ((if_pos hi).trans (dictWriteAmong_wins _ (by simp))) hwrite rfl
  case stored =>
    obtain ⟨hdict, hsent⟩ := storeComplete_tells (rules := odRules) true hr hm hy heff
    have hget (j : Nat) : odGet (storeComplete odRules s.m k true) j = odGet (storeEnded s.m k r true) j := odGet_congr (by rw [hdict]) j
    refine ends_live hs (exec_dictStoreComplete ..) ⟨(hget k).trans (odGet_odPut_self ..), ?_, fun j hj => ?_, ?_, hsent⟩
    · rw [hdict]
      exact Sparse.find_put_self ..
    · exact (hget j).trans (odGet_odPut_other _ _ _ _ hj)
    · rw [hdict]
      rfl
  case failed =>
    obtain ⟨hdict, hsent⟩ := storeComplete_tells (rules := odRules) false hr hm hy heff
    exact ends_live hs (exec_dictStoreComplete ..)
      ⟨odGet_congr (by rw [hdict]; rfl), by rw [hdict]; rfl, by rw [hdict]; rfl, hsent⟩

/-! ### HELLO and PROOF (R84, R85, R87) -/

/-- An identifier that is 0 or in use gives way to one that is neither (R85). -/
theorem fresh_of_draw (n : Nat) (used : List Nat) :
    ∃ sid, sid = (if n ≠ 0 && !used.contains n then n else used.foldl max 0 + 1) ∧ sid ≠ 0 ∧ sid ∉ used := by
  refine ⟨_, rfl, ?_⟩
  split
  · next h => simpa using h
  · refine ⟨by simp, fun hmem => ?_⟩
    have hle : used.foldl max 0 + 1 ≤ used.foldl max 0 := by
      conv_rhs => rw [List.foldl_max]
      exact le_max_of_le_right (List.le_max?_getD_of_mem hmem)
    omega

/-- A drawn session identifier is neither 0 nor in use; drawing it changes the counter of free values alone (R85). -/
theorem drawSession_fresh (s : M8) : ∃ sid, drawSession s = (sid, { s with freeCtr := s.freeCtr + 4 }) ∧ sid ≠ 0 ∧
    (∀ y ∈ s.dict.sessions, y.sid ≠ sid) ∧ ∀ y ∈ s.dict.hellos, y.sid ≠ sid := by
  obtain ⟨sid, hsid, hne, hmem⟩ := fresh_of_draw (leNat (drawBytes s 4).1) (s.dict.sessions.map Session.sid ++ s.dict.hellos.map Hello.sid)
  refine ⟨sid, by rw [hsid]; rfl, hne, fun y hy h => hmem ?_, fun y hy h => hmem ?_⟩
  · exact List.mem_append_left _ (List.mem_map.2 ⟨y, hy, h⟩)
  · exact List.mem_append_right _ (List.mem_map.2 ⟨y, hy, h⟩)

theorem drawBytes_draws (s : M8) (k : Nat) : ∃ b, drawBytes s k = (b, { s with freeCtr := s.freeCtr + k }) ∧ b.length = k :=
  ⟨_, rfl, by simp⟩

/-- A HELLO that waits for its PROOF with a drawn identifier and nonce. -/
def newHello (s : M8) (q : DictMsg) (sid : Nat) (nd : Bytes) : Hello :=
  { path := q.path, addr := q.addr, level := leField q.data 0 1, sid := sid, nc := q.data.drop 1, nd := nd, time := s.clk.now }

/-- A HELLO at a level that is neither empty nor locked, with a place free, waits for its PROOF (R87). -/
theorem dictHello_waits {s : M8} {q : DictMsg} (hstop : s.dbg.stop = false) (hp : 2 ≤ q.path) (hon : pathEnabled s q.path = true)
    (hform : formOk q = true) (htag : q.tag = zeros 16) (hsid : q.session = 0) (hlen : q.data.length = 17)
    (hlevel : leField q.data 0 1 ≤ 3) (hpow : odNat s Od.POWER_STATE ≠ 1)
    (hkey : leField q.data 0 1 < 3 → ∃ b ∈ levelKey s (leField q.data 0 1), b ≠ 0#8)
    (hlock : levelLocked s (leField q.data 0 1) = false) (hplace : placesUsed s q.path < pathPlaces s q.path) :
    ∃ sid nd ctr, sid ≠ 0 ∧ nd.length = 16 ∧ (∀ y ∈ s.dict.sessions, y.sid ≠ sid) ∧ (∀ y ∈ s.dict.hellos, y.sid ≠ sid) ∧
      dictHello s q = dictSend { s with dict := { s.dict with hellos := s.dict.hellos ++ [newHello s q sid nd] }, freeCtr := ctr }
        q.path q.addr (dictReply 0x10 q none (.data (natLe 4 sid ++ nd) false)) := by
  obtain ⟨sid, hdraw, hne, hsessions, hhellos⟩ := drawSession_fresh s
  obtain ⟨nd, hbytes, hnd⟩ := drawBytes_draws { s with freeCtr := s.freeCtr + 4 } 16
  refine ⟨sid, nd, s.freeCtr + 4 + 16, hne, hnd, hsessions, hhellos, ?_⟩
  have hfilled : (leField q.data 0 1 < 3 && (levelKey s (leField q.data 0 1)).all (· == 0#8) : Bool) = false := by
    simpa using hkey
  have hlow : ¬q.path < 2 := by omega
  have htop : ¬leField q.data 0 1 > 3 := by omega
  simp only [dictHello, hstop, hon, hform, htag, hsid, hlen, hpow, hlock, hfilled, hlow, htop, hdraw, hbytes, newHello, decide_false,
    Bool.false_or, Bool.not_true, Bool.false_eq_true, ne_eq, not_true_eq_false, if_false, ge_iff_le, Nat.not_le.2 hplace]

/-- The session a HELLO opens, with the key of R84. -/
def newSession (s : M8) (h : Hello) : Session :=
  { path := h.path, addr := h.addr, level := h.level, sid := h.sid, key := sessionKey (levelKey s h.level) h, active := s.clk.now }

/-- A failed proof counts against its level and locks it at AUTH_FAIL_LIMIT (R87). -/
theorem authFail_eq (s : M8) (level : Nat) : authFail s level = { s with dict := { s.dict with
    fails := s.dict.fails.set 0 level (s.dict.fails.get 0 level + 1),
    locks := if odNat s Od.AUTH_FAIL_LIMIT ≤ s.dict.fails.get 0 level + 1
      then Sparse.put s.dict.locks level (s.clk.now + odNat s Od.AUTH_LOCKOUT * 1000000) else s.dict.locks } } := by
  unfold authFail
  by_cases hn : odNat s Od.AUTH_FAIL_LIMIT ≤ s.dict.fails.get 0 level + 1
  · rw [if_pos hn]
    exact if_pos hn
  · rw [if_neg hn]
    exact if_neg hn

section
variable {s : M8} {q : DictMsg} {h : Hello}

/-- A PROOF that matches its HELLO ends it, opens the session and clears the level's count (R84, R87). -/
theorem dictProof_opens (hstop : s.dbg.stop = false) (hp : 2 ≤ q.path) (hon : pathEnabled s q.path = true) (hform : formOk q = true)
    (htag : q.tag = zeros 16) (hlen : q.data.length = 32)
    (hh : (s.dict.hellos.find? fun h => h.sid == q.session && h.path == q.path) = some h)
    (hmatch : clientProof (levelKey s h.level) h = q.data) :
    dictProof s q = dictSend { s with dict := { s.dict with
        hellos := s.dict.hellos.filter (fun g => g.sid != h.sid),
        fails := s.dict.fails.set 0 h.level 0,
        sessions := s.dict.sessions ++ [newSession s h] } }
      q.path q.addr (dictReply 0x11 q none (.data (deviceProof (levelKey s h.level) h) false)) := by
  have hlow : ¬q.path < 2 := by omega
  simp only [dictProof, hstop, hon, hform, htag, hlen, hh, hlow, hmatch, decide_false, Bool.false_or, Bool.not_true, Bool.false_eq_true,
    ne_eq, not_true_eq_false, if_false, if_true, authClear, newSession]

/-- A PROOF that does not match ends its HELLO and counts against the level (R87). -/
theorem dictProof_fails (hstop : s.dbg.stop = false) (hp : 2 ≤ q.path) (hon : pathEnabled s q.path = true) (hform : formOk q = true)
    (htag : q.tag = zeros 16) (hlen : q.data.length = 32)
    (hh : (s.dict.hellos.find? fun h => h.sid == q.session && h.path == q.path) = some h)
    (hmatch : clientProof (levelKey s h.level) h ≠ q.data) :
    dictProof s q = dictSend { s with dict := { s.dict with
        hellos := s.dict.hellos.filter (fun g => g.sid != h.sid),
        fails := s.dict.fails.set 0 h.level (s.dict.fails.get 0 h.level + 1),
        locks := if odNat s Od.AUTH_FAIL_LIMIT ≤ s.dict.fails.get 0 h.level + 1
          then Sparse.put s.dict.locks h.level (s.clk.now + odNat s Od.AUTH_LOCKOUT * 1000000) else s.dict.locks } }
      q.path q.addr (dictReply 0x11 q none (.abort 0x05040001)) := by
  have hlow : ¬q.path < 2 := by omega
  simp only [dictProof, hstop, hon, hform, htag, hlen, hh, hlow, hmatch, decide_false, Bool.false_or, Bool.not_true, Bool.false_eq_true,
    ne_eq, not_true_eq_false, if_false]
  exact congrArg (dictSend · q.path q.addr _) (authFail_eq ..)

end

/-! ### Sessions close (R88, R427) -/

/-- What the end of a session leaves alone in its units: all of the dictionary engine but the values of entries, the tiles, the job. -/
def unitView (s : M8) : Dict × Sparse Tile × Job := ({ s.dict with live := [] }, s.tiles, s.job)

theorem emit_units (s : M8) (o : Output) : Keeps unitView s (emit s o) := rfl

theorem odSet_units (s : M8) (k n : Nat) : Keeps unitView s (odSet s k n) := rfl

theorem setRing_units (s : M8) (k : Nat) (x : Ring) : Keeps unitView s (setRing s k x) := by
  unfold setRing
  exact .trans (b := modRings s _) rfl ((odSet_units ..).trans (odSet_units ..))

theorem modRing_units (s : M8) (k : Nat) (f : Ring → Ring) : Keeps unitView s (modRing s k f) := setRing_units ..

theorem sendRing_units (s : M8) (k type count cid : Nat) (body : Bytes) : Keeps unitView s (sendRing s k type count cid body) :=
  (setRing_units s k { getRing s k with eseq := ((getRing s k).eseq + 1) % 65536 }).trans rfl

theorem giveHold_units (s : M8) (hub pool id owner : Nat) : Keeps unitView s (giveHold s hub pool id owner) := by
  unfold giveHold dropName
  dsimp only
  split
  · exact .refl s
  · exact .ite rfl rfl

theorem giveData_units (s : M8) (k cid : Nat) : Keeps unitView s (giveData s k cid) := by
  unfold giveData
  dsimp only
  refine .trans (.foldl (fun s h => giveHold_units s 0 0 h 3) _ s) (modRing_units _ k _)

theorem postCmd_units (s : M8) (k : Nat) (c : RingCmd) : Keeps unitView s (postCmd s k c) := by
  unfold postCmd
  dsimp only
  have hring := modRing_units s k fun x => { x with cmds := x.cmds.filter fun d => d.seq != c.seq }
  refine .ite hring (.ite ?fabric (.ite ?irq ?quiet))
  case fabric => exact hring.trans ((sendRing_units ..).trans (giveData_units ..))
  case irq => exact hring.trans ((emit_units ..).trans ((setRing_units ..).trans (emit_units ..)))
  case quiet => exact hring.trans ((emit_units ..).trans (setRing_units ..))

theorem dropUnstarted_units (s : M8) (k status : Nat) : Keeps unitView s (dropUnstarted s k status) := by
  unfold dropUnstarted
  refine .foldl (fun s c => ?_) _ s
  exact postCmd_units s k (c.finish status 0)

theorem ringDisable_units (s : M8) (k : Nat) : Keeps unitView s (ringDisable s k) := by
  unfold ringDisable
  dsimp only
  refine .trans (modRing_units s k _) (.ite ?_ (.refl _))
  exact (modRing_units _ k _).trans (dropUnstarted_units _ k 0x0031)

/-- Rings of closed sessions are shut down: the dictionary engine stays as it is (R427). -/
theorem closeOrphans_units (s : M8) : Keeps unitView s (closeOrphans s) :=
  .foldl (fun _ k => .ite (.refl _) (ringDisable_units _ k)) _ s

/-- The machine without the session sid and the transfers it holds. -/
def withoutSession (s : M8) (sid : Nat) : M8 :=
  { s with dict := { s.dict with
    sessions := s.dict.sessions.filter fun x => x.sid != sid, holds := s.dict.holds.filter fun h => h.sid != sid } }

theorem closeSession_units (s : M8) (sid : Nat) : Keeps unitView (withoutSession s sid) (closeSession s sid) := by
  unfold closeSession
  refine .foldl (fun s i => .ite ?_ (.refl s)) _ (withoutSession s sid)
  rfl

/-- Every other session stands. -/
theorem findSession_withoutSession (s : M8) (sid path k : Nat) (h : k ≠ sid) :
    findSession (withoutSession s sid) path k = findSession s path k := by
  simp only [findSession, withoutSession, List.find?_filter]
  refine List.find?_congr fun x _ => ?_
  by_cases hx : x.sid = k
  · simp [hx, h, Bool.beq_eq_decide_eq]
  · simp [hx]

/-- Session sid and its transfers are gone in b, every other session of a and all else that is not a session's stand. -/
structure SessionClosed (sid : Nat) (a b : M8) : Prop where
  gone : ∀ y ∈ b.dict.sessions, y.sid ≠ sid
  freed : ∀ h ∈ b.dict.holds, h.sid ≠ sid
  others : ∀ path k, k ≠ sid → findSession b path k = findSession a path k
  hellos : b.dict.hellos = a.dict.hellos
  stores : b.dict.stores = a.dict.stores
  tiles : b.tiles = a.tiles
  job : b.job = a.job

theorem sessionClosed_of_keeps {s b : M8} {sid : Nat} (h : Keeps unitView (withoutSession s sid) b) : SessionClosed sid s b := by
  have hsessions : b.dict.sessions = (withoutSession s sid).dict.sessions := congrArg (fun v => v.1.sessions) h
  have hholds : b.dict.holds = (withoutSession s sid).dict.holds := congrArg (fun v => v.1.holds) h
  refine ⟨fun y hy => ?_, fun g hg => ?_, fun path k hk => ?_, congrArg (fun v => v.1.hellos) h, congrArg (fun v => v.1.stores) h,
    congrArg (fun v => v.2.1) h, congrArg (fun v => v.2.2) h⟩
  · rw [hsessions] at hy
    simpa using (List.mem_filter.1 hy).2
  · rw [hholds] at hg
    simpa using (List.mem_filter.1 hg).2
  · exact (findSession_congr hsessions path k).trans (findSession_withoutSession s sid path k hk)

/-- A session closes (R88, R427, R620). -/
theorem closeSession_closed (s : M8) (sid : Nat) : SessionClosed sid s (closeOrphans (closeSession s sid)) :=
  sessionClosed_of_keeps ((closeSession_units s sid).trans (closeOrphans_units _))

/-- The first byte of the reply that grants a CLOSE (R76, R88). -/
theorem dictReply_close (q : DictMsg) (key : Option Bytes) : (dictReply 0x12 q key (.data [] false)).take 1 = [0x92#8] := rfl

/-- An accepted CLOSE closes its session after the reply (R88). -/
theorem dictClose_closes {s : State} {q : DictMsg} {x : Session} (h : Serves s 0x12 q x) (hq : q.data = []) :
    ∃ d, Replied 0x12 q x (.data [] false) (accepted s.m x q) d ∧ dictClose s.m q = closeSession d q.session := by
  have hdata : dataAbort q = none := by simp [dataAbort, hq]
  have hrep := serve_replied (body := fun s _ => (.data [] false, s)) h rfl (by simp) rfl rfl
  exact ⟨_, hrep, by simp [dictClose, hdata, hrep.session, dictReply_close]⟩

/-- Settles O26: HELLO and PROOF come to the lemma of what they leave, CLOSE and the idle time to that of a session's end. -/
theorem sessionsOpenAndClose : Obligations.SessionsOpenAndClose := by
  intro s q hs
  obtain ⟨hstop, hoff⟩ := id hs
  refine ⟨fun key ⟨hp, hon, hform, htag⟩ => ⟨?hello, fun h ⟨hlen, hh, hkey⟩ => ⟨fun hmatch => ?opens, fun hmatch => ?fails⟩⟩,
    ⟨fun x ⟨hx, hq⟩ => ?close, fun sid x ⟨hx, hsid, hidle⟩ => ?idle⟩,
    fun h ⟨hh, htime⟩ => ?lapse, fun h ⟨hh, htime⟩ => ?hold, fun level t ⟨hlock, ht⟩ => ?lockout⟩
  case hello =>
    rintro ⟨hsid, hlen, hlevel, hpow, hkey, hlock, hplace⟩
    obtain ⟨sid, nd, ctr, hne, hnd, hsessions, hhellos, heq⟩ :=
      dictHello_waits hstop hp hon hform htag hsid hlen hlevel hpow hkey hlock hplace
    have hsent := dictSend_sent { s.m with
      dict := { s.m.dict with hellos := s.m.dict.hellos ++ [newHello s.m q sid nd] }, freeCtr := ctr } q.path q.addr
      (dictReply 0x10 q none (.data (natLe 4 sid ++ nd) false)) hp
    refine ends_dictLive hoff (exec_hello ..) ⟨sid, nd, hne, hnd, hsessions, hhellos, ?_⟩
    rw [heq, hsent.dict_eq, hsent.freeCtr_eq]
    exact ⟨rfl, hsent⟩
  case opens =>
    subst hkey
    refine ends_dictLive hoff (exec_proof ..) ?_
    rw [dictProof_opens hstop hp hon hform htag hlen hh hmatch, dictSend_dict _ _ _ _ hp]
    exact ⟨rfl, Sparse.get_set_self 0 _ _ 0, fun l hl => Sparse.get_set_other 0 s.m.dict.fails h.level l 0 hl, dictSend_sent _ _ _ _ hp⟩
  case fails =>
    subst hkey
    refine ends_dictLive hoff (exec_proof ..) ?_
    rw [dictProof_fails hstop hp hon hform htag hlen hh hmatch, dictSend_dict _ _ _ _ hp]
    refine ⟨rfl, Sparse.get_set_self 0 _ _ (s.m.dict.fails.get 0 h.level + 1), fun hlt => if_neg (by omega), fun hle => ?_, dictSend_sent _ _ _ _ hp⟩
    dsimp only
    rw [if_pos hle]
    exact Sparse.find_put_self s.m.dict.locks _ _
  case close =>
    obtain ⟨d, hrep, heq⟩ := dictClose_closes hx hq
    obtain ⟨hgone, hfreed, hothers, hhellos, hstores, htiles, hjob⟩ := closeSession_closed d q.session
    obtain ⟨-, -, -, -, hfind, -⟩ := hx
    obtain ⟨hsid, -⟩ := findSession_names hfind
    refine ends_dictLive hoff (exec_close ..) ?_
    rw [heq]
    refine ⟨hgone, hfreed, fun path k hk => ?_, hhellos.trans (by rw [hrep.dict]; rfl), hstores.trans (by rw [hrep.dict]; rfl),
      htiles.trans hrep.tiles_eq, hjob.trans hrep.job_eq⟩
    calc findSession (closeOrphans (closeSession d q.session)) path k
        _ = findSession d path k := hothers path k hk
        _ = findSession (accepted s.m x q) path k := hrep.others path k hk
        _ = findSession s.m path k := findSession_setSession_other _ _ path k (hsid ▸ hk)
  case idle =>
    subst hsid
    have hany : (s.m.dict.sessions.any fun y => y.sid == x.sid && s.m.clk.now ≥ y.active + odNat s.m Od.IDLE_TIMEOUT * 1000000) = true :=
      List.any_eq_true.2 ⟨x, hx, by simpa using hidle⟩
    obtain ⟨hgone, hfreed, hothers, hhellos, hstores, htiles, hjob⟩ := closeSession_closed s.m x.sid
    refine ends_live hs (exec_sessionIdleTimeout ..) ?_
    rw [if_pos hany]
    exact ⟨hgone, hfreed, hothers, hhellos, hstores, htiles, hjob⟩
  case lapse =>
    refine ends_live hs (exec_helloLapse ..) ⟨fun hmem => ?_, fun g hg hne => ?_, rfl⟩
    · have := (List.mem_filter.1 hmem).2
      simp [htime] at this
    · exact List.mem_filter.2 ⟨hg, by simp [hne]⟩
  case hold =>
    have hany : (s.m.dict.holds.any fun g => g.key == h.key && s.m.clk.now ≥ g.time + 1000000000) = true :=
      List.any_eq_true.2 ⟨h, hh, by simpa using htime⟩
    refine ends_live hs (exec_domainHoldTimeout ..) ?_
    rw [if_pos hany]
    refine ⟨fun g hg => ?_, fun g hg hne => List.mem_filter.2 ⟨hg, by simpa using hne⟩, rfl⟩
    simpa using (List.mem_filter.1 hg).2
  case lockout =>
    have hend : exec (.authLockoutEnd level) s = .next { s with
        m := authClear { s.m with dict := { s.m.dict with locks := Sparse.drop s.m.dict.locks level } } level } := by
      rw [exec_authLockoutEnd, execAuthLockoutEnd, live_awake s _ hstop hoff]
      simp only [hlock, ge_iff_le, ht, if_true]
    refine ⟨_, hend, ?_, Sparse.get_set_self 0 _ _ 0, fun l hl => ⟨?_, Sparse.get_set_other 0 s.m.dict.fails level l 0 hl⟩, rfl⟩
    · simp [levelLocked, authClear, Sparse.has, Sparse.find_drop]
    · simp [levelLocked, authClear, Sparse.has, Sparse.find_drop, hl]

/-! ### The mailbox (R81, R82) -/

theorem readMemOnes_congr {a b : M8} (h : b.mem = a.mem) (p n : Nat) : readMemOnes b p n = readMemOnes a p n := by
  induction n generalizing p with
  | zero => rfl
  | succ n ih => simp only [readMemOnes, memByte, h, ih]

/-- A message may go: none is under way, REQ_LEN is that of a message, the service is on. -/
abbrev MayGo (d : M8) (n : Nat) : Prop := d.mbx.busy = false ∧ 32 ≤ n ∧ n ≤ 1056 ∧ odInForce d Od.MBX_ENABLE = 1

/-- MBX_CTL without GO takes its fields alone. -/
theorem mbxGo_fields {d : M8} {v : Nat} (h : v.testBit 0 = false) :
    mbxGo d v = { d with mbx := { d.mbx with reqLen := bits v 31 16, irqEn := v.testBit 1 } } := by
  simp [mbxGo, h]

/-- The machine as the mailbox's message finds it: REQ_LEN and IRQ_EN taken, BUSY, without DONE and RSP_LEN. -/
def mbxTaken (d : M8) (v : Nat) : M8 :=
  { d with mbx := { d.mbx with reqLen := bits v 31 16, irqEn := v.testBit 1, busy := true, done := false, rspLen := 0 } }

/-- GO serves the message in MBX_REQ where it may go, else it sets ERR. -/
theorem mbxGo_go {d : M8} {v : Nat} (h : v.testBit 0 = true) :
    mbxGo d v = if MayGo d (bits v 31 16) then
        let msg := mbxMessage (readMemOnes d 0x030001008800 (bits v 31 16))
        dictByOp (mbxTaken d v) msg.1 msg.2.1 msg.2.2
      else { d with mbx := { d.mbx with reqLen := bits v 31 16, irqEn := v.testBit 1, err := true } } := by
  have hguard : (d.mbx.busy || decide (bits v 31 16 < 32) || decide (bits v 31 16 > 1056) || decide (odInForce d Od.MBX_ENABLE ≠ 1)) = true ↔
      ¬MayGo d (bits v 31 16) := by
    simp only [Bool.or_eq_true, decide_eq_true_eq]
    grind
  have hread := readMemOnes_congr (a := d) (b := mbxTaken d v) rfl 0x030001008800 (bits v 31 16)
  rw [← hread]
  simp only [mbxGo, h, Bool.not_true, Bool.false_eq_true, if_false]
  by_cases hgo : MayGo d (bits v 31 16)
  · rw [if_pos hgo]
    exact if_neg fun hc => hguard.1 hc hgo
  · rw [if_neg hgo]
    exact if_pos (hguard.2 hgo)

/-- Settles O27: what a GO submits is served as the command of its OP serves it. -/
theorem mailboxSubmitsTheMessageInItsBuffer : Obligations.MailboxSubmitsTheMessageInItsBuffer := by
  intro s v hs
  have ends {P : M8 → Prop} (h : P (mbxGo s.m v)) : Ends (.mbxGo v) s P := ends_live (g := fun d => mbxGo d v) hs (exec_mbxGo ..) h
  refine ⟨fun hv => ends (mbxGo_fields hv), fun ⟨hv, hgo⟩ => ends ?_, fun op q ⟨hv, hgo, hq⟩ => ?_⟩
  · rw [mbxGo_go hv, if_neg hgo]
  have hserve : mbxGo s.m v = dictByOp (mbxTaken s.m v) op q.data.length q := by
    rw [mbxGo_go hv, if_pos hgo, hq]
  have as {c : Instr} {g : M8 → M8} (hc : exec c { s with m := mbxTaken s.m v } = dictLive { s with m := mbxTaken s.m v } g)
      (hg : dictByOp (mbxTaken s.m v) op q.data.length q = g (mbxTaken s.m v)) :
      Ends (.mbxGo v) s fun m => exec c { s with m := mbxTaken s.m v } = .next { s with m := m } := by
    refine ends ?_
    rw [hserve, hg, hc, dictLive, show (mbxTaken s.m v).pwr.off = false from hs.2]
    rfl
  refine ⟨?_, ?_, ?_, ?_, ?_, ?_, ?_, ?_⟩
  all_goals rintro rfl
  · exact as (exec_dictRead ..) (by simp [dictByOp])
  · exact as (exec_dictWrite ..) (by simp [dictByOp])
  · exact as (exec_readNext ..) (by simp [dictByOp])
  · exact as (exec_writeNext ..) (by simp [dictByOp])
  · exact as (exec_describe ..) (by simp [dictByOp])
  · exact as (exec_hello ..) (by simp [dictByOp])
  · exact as (exec_proof ..) (by simp [dictByOp])
  · exact as (exec_close ..) (by simp [dictByOp])

end Machine
end Sys2Proof

/-!
PROOFS of the statements of the step timebase: what PAV_EVENT bits, source events, corrections, windows, deadlines and transfers
leave, and of the buffers, credits and slot writes (R104 to R131, R160 to R167, R193, R498 to R500).
-/
namespace Sys2Proof
namespace Machine

/-! ### Entries that count -/

theorem EntriesBut.mono {ks ks' : List Nat} {a b : M8} (h : EntriesBut ks a b) (hsub : ks ⊆ ks') : EntriesBut ks' a b :=
  ⟨h.engine, fun k hk => h.others k fun hin => hk (hsub hin)⟩

theorem EntriesBut.odNat_eq {ks : List Nat} {a b : M8} {k : Nat} (h : EntriesBut ks a b) (hk : k ∉ ks) : odNat b k = odNat a k := by
  rw [odNat, h.others k hk, odNat]

/-- A counter entry of a numeric type counts in its width, and nothing else changes. -/
theorem odInc_countsUp (s : M8) {k w : Nat} {e : OdEntry} (hrow : odKeyRow k = some e) (hnum : e.ty.numeric = true)
    (hwidth : 8 * e.ty.size = w) : CountsUp k w s (odInc s k) :=
  ⟨by rw [odInc, odAdd, odNat_odSet_self _ _ _ _ hrow hnum, hwidth], odInc_entries s k, rfl⟩

/-! ### PAV_EVENT (R104) -/

/-- The counter of a PAV_EVENT bit is a 32-bit entry, and not that of interrupt overruns. -/
theorem pavCounter_row (b : Nat) (h : pavCounter b ≠ 0) :
    pavCounter b ≠ Od.INT_OVERRUNS ∧ ∃ e, odKeyRow (pavCounter b) = some e ∧ e.ty.numeric = true ∧ 8 * e.ty.size = 32 := by
  have hb : b < 9 := by
    by_contra hb
    refine h ?_
    simp only [pavCounter]
    repeat rw [if_neg (by omega)]
  interval_cases b <;> exact ⟨by decide, _, rfl, rfl, rfl⟩

/-- The machine with a PAV_EVENT bit set and counted, its source not yet raised. -/
def pavMarked (s : M8) (b : Nat) : M8 :=
  let s := { s with pav := { s.pav with event := s.pav.event ||| 2 ^ b } }
  if pavCounter b = 0 then s else odInc s (pavCounter b)

theorem pavEvent_marked (s : M8) (b : Nat) : pavEvent s b = setLine (record (pavMarked s b) 0x80 2 0 b) 0x148 true := rfl

theorem pavMarked_rest (s : M8) (b : Nat) : pavMarked s b =
    { s with pav := { s.pav with event := s.pav.event ||| 2 ^ b }, dict := (pavMarked s b).dict } := by
  unfold pavMarked
  split <;> rfl

theorem pavMarked_entries (s : M8) (b : Nat) : EntriesBut [pavCounter b] s (pavMarked s b) := by
  refine .ite (.of_dict rfl) ?_
  exact .trans (b := { s with pav := { s.pav with event := s.pav.event ||| 2 ^ b } }) (.of_dict rfl) (odInc_entries ..)

theorem pavMarked_counter (s : M8) (b : Nat) (h : pavCounter b ≠ 0) :
    odNat (pavMarked s b) (pavCounter b) = (odNat s (pavCounter b) + 1) % 2 ^ 32 := by
  obtain ⟨-, e, hrow, hnum, hw⟩ := pavCounter_row b h
  rw [pavMarked, if_neg h, (odInc_countsUp _ hrow hnum hw).counted]
  rfl

theorem record_dict (s : M8) (r k b a : Nat) : (record s r k b a).dict = s.dict := by rw [record_rest]

/-- What raising the source does to a machine whose bit is set. -/
theorem pavEvent_int (s : M8) (b : Nat) : IntOnly (record (pavMarked s b) 0x80 2 0 b) (pavEvent s b) := by
  rw [pavEvent_marked]
  exact setLine_int ..

theorem pavEvent_overruns (s : M8) (b : Nat) : EntriesBut [Od.INT_OVERRUNS] (pavMarked s b) (pavEvent s b) :=
  .trans (.of_dict (record_dict ..)) (setLine_entries ..)

/-- All that setting a PAV_EVENT bit does (R104, R593). -/
theorem pavEvent_sets (s : M8) (b : Nat) : PavSets b (pavCounter b) s.pav s (pavEvent s b) where
  pavane := by rw [(pavEvent_int s b).pav, record_rest, pavMarked_rest]
  counter h := by
    rw [(pavEvent_overruns s b).odNat_eq (by simpa using (pavCounter_row b h).1), pavMarked_counter s b h]
  line := getSrc_setLine_line _ _ _ (by omega)
  entries := .trans ((pavMarked_entries s b).mono (by simp)) ((pavEvent_overruns s b).mono (by simp))
  debug := by rw [pavEvent_int, record_rest, pavMarked_rest]
  rest := by rw [pavEvent_int, record_rest, pavMarked_rest]

/-! ### What source events change (R106 to R126) -/

/-- Nothing but Pavane, the dictionary, interrupts and debug features differs. -/
def PavOnly (a b : M8) : Prop := b = { a with pav := b.pav, dict := b.dict, intc := b.intc, dbg := b.dbg }

/-- Of Pavane the filter and PAV_EVENT alone differ, and outside it the dictionary, interrupts and debug features alone. -/
def Measures (a b : M8) : Prop := b = { a with
  pav := { a.pav with meas := b.pav.meas, outliers := b.pav.outliers, periodFx := b.pav.periodFx, event := b.pav.event },
  dict := b.dict, intc := b.intc, dbg := b.dbg }

theorem PavOnly.trans {a b c : M8} (h : PavOnly a b) (h' : PavOnly b c) : PavOnly a c := by
  unfold PavOnly at *
  rw [h', h]

theorem Measures.trans {a b c : M8} (h : Measures a b) (h' : Measures b c) : Measures a c := by
  unfold Measures at *
  rw [h', h]

theorem Measures.ite {a x y : M8} {c : Prop} [Decidable c] (hx : Measures a x) (hy : Measures a y) :
    Measures a (if c then x else y) := by
  split <;> assumption

theorem Measures.pavOnly {a b : M8} (h : Measures a b) : PavOnly a b := by
  unfold PavOnly
  rw [h]

theorem pavEvent_measures (s : M8) (b : Nat) : Measures s (pavEvent s b) := by
  unfold Measures
  rw [(pavEvent_sets s b).rest, (pavEvent_sets s b).pavane]

theorem setFilter_measures (s : M8) (ms : List (Nat × Nat)) : Measures s (setFilter s ms) := rfl

/-- A measurement moves the filter and may set PERIOD_REJECT (R115). -/
theorem takeMeasurement_measures (s : M8) (m : Nat × Nat) : Measures s (takeMeasurement s m) := by
  have hrejects := pavEvent_measures s 5
  refine .ite ?_ (.ite (setFilter_measures ..) (.ite (hrejects.trans (setFilter_measures ..)) (hrejects.trans ?_)))
  · exact .trans (b := { s with pav := { s.pav with outliers := [] } }) rfl (pavEvent_measures ..)
  · rfl

/-- A correction sets SLEW_LEFT or a pending jump and nothing else (R118 to R120). -/
theorem correct_rest (s : M8) (t : Nat) (v : Int) : correct s t v = { s with pav := { s.pav with
    slewFx := (correct s t v).pav.slewFx, jump := (correct s t v).pav.jump, jumpFrom := (correct s t v).pav.jumpFrom } } := by
  unfold correct
  dsimp only
  split <;> rfl

/-- In m the timebase of s is corrected by an event of value v0 at time t (R118 to R120). -/
def Corrected (s : M8) (t : Nat) (v0 : Int) (m : M8) : Prop :=
  let v := v0 + (((s.clk.now - t) * 65536 * 65536 / m.pav.periodFx : Nat) : Int)
  ((v - s.pav.tb).natAbs ≤ 32768 → m.pav.slewFx = (v - s.pav.tb) * 2 ^ 32 ∧ m.pav.jump = none) ∧
  (32768 < (v - s.pav.tb).natAbs → m.pav.slewFx = s.pav.slewFx ∧ m.pav.jump = some (s.clk.now, v) ∧ m.pav.jumpFrom = s.pav.tb)

theorem correct_corrected (s : M8) (t : Nat) (v0 : Int) : Corrected s t v0 (correct s t v0) := by
  have hperiod : (correct s t v0).pav.periodFx = s.pav.periodFx := by rw [correct_rest]
  unfold Corrected
  rw [hperiod]
  refine ⟨fun h => ?_, fun h => ?_⟩
  · have hc : correct s t v0 = _ := if_pos h
    exact hc ▸ ⟨rfl, rfl⟩
  · have hc : correct s t v0 = _ := if_neg (Nat.not_le.mpr h)
    exact hc ▸ ⟨rfl, rfl, rfl⟩

/-- What a step source holds after an accepted event (R106). -/
def sourceAfter (s : M8) (src t : Nat) (v : Int) (pulse : Bool) (own : Nat) : PavSrc :=
  let x := getPavSrc s src
  let run := extendRun s x t v pulse own
  let q := x.qualified || run.length ≥ odNat s Od.QUAL_EVENTS
  { x with run := if q then [] else run, qualified := q, last := some (t, v), wasLost := x.wasLost && !(q && !x.qualified) }

theorem setPavSrc_rest (s : M8) (src : Nat) (x : PavSrc) : setPavSrc s src x =
    { s with pav := { s.pav with pkt := (setPavSrc s src x).pav.pkt, stepin := (setPavSrc s src x).pav.stepin } } := by
  unfold setPavSrc
  split <;> rfl

/-- The filter after an event at t with value v, where prev was the source's event before it (R114). -/
def measured (s : M8) (prev : Option (Nat × Int)) (t : Nat) (v : Int) : M8 :=
  match prev with
  | some (t0, v0) => if v - v0 ≥ 32768 then takeMeasurement s (65536 * (t - t0), (v - v0).toNat) else s
  | none => s

theorem measured_measures (s : M8) (prev : Option (Nat × Int)) (t : Nat) (v : Int) : Measures s (measured s prev t v) := by
  unfold measured
  split
  · exact .ite (takeMeasurement_measures ..) rfl
  · rfl

/-- An event of the active qualified source of a running Pavane is measured, then corrects the phase (R114, R118). -/
theorem sourceEvent_active {s : M8} {src : Nat} (t : Nat) (v : Int) (pulse : Bool) (own : Nat) (hrun : s.pav.running = true)
    (hsrc : s.pav.src = src) (hq : (getPavSrc s src).qualified = true) : sourceEvent s src t v pulse own =
    correct (measured (setPavSrc s src (sourceAfter s src t v pulse own)) (getPavSrc s src).last t v) t v := by
  have hrun' (x : PavSrc) : (setPavSrc s src x).pav.running = true := by rw [setPavSrc_rest, hrun]
  have hsrc' (x : PavSrc) : (setPavSrc s src x).pav.src = src := by rw [setPavSrc_rest, hsrc]
  simp only [sourceEvent, sourceAfter, measured, hq, hrun', hsrc', Bool.true_or, Bool.not_true, Bool.and_false, Bool.false_and,
    Bool.false_eq_true, if_true, if_false] <;> rfl

/-- What both step sources hold, and the edge that waits for its word. -/
def sources (s : M8) : PavSrc × PavSrc × Option Nat := (s.pav.pkt, s.pav.stepin, s.pav.edge)

theorem Measures.sources {a b : M8} (h : Measures a b) : Keeps sources a b := by
  unfold Keeps Machine.sources
  rw [h]

theorem correct_sources (s : M8) (t : Nat) (v : Int) : Keeps sources s (correct s t v) := by
  unfold Keeps sources
  rw [correct_rest]

theorem switchSrc_sources (s : M8) (src : Nat) : Keeps sources s (switchSrc s src) := by
  refine .ite (.trans (b := { s with pav := { s.pav with src := src } }) rfl ?_) (.refl s)
  exact (pavEvent_measures ..).sources

/-- While Pavane runs an event changes what its own source holds, and nothing of the other. -/
theorem sourceEvent_running {s : M8} (src t : Nat) (v : Int) (pulse : Bool) (own : Nat) (hrun : s.pav.running = true) :
    Keeps sources (setPavSrc s src (sourceAfter s src t v pulse own)) (sourceEvent s src t v pulse own) := by
  have hrun' (x : PavSrc) : (setPavSrc s src x).pav.running = true := by rw [setPavSrc_rest, hrun]
  simp only [sourceEvent, hrun', Bool.not_true, Bool.false_eq_true, if_false]
  have hreturn {c : Prop} [Decidable c] (x : M8) : Keeps sources x (if c then pavEvent x 1 else x) :=
    .ite (pavEvent_measures ..).sources (.refl x)
  refine .trans (hreturn _) (.ite (.trans (switchSrc_sources ..) (correct_sources ..)) (.ite ?_ (.refl _)))
  exact .trans (measured_measures _ (getPavSrc s src).last t v).sources (correct_sources ..)

/-! ### The direct set (R126) -/

theorem TileOnly.pav {a b : M8} (h : TileOnly a b) : b.pav = a.pav := by rw [h]

theorem startTile_pav (s : M8) (t : Nat) : Keeps M8.pav s (startTile s t) :=
  (enterTileSt_tile (progressed { modTile s t _ with safe := _ } t) t .running).pav

theorem enterJobState_pav (s : M8) (st : Nat) : Keeps M8.pav s (enterJobState s st) := (enterJobState_tile s st).pav

/-- The direct set leaves the sources as numbering a pulse leaves them. -/
theorem directSet_numbers (s : M8) (src : Nat) (run : List (Nat × Int)) (v : Int) (pulse : Bool) (own : Nat) :
    ∃ d, Keeps sources s d ∧ d.dict = s.dict ∧ Keeps M8.pav (numberPulse d) (directSet s src run v pulse own) := by
  unfold directSet
  refine ⟨_, ?_, ?_, .trans (enterJobState_pav _ 3) (Keeps.foldl (fun s t => .ite (startTile_pav s t) (.refl s)) _ _)⟩ <;> rfl

theorem numberPulse_coded {s : M8} (h : odNat s Od.STEPIN_MODE = 1) : numberPulse s = s := if_pos h

theorem numberPulse_pulse {s : M8} (h : odNat s Od.STEPIN_MODE ≠ 1) : numberPulse s = { s with pav := { s.pav with
    stepin := { s.pav.stepin with last := s.pav.stepin.last.map fun e => (e.1, nearestBoundary s e.1) } } } := if_neg h

/-- A pulse is numbered in its value alone (R126). -/
theorem numberPulse_sources (s : M8) : (numberPulse s).pav.pkt = s.pav.pkt ∧ (numberPulse s).pav.edge = s.pav.edge ∧
    (numberPulse s).pav.stepin.last.map Prod.fst = s.pav.stepin.last.map Prod.fst ∧
    (odNat s Od.STEPIN_MODE = 1 → (numberPulse s).pav.stepin = s.pav.stepin) := by
  by_cases h : odNat s Od.STEPIN_MODE = 1
  · rw [numberPulse_coded h]
    exact ⟨rfl, rfl, rfl, fun _ => rfl⟩
  · rw [numberPulse_pulse h]
    exact ⟨rfl, rfl, by rw [Option.map_map]; rfl, fun h' => absurd h' h⟩

/-- While Pavane does not run an event is only taken, or it starts Pavane (R126). -/
theorem sourceEvent_stopped {s : M8} (src t : Nat) (v : Int) (pulse : Bool) (own : Nat) (hrun : s.pav.running = false) :
    let d := setPavSrc s src (sourceAfter s src t v pulse own)
    sourceEvent s src t v pulse own = d ∨ ∃ run, sourceEvent s src t v pulse own = directSet d src run v pulse own := by
  intro d
  have hrun' : (!d.pav.running) = true := by unfold d; rw [setPavSrc_rest, hrun]; rfl
  have hstopped : sourceEvent s src t v pulse own = if _ then directSet d src _ v pulse own else d := if_pos hrun'
  rw [hstopped]
  exact (ite_eq_or_eq _ _ _).symm.imp id fun h => ⟨_, h⟩

/-- The sources of m are those of d, but for the value of STEP_IN's last event where it is not fixed. -/
structure TakenAs (fixed : Prop) (d m : M8) : Prop where
  pkt : m.pav.pkt = d.pav.pkt
  edge : m.pav.edge = d.pav.edge
  time : m.pav.stepin.last.map Prod.fst = d.pav.stepin.last.map Prod.fst
  stepin : fixed → m.pav.stepin = d.pav.stepin

theorem TakenAs.of_keeps {fixed : Prop} {d m : M8} (h : Keeps sources d m) : TakenAs fixed d m := by
  obtain ⟨hpkt, h⟩ := Prod.mk.inj h
  obtain ⟨hstepin, hedge⟩ := Prod.mk.inj h
  exact ⟨hpkt, hedge, by rw [hstepin], fun _ => hstepin⟩

/-- An event leaves the sources as it takes it, but for the value of a pulse that starts Pavane (R106, R126). -/
theorem sourceEvent_taken (s : M8) (src t : Nat) (v : Int) (pulse : Bool) (own : Nat) :
    TakenAs (s.pav.running = true ∨ odNat s Od.STEPIN_MODE = 1) (setPavSrc s src (sourceAfter s src t v pulse own))
      (sourceEvent s src t v pulse own) := by
  cases hrun : s.pav.running with
  | true => exact .of_keeps (sourceEvent_running src t v pulse own hrun)
  | false =>
    obtain hm | ⟨run, hm⟩ := sourceEvent_stopped src t v pulse own hrun
    · exact .of_keeps (congrArg sources hm)
    · obtain ⟨d, hsources, hdict, hpav⟩ :=
        directSet_numbers (setPavSrc s src (sourceAfter s src t v pulse own)) src run v pulse own
      have hmode : odNat d Od.STEPIN_MODE = odNat s Od.STEPIN_MODE := odNat_congr (by rw [hdict, setPavSrc_rest]) _
      obtain ⟨hpkt, hedge, htime, hstepin⟩ := numberPulse_sources d
      obtain ⟨hdpkt, hsources⟩ := Prod.mk.inj hsources
      obtain ⟨hdstepin, hdedge⟩ := Prod.mk.inj hsources
      have hp : (sourceEvent s src t v pulse own).pav = (numberPulse d).pav := (congrArg M8.pav hm).trans hpav
      exact ⟨by rw [hp, hpkt, hdpkt], by rw [hp, hedge, hdedge], by rw [hp, htime, hdstepin],
        fun h => by rw [hp, hstepin (by simpa [hmode] using h), hdstepin]⟩

/-- What an event of the active qualified source of a running Pavane leaves (R114, R118 to R120). -/
theorem sourceEvent_corrected {s : M8} {src : Nat} (t : Nat) (v : Int) (pulse : Bool) (own : Nat) (hrun : s.pav.running = true)
    (hsrc : s.pav.src = src) (hq : (getPavSrc s src).qualified = true) :
    Corrected s t v (sourceEvent s src t v pulse own) ∧ (sourceEvent s src t v pulse own).pav.tb = s.pav.tb ∧
      PavOnly s (sourceEvent s src t v pulse own) := by
  have htaken := setPavSrc_rest s src (sourceAfter s src t v pulse own)
  have hm := measured_measures (setPavSrc s src (sourceAfter s src t v pulse own)) (getPavSrc s src).last t v
  rw [sourceEvent_active t v pulse own hrun hsrc hq]
  generalize measured _ _ t v = d at hm ⊢
  generalize setPavSrc s src _ = e at hm htaken
  have hc := correct_rest d t v
  refine ⟨?_, ?_, ?_⟩
  · have hd := correct_corrected d t v
    unfold Corrected at hd ⊢
    rwa [show d.clk = s.clk by rw [hm, htaken], show d.pav.tb = s.pav.tb by rw [hm, htaken],
      show d.pav.slewFx = s.pav.slewFx by rw [hm, htaken]] at hd
  · rw [hc, hm, htaken]
  · unfold PavOnly
    rw [hc, hm, htaken]

/-! ### Timing packets, edges and coded words (R109 to R113) -/

theorem nearestBoundary_eq (s : M8) (t : Nat) : nearestBoundary s t =
    (let here : Int := s.pav.tb - (((s.clk.now - t) * 65536 * 65536 / s.pav.periodFx : Nat) : Int)
     if here % 65536 ≥ 32768 then (here / 65536 + 1) * 65536 else here / 65536 * 65536) := by
  simp only [nearestBoundary, periodPu]
  split <;> omega

/-- The machine with a packet's SEQ kept. -/
def packetTaken (s : M8) (b : Bytes) : M8 := { s with pav := { s.pav with pkt := { s.pav.pkt with seq := some (leField b 24 2) } } }

/-- A packet that passes its checks is an event of the packet source, or begins the measurement of its sender's offset (R109, R487). -/
theorem timingPacket_accepted {s : M8} {src : Nat} {b : Bytes} (hjob : 2 ≤ jobState s)
    (hen : (odNat s Od.PAV_SRC_ENABLE).testBit 0 = true) (hok : packetOk s src b = true) : timingPacket s src b =
      if odNat s Od.OFFSET_SRC_ADDR = src then
        sourceEvent (packetTaken s b) 1 s.clk.now (projectPacket s src s.clk.now b) false (leField b 16 8)
      else beginOffset (packetTaken s b) src true := by
  simp only [timingPacket, pavListens, hjob, hen, hok, decide_true, Bool.not_true, Bool.or_self, Bool.false_eq_true, if_false]
  exact (if_congr bne_iff_ne rfl rfl).trans (ite_not ..)

theorem beginOffset_new {s : M8} {peer : Nat} {src : Bool} (h : ∀ o ∈ s.fab.offsets, o.peer ≠ peer) : beginOffset s peer src =
    { s with fab := { s.fab with offsets := s.fab.offsets ++ [{ peer := peer, src := src }] } } := by
  have hfind : (s.fab.offsets.find? fun o => o.peer == peer) = none := by simpa using h
  simp only [beginOffset, hfind]

/-- What an edge does, of an enabled STEP_IN outside words, that does not come too soon (R111 to R113). -/
def edgeTaken (m : M8) : M8 :=
  let t := m.clk.now - odNat m Od.STEPIN_DELAY_NS
  if odNat m Od.STEPIN_MODE = 1 then { m with pav := { m.pav with edge := some t } }
  else sourceEvent m 2 t (nearestBoundary m t) true 0

/-- STEP_IN_EDGE ends in the edge taken. -/
theorem ends_stepInEdge {s : State} {P : M8 → Prop} (hs : s.awake) (hjob : 2 ≤ jobState s.m)
    (hen : (odNat s.m Od.PAV_SRC_ENABLE).testBit 1 = true)
    (hword : insideWord s.m (s.m.clk.now - odNat s.m Od.STEPIN_DELAY_NS) = false)
    (hsoon : edgeTooSoon s.m (s.m.clk.now - odNat s.m Od.STEPIN_DELAY_NS) = false) (hP : P (edgeTaken s.m)) : Ends .stepInEdge s P := by
  refine ends_live hs (exec_stepInEdge s) ?_
  simp only [pavListens, hjob, hen, hword, hsoon, decide_true, Bool.not_true, Bool.false_eq_true, if_false]
  exact hP

/-- STEP_IN_CODED_WORD of a good word ends in the event of the edge that waits for it (R113). -/
theorem ends_stepInCodedWord {s : State} {word t : Nat} {P : M8 → Prop} (hs : s.awake) (hjob : 2 ≤ jobState s.m)
    (hen : (odNat s.m Od.PAV_SRC_ENABLE).testBit 1 = true) (hmode : odNat s.m Od.STEPIN_MODE = 1) (hedge : s.m.pav.edge = some t)
    (hok : codedOk s.m word = true)
    (hP : P (sourceEvent { s.m with pav := { s.m.pav with edge := none } } 2 t ((bits word 47 0 * 65536 : Nat) : Int) false 0)) :
    Ends (.stepInCodedWord word) s P := by
  refine ends_live hs (exec_stepInCodedWord ..) ?_
  have hok' : codedOk { s.m with pav := { s.m.pav with edge := none } } word = true := hok
  simp only [pavListens, hjob, hen, hmode, hedge, decide_true, Bool.not_true, ne_eq, not_true_eq_false, decide_false, Bool.or_self,
    Bool.false_eq_true, if_false, hok', if_true]
  exact hP

/-! ### Lost sources and holdover (R106, R123, R124) -/

/-- While Pavane runs a change of the active source is set in PAV_EVENT (R123). -/
theorem switchSrc_pav {s : M8} {src : Nat} (hrun : s.pav.running = true) (hsrc : s.pav.src ≠ src) :
    (switchSrc s src).pav = { s.pav with src := src, event := s.pav.event ||| 2 ^ 3 } := by
  rw [switchSrc, if_pos (by simp [hrun, hsrc]), (pavEvent_sets _ 3).pavane]

/-- The machine with the beginning of holdover noted, the active source as it was (R124). -/
def holdoverNoted (s : M8) : M8 := { s with pav := { s.pav with jump := none, holdFrom := s.pav.tb / 65536, warned := false } }

theorem enterHoldover_noted (s : M8) : enterHoldover s = pavEvent (switchSrc (holdoverNoted s) 3) 2 := rfl

/-- A running Pavane enters holdover at its present step, without a pending jump (R124). -/
theorem enterHoldover_pav {s : M8} (hrun : s.pav.running = true) (hsrc : s.pav.src ≠ 3) :
    (enterHoldover s).pav = { (holdoverNoted s).pav with src := 3, event := s.pav.event ||| 2 ^ 3 ||| 2 ^ 2 } := by
  rw [enterHoldover_noted, (pavEvent_sets _ 2).pavane, switchSrc_pav (s := holdoverNoted s) hrun hsrc]
  rfl

/-- What the loss of a source sets stands in b as in a. -/
structure LossStands (a b : M8) : Prop where
  sources : Keeps sources a b
  timebase : b.pav.tb = a.pav.tb
  event : ∀ i, a.pav.event.testBit i = true → b.pav.event.testBit i = true
  losses : odNat b Od.SRC_LOSSES = odNat a Od.SRC_LOSSES
  only : PavOnly a b

theorem LossStands.refl (a : M8) : LossStands a a := ⟨rfl, rfl, fun _ h => h, rfl, rfl⟩

theorem LossStands.trans {a b c : M8} (h : LossStands a b) (h' : LossStands b c) : LossStands a c :=
  ⟨h.sources.trans h'.sources, h'.timebase.trans h.timebase, fun i hi => h'.event i (h.event i hi), h'.losses.trans h.losses,
    h.only.trans h'.only⟩

theorem LossStands.ite {a x y : M8} {c : Prop} [Decidable c] (hx : LossStands a x) (hy : LossStands a y) :
    LossStands a (if c then x else y) := by
  split <;> assumption

theorem pavEvent_lossStands (s : M8) {b : Nat} (h : Od.SRC_LOSSES ∉ [pavCounter b, Od.INT_OVERRUNS]) : LossStands s (pavEvent s b) := by
  have hset := pavEvent_sets s b
  refine ⟨(pavEvent_measures s b).sources, by rw [hset.pavane], fun i hi => ?_, hset.entries.odNat_eq h, (pavEvent_measures s b).pavOnly⟩
  rw [hset.pavane, Nat.testBit_or, hi, Bool.true_or]

theorem switchSrc_lossStands (s : M8) (src : Nat) : LossStands s (switchSrc s src) := by
  refine .ite (.trans (b := { s with pav := { s.pav with src := src } }) ⟨rfl, rfl, fun _ h => h, rfl, rfl⟩ ?_) (.refl s)
  exact pavEvent_lossStands _ (by decide)

theorem enterHoldover_lossStands (s : M8) : LossStands s (enterHoldover s) := by
  refine .trans (b := holdoverNoted s) ⟨rfl, rfl, fun _ h => h, rfl, rfl⟩ (.trans (switchSrc_lossStands _ 3) ?_)
  exact pavEvent_lossStands _ (by decide)

/-- The machine with a source lost and SRC_LOSS set, the active source as it was (R106). -/
def sourceLost (s : M8) (src : Nat) : M8 :=
  pavEvent (setPavSrc s src { getPavSrc s src with qualified := false, run := [], wasLost := true }) 0

/-- Where the lost source was the active one the other takes its place, or holdover begins (R123, R124). -/
def sourceReplaced (s : M8) (src : Nat) : M8 :=
  if s.pav.src = src then if (getPavSrc s (3 - src)).qualified then switchSrc s (3 - src) else enterHoldover s else s

theorem sourceReplaced_lossStands (s : M8) (src : Nat) : LossStands s (sourceReplaced s src) :=
  .ite (.ite (switchSrc_lossStands ..) (enterHoldover_lossStands s)) (.refl s)

/-- SRC_LOST ends in the source lost and, when it was the active one, in the other source or in holdover (R106, R123, R124). -/
theorem ends_srcLost {s : State} {src t : Nat} {v : Int} {P : M8 → Prop} (hs : s.awake) (hsrc : src = 1 ∨ src = 2)
    (hlast : (getPavSrc s.m src).last = some (t, v)) (hq : (getPavSrc s.m src).qualified = true) (hjob : 2 ≤ jobState s.m)
    (hperiod : s.m.pav.periodFx ≠ 0) (hpassed : boundariesPassed s.m t v = true)
    (hP : P (sourceReplaced (sourceLost s.m src) src)) : Ends (.srcLost src) s P := by
  refine ends_live hs (exec_srcLost ..) ?_
  have hother : (if src = 1 then 2 else 1) = 3 - src := by split <;> omega
  have hone : (decide (src = 1) || decide (src = 2)) = true := by simpa using hsrc
  simp only [hlast, hone, hq, pavListens, hjob, hperiod, hpassed, hother, decide_true, ne_eq, not_false_eq_true, Bool.and_self, if_true]
  simp only [sourceReplaced, sourceLost, hlast] at hP
  exact hP

theorem getPavSrc_setPavSrc_self (s : M8) (src : Nat) (x : PavSrc) : getPavSrc (setPavSrc s src x) src = x := by
  unfold getPavSrc setPavSrc
  split <;> rfl

theorem getPavSrc_setPavSrc_other {s : M8} {src : Nat} (x : PavSrc) (hsrc : src = 1 ∨ src = 2) :
    getPavSrc (setPavSrc s src x) (3 - src) = getPavSrc s (3 - src) := by
  obtain rfl | rfl := hsrc <;> rfl

theorem getPavSrc_congr {a b : M8} (h : Keeps sources a b) (src : Nat) : getPavSrc b src = getPavSrc a src := by
  obtain ⟨hpkt, h⟩ := Prod.mk.inj h
  obtain ⟨hstepin, -⟩ := Prod.mk.inj h
  rw [getPavSrc, getPavSrc, hpkt, hstepin]


/-- What SRC_LOSS leaves (R104, R106). -/
theorem sourceLost_stands {s m : M8} {src : Nat} (h : LossStands (sourceLost s src) m) :
    (getPavSrc m src).qualified = false ∧ (getPavSrc m src).wasLost = true ∧ m.pav.event.testBit 0 = true ∧
      odNat m Od.SRC_LOSSES = (odNat s Od.SRC_LOSSES + 1) % 2 ^ 32 ∧ m.pav.tb = s.pav.tb ∧ PavOnly s m := by
  have hset := pavEvent_sets (setPavSrc s src { getPavSrc s src with qualified := false, run := [], wasLost := true }) 0
  have hkept := (pavEvent_measures (setPavSrc s src { getPavSrc s src with qualified := false, run := [], wasLost := true }) 0).sources
  have hsrc := (getPavSrc_congr (hkept.trans h.sources) src).trans (getPavSrc_setPavSrc_self ..)
  have hrest := setPavSrc_rest s src { getPavSrc s src with qualified := false, run := [], wasLost := true }
  refine ⟨by rw [hsrc], by rw [hsrc], h.event 0 ?_, ?_, ?_, .trans ?_ h.only⟩
  · rw [sourceLost, hset.pavane, Nat.testBit_or, Nat.testBit_two_pow_self, Bool.or_true]
  · exact h.losses.trans ((hset.counter (by decide)).trans (by rw [hrest]; rfl))
  · rw [h.timebase, sourceLost, hset.pavane, hrest]
  · unfold PavOnly
    rw [sourceLost, hset.rest, hrest]

/-- What Pavane was before the bit is set does not matter to the rest. -/
theorem PavSets.of_pav {bit key : Nat} {p q : Pavane} {a b : M8} (h : PavSets bit key p { a with pav := q } b) : PavSets bit key p a b :=
  ⟨h.pavane, h.counter, h.line, ⟨h.entries.engine, h.entries.others⟩, h.debug, h.rest⟩

theorem sourceLost_pav (s : M8) (src : Nat) : (sourceLost s src).pav.src = s.pav.src ∧
    (sourceLost s src).pav.running = s.pav.running ∧ (sourceLost s src).pav.tb = s.pav.tb := by
  rw [sourceLost, (pavEvent_sets ..).pavane, setPavSrc_rest]
  exact ⟨rfl, rfl, rfl⟩

theorem getPavSrc_sourceLost_other {s : M8} {src : Nat} (hsrc : src = 1 ∨ src = 2) :
    getPavSrc (sourceLost s src) (3 - src) = getPavSrc s (3 - src) := by
  rw [sourceLost, getPavSrc_congr (pavEvent_measures ..).sources, getPavSrc_setPavSrc_other _ hsrc]

/-- Settles O18: each command comes to the event it is, and the lemma of that event says what it leaves. -/
theorem stepSourcesDriveTheTimebase : Obligations.StepSourcesDriveTheTimebase := by
  intro s hs
  refine ⟨fun src b ⟨hjob, hen, hok⟩ => ⟨fun hknown => ?packet, fun ⟨hunknown, hnone⟩ => ?begins⟩,
    fun ⟨hjob, hen⟩ => ⟨fun ⟨hword, hsoon, hmode⟩ => ?coded, fun ⟨hsoon, hmode⟩ => ?pulse, fun word t' ⟨hmode, hedge, hok⟩ => ?word⟩,
    fun src t v ⟨hsrc, hlast, hq, hjob, hperiod, hpassed⟩ => ?lost, fun ⟨hsrc, hwarned, hsteps⟩ => ?warn⟩
  case packet =>
    refine ends_live (g := fun m => timingPacket m src b) hs (exec_timingPacket ..) ?_
    rw [timingPacket_accepted hjob hen hok, if_pos hknown]
    have htaken := sourceEvent_taken (packetTaken s.m b) 1 s.m.clk.now (projectPacket s.m src s.m.clk.now b) false (leField b 16 8)
    refine ⟨by rw [htaken.pkt]; rfl, by rw [htaken.pkt]; rfl, fun h => (htaken.stepin h).trans rfl, fun ⟨hrun, hact, hq⟩ => ?_⟩
    exact sourceEvent_corrected (s := packetTaken s.m b) _ _ _ _ hrun hact hq
  case begins =>
    refine ends_live (g := fun m => timingPacket m src b) hs (exec_timingPacket ..) ?_
    rw [timingPacket_accepted hjob hen hok, if_neg hunknown, beginOffset_new (s := packetTaken s.m b) hnone]
    rfl
  case coded =>
    refine ends_stepInEdge hs hjob hen hword hsoon ?_
    rw [edgeTaken, if_pos hmode]
  case pulse =>
    refine ends_stepInEdge hs hjob hen (by simp [insideWord, hmode]) hsoon ?_
    rw [edgeTaken, if_neg hmode]
    have hnear := nearestBoundary_eq s.m (s.m.clk.now - odNat s.m Od.STEPIN_DELAY_NS)
    have htaken := sourceEvent_taken s.m 2 (s.m.clk.now - odNat s.m Od.STEPIN_DELAY_NS)
      (nearestBoundary s.m (s.m.clk.now - odNat s.m Od.STEPIN_DELAY_NS)) true 0
    obtain ⟨⟨_, v⟩, hlast, rfl⟩ := Option.map_eq_some_iff.1 htaken.time
    refine ⟨⟨v, hlast, fun hrun => ?_⟩, htaken.pkt, fun ⟨hrun, hact, hq⟩ => ?_⟩
    · have hfixed := congrArg PavSrc.last (htaken.stepin (.inl hrun))
      rw [hlast] at hfixed
      exact (congrArg Prod.snd (Option.some.inj hfixed)).trans hnear
    · obtain ⟨hcorrected, hrest⟩ := sourceEvent_corrected (s := s.m) _ (nearestBoundary s.m _) true 0 hrun hact hq
      exact ⟨(congrArg (Corrected s.m _ · _) hnear).mp hcorrected, hrest⟩
  case word =>
    have hvalue : bits word 47 0 = word % 2 ^ 48 := by simp [bits]
    refine ends_stepInCodedWord hs hjob hen hmode hedge hok ?_
    rw [hvalue]
    have htaken := sourceEvent_taken { s.m with pav := { s.m.pav with edge := none } } 2 t'
      ((word % 2 ^ 48 * 65536 : Nat) : Int) false 0
    refine ⟨congrArg PavSrc.last (htaken.stepin (.inr hmode)), htaken.edge, htaken.pkt, fun ⟨hrun, hact, hq⟩ => ?_⟩
    exact sourceEvent_corrected (s := { s.m with pav := { s.m.pav with edge := none } }) _ _ _ _ hrun hact hq
  case lost =>
    have hpassed' : boundariesPassed s.m t v = true := decide_eq_true (by rwa [Nat.mul_assoc _ 65536 65536])
    refine ends_srcLost hs hsrc hlast hq hjob hperiod hpassed' ?_
    obtain ⟨hactive, hrunning, htb⟩ := sourceLost_pav s.m src
    obtain ⟨hqual, hwas, hevent, hlosses, htb', honly⟩ := sourceLost_stands (sourceReplaced_lossStands (sourceLost s.m src) src)
    refine ⟨hqual, hwas, hevent, hlosses, htb', fun ⟨hact, hrun, hother⟩ => ?_, fun ⟨hact, hrun, hother⟩ => ?_, fun hact => ?_, honly⟩
    · rw [sourceReplaced, if_pos (hactive.trans hact), if_pos (by rw [getPavSrc_sourceLost_other hsrc, hother]),
        switchSrc_pav (hrunning.trans hrun) (by rw [hactive, hact]; omega)]
      exact ⟨rfl, by rw [Nat.testBit_or, Nat.testBit_two_pow_self, Bool.or_true]⟩
    · rw [sourceReplaced, if_pos (hactive.trans hact), if_neg (by rw [getPavSrc_sourceLost_other hsrc, hother]; simp),
        enterHoldover_pav (hrunning.trans hrun) (by rw [hactive, hact]; omega)]
      exact ⟨rfl, by rw [Nat.testBit_or, Nat.testBit_two_pow_self, Bool.or_true], congrArg (· / 65536) htb, rfl⟩
    · rw [sourceReplaced, if_neg (by rwa [hactive]), hactive]
  case warn =>
    refine ends_live hs (exec_holdoverWarn s) ?_
    rw [if_pos (by simp only [hsrc, hwarned, ge_iff_le, hsteps]; rfl)]
    exact (pavEvent_sets { s.m with pav := { s.m.pav with warned := true } } 9).of_pav

/-! ### The phase (R116) -/

/-- Pavane d of 2^-32 pu later (R116). -/
def advancedPav (p : Pavane) (d : Nat) : Pavane :=
  let total := p.tb * 2 ^ 32 + p.frac + d
  { p with tb := total / 2 ^ 32 % 2 ^ 64, frac := total % 2 ^ 32, highest := max p.highest (total / 2 ^ 32 % 2 ^ 64) }

/-- The machine with the steps passed in holdover counted when the timebase comes to tb (R104, R122). -/
def holdoverCounted (s : M8) (tb : Nat) : M8 :=
  if s.pav.src = 3 && tb / 65536 > s.pav.tb / 65536 then odAdd s Od.HOLDOVER_STEPS (tb / 65536 - s.pav.tb / 65536) else s

theorem advanceTb_eq (s : M8) (d : Nat) :
    advanceTb s d = { holdoverCounted s (advancedPav s.pav d).tb with pav := advancedPav s.pav d } := rfl

theorem holdoverCounted_rest (s : M8) (tb : Nat) : holdoverCounted s tb = { s with dict := (holdoverCounted s tb).dict } := by
  unfold holdoverCounted
  split <;> rfl

theorem holdoverCounted_entries (s : M8) (tb : Nat) : EntriesBut [Od.HOLDOVER_STEPS] s (holdoverCounted s tb) := by
  refine .ite ?_ (.of_dict rfl)
  exact ⟨rfl, fun k hk => odGet_odPut_other s _ k _ (by simpa using hk)⟩

theorem advanceTb_entries (s : M8) (d : Nat) : EntriesBut [Od.HOLDOVER_STEPS] s (advanceTb s d) := by
  have hdict : (advanceTb s d).dict = (holdoverCounted s (advancedPav s.pav d).tb).dict := by rw [advanceTb_eq]
  exact (holdoverCounted_entries ..).trans (.of_dict hdict)

theorem advanceTb_rest (s : M8) (d : Nat) : advanceTb s d = { s with pav := (advanceTb s d).pav, dict := (advanceTb s d).dict } := by
  have h : advanceTb s d = { s with pav := advancedPav s.pav d, dict := (holdoverCounted s (advancedPav s.pav d).tb).dict } := by
    rw [advanceTb_eq, holdoverCounted_rest]
  rw [h]

/-- The timebase with its fraction is a number modulo 2^96. -/
theorem advancedPav_value (p : Pavane) (d : Nat) :
    (advancedPav p d).tb * 2 ^ 32 + (advancedPav p d).frac = (p.tb * 2 ^ 32 + p.frac + d) % 2 ^ 96 := by
  simp only [advancedPav]
  omega

/-- Pavane with its slew spent. -/
def slewSpent (s : M8) : M8 := { s with pav := { s.pav with slewFx := 0 } }

/-- The end of a slew makes up what is left of it (R116). -/
theorem ends_slewDone {s : State} {P : M8 → Prop} (hs : s.awake) (hrun : s.m.pav.running = true) (hleft : s.m.pav.slewFx ≠ 0)
    (hlast : s.m.pav.slewFx.natAbs ≤ slewPhase s.m.pav.periodFx)
    (hP : P (advanceTb (slewSpent s.m) (hclkPhase s.m.pav.periodFx + s.m.pav.slewFx).toNat)) :
    Ends .slewDone s P := by
  have hle : slewPhase s.m.pav.periodFx ≤ hclkPhase s.m.pav.periodFx := Nat.div_le_self ..
  have hguard : (s.m.pav.running && decide (s.m.pav.slewFx ≠ 0) && decide (s.m.pav.slewFx.natAbs < slewPhase s.m.pav.periodFx + 1)) = true := by
    simpa [hrun, hleft] using Nat.lt_succ_of_le hlast
  refine ends_live hs (exec_slewDone s) ?_
  dsimp only
  rw [if_pos hguard]
  split
  · rwa [show hclkPhase s.m.pav.periodFx + s.m.pav.slewFx.natAbs = (hclkPhase s.m.pav.periodFx + s.m.pav.slewFx).toNat by omega]
  · rwa [show hclkPhase s.m.pav.periodFx - s.m.pav.slewFx.natAbs = (hclkPhase s.m.pav.periodFx + s.m.pav.slewFx).toNat by omega]

/-! ### Threads released (R190) -/

/-- The machine without its tiles. -/
def untiled (s : M8) : M8 := { s with tiles := [] }

theorem Keeps.of_untiled {α : Type} {view : M8 → α} (hview : ∀ s, view (untiled s) = view s) {a b : M8} (h : Keeps untiled a b) :
    Keeps view a b := by
  unfold Keeps at *
  rw [← hview b, h, hview]

/-- A release of a thread changes its tile alone. -/
theorem releaseThread_untiled (s : M8) (t ref th : Nat) : Keeps untiled s (releaseThread s t ref th) := by
  unfold releaseThread
  dsimp only
  split
  · exact .ite rfl (.refl s)
  · rfl

theorem releaseWaiters_untiled (s : M8) (ref : Nat) : Keeps untiled s (releaseWaiters s ref) :=
  .foldl (fun s t => .foldl (fun s th => releaseThread_untiled s t ref th) _ s) _ s

/-! ### Missed deadlines (R129, R172) -/

/-- What missed deadlines may change: the late records and PAV_EVENT's bit 6 with its counter, debug features, the safety
controller's watches and the frames sent. -/
structure Missed (a b : M8) : Prop where
  rest : b = { a with pav := { a.pav with event := b.pav.event }, job := { a.job with asm := b.job.asm },
                      dict := b.dict, intc := b.intc, dbg := b.dbg, safe := b.safe, fab := b.fab }
  event : ∀ i, i ≠ 6 → b.pav.event.testBit i = a.pav.event.testBit i
  entries : EntriesBut [Od.MISSED_COMMITS, Od.INT_OVERRUNS] a b

theorem Missed.refl (a : M8) : Missed a a := ⟨rfl, fun _ _ => rfl, .of_dict rfl⟩

theorem Missed.trans {a b c : M8} (h : Missed a b) (h' : Missed b c) : Missed a c :=
  ⟨by rw [h'.rest, h.rest], fun i hi => (h'.event i hi).trans (h.event i hi), h.entries.trans h'.entries⟩

theorem Missed.ite {a x y : M8} {c : Prop} [Decidable c] (hx : Missed a x) (hy : Missed a y) : Missed a (if c then x else y) := by
  split <;> assumption

theorem Missed.foldl {β : Type} {f : M8 → β → M8} (hf : ∀ s x, Missed s (f s x)) (l : List β) (s : M8) : Missed s (l.foldl f s) := by
  induction l generalizing s with
  | nil => exact .refl s
  | cons x l ih => exact (hf s x).trans (ih _)

theorem deadlineEvent_missed (s : M8) : Missed s (pavEvent s 6) := by
  have h := pavEvent_sets s 6
  refine ⟨?_, fun i hi => ?_, h.entries⟩
  · rw [h.rest, h.pavane]
  · rw [h.pavane, Nat.testBit_or, Nat.testBit_two_pow_of_ne (Ne.symm hi), Bool.or_false]

theorem setAsm_missed (s : M8) (a : Assembly) : Missed s (setAsm s a) := ⟨rfl, fun _ _ => rfl, .of_dict rfl⟩

theorem sendFrame_missed (s : M8) (dst cls flow : Nat) (b : Bytes) : Missed s (sendFrame s dst cls flow b) :=
  ⟨rfl, fun _ _ => rfl, .of_dict rfl⟩

theorem missDeadline_missed (s : M8) (n r : Nat) : Missed s (missDeadline s n r) := by
  have hset := (setAsm_missed s { getAsm s n r with late := true }).trans (deadlineEvent_missed _)
  unfold missDeadline
  exact .ite hset (hset.trans (sendFrame_missed ..))

/-- A batch under the safety controller's watch (R550). -/
def watched (s : M8) (n r : Nat) : M8 :=
  { s with safe := { s.safe with watches := { step := n, rank := r, time := s.clk.hclk } :: s.safe.watches } }

/-- A missed deadline triggers a wait-for graph where they are enabled (R606). -/
def graphed (s : M8) : M8 :=
  if odNat s Od.WFG_ENABLE = 1 && s.dbg.wfgTrigger.isNone then
    { s with dbg := { s.dbg with wfgTrigger := some (s.clk.now, 2) } } else s

/-- A missed deadline is graphed, and watched where no MISS reports it (R550, R606). -/
def followedUp (s : M8) (n r : Nat) : M8 := if (graphed s).job.jr.ctrlAddr = 0xFFFF then watched (graphed s) n r else graphed s

theorem watched_missed (s : M8) (n r : Nat) : Missed s (watched s n r) := ⟨rfl, fun _ _ => rfl, .of_dict rfl⟩

theorem graphed_missed (s : M8) : Missed s (graphed s) := by
  unfold graphed
  split
  · exact ⟨rfl, fun _ _ => rfl, .of_dict rfl⟩
  · exact .refl s

theorem followedUp_missed (s : M8) (n r : Nat) : Missed s (followedUp s n r) :=
  .ite ((graphed_missed s).trans (watched_missed ..)) (graphed_missed s)

/-- What the deadline of a step does for one rank the member owns (R129, R550, R606). -/
def deadlineFor (n : Nat) (s : M8) (r : Nat) : M8 :=
  if sealedTo s n r || !targetMine s n r then s
  else if (missingSlots s n r).isEmpty then
    { s with safe := { s.safe with watches := { step := n, rank := r, time := s.clk.hclk } :: s.safe.watches } }
  else
    let s := missDeadline s n r
    let s := if odNat s Od.WFG_ENABLE = 1 && s.dbg.wfgTrigger.isNone then
      { s with dbg := { s.dbg with wfgTrigger := some (s.clk.now, 2) } } else s
    if s.job.jr.ctrlAddr = 0xFFFF then
      { s with safe := { s.safe with watches := { step := n, rank := r, time := s.clk.hclk } :: s.safe.watches } }
    else s

theorem deadlineFor_eq (n : Nat) (s : M8) (r : Nat) : deadlineFor n s r =
    if sealedTo s n r || !targetMine s n r then s
    else if (missingSlots s n r).isEmpty then watched s n r else followedUp (missDeadline s n r) n r := by
  simp only [deadlineFor, followedUp, graphed, watched]

theorem deadlineFor_missed (n : Nat) (s : M8) (r : Nat) : Missed s (deadlineFor n s r) := by
  rw [deadlineFor_eq]
  exact .ite (.refl s) (.ite (watched_missed ..) ((missDeadline_missed s n r).trans (followedUp_missed ..)))

/-- The machine with a deadline noted as passed. -/
def deadlineNoted (s : M8) (idx n : Nat) : M8 :=
  { s with pav := { s.pav with passedDeadlines := (idx, n) :: s.pav.passedDeadlines } }

/-- A deadline not yet passed is noted and acts for every rank the member owns (R129). -/
theorem passDeadline_new {s : M8} {idx n : Nat} (h : (idx, n) ∉ s.pav.passedDeadlines) :
    passDeadline s idx n = (ownedRanks (deadlineNoted s idx n)).foldl (deadlineFor n) (deadlineNoted s idx n) := by
  have hnew : ¬ s.pav.passedDeadlines.contains (idx, n) = true := by simpa using h
  exact if_neg hnew

theorem passDeadline_again {s : M8} {idx n : Nat} (h : (idx, n) ∈ s.pav.passedDeadlines) : passDeadline s idx n = s :=
  if_pos (by simpa using h)

/-- A deadline that passes is noted, and nothing changes but what missed deadlines may (R129). -/
theorem passDeadline_missed (s : M8) (idx n : Nat) : Missed (deadlineNoted s idx n) (passDeadline s idx n) ∨ passDeadline s idx n = s := by
  by_cases h : (idx, n) ∈ s.pav.passedDeadlines
  · exact .inr (passDeadline_again h)
  · rw [passDeadline_new h]
    exact .inl (.foldl (deadlineFor_missed n) _ _)

/-! ### The hard jump (R120 to R122) -/

/-- What the acts that a jump skips leave as the jump has set it. -/
def jumpView (s : M8) : List Host.Cell × Pavane × Bool × Nat :=
  (s.mem, { s.pav with event := 0, wins := [], passedDeadlines := [] }, s.pav.event.testBit 4, odNat s Od.JUMPS)

theorem Missed.jumpView {a b : M8} (h : Missed a b) : Keeps jumpView a b := by
  have hmem : b.mem = a.mem := by rw [h.rest]
  have hpav : { b.pav with event := 0, wins := [], passedDeadlines := [] } = { a.pav with event := 0, wins := [], passedDeadlines := [] } := by
    rw [h.rest]
  unfold Keeps Machine.jumpView
  rw [hmem, hpav, h.event 4 (by decide), h.entries.odNat_eq (by decide)]

theorem passDeadline_jumpView (s : M8) (idx n : Nat) : Keeps jumpView s (passDeadline s idx n) := by
  obtain h | h := passDeadline_missed s idx n
  · exact .trans (b := deadlineNoted s idx n) rfl h.jumpView
  · rw [h]
    exact .refl s

theorem openWindow_jumpView (s : M8) (idx n : Nat) : Keeps jumpView s (openWindow s idx n) := .ite (.refl s) rfl

theorem closeWindow_jumpView (s : M8) (idx n : Nat) : Keeps jumpView s (closeWindow s idx n) := rfl

theorem releaseWaiters_jumpView (s : M8) (ref : Nat) (o : SyncObj) : Keeps jumpView s (releaseWaiters (setSync s ref o) ref) :=
  .trans (b := setSync s ref o) rfl ((releaseWaiters_untiled ..).of_untiled fun _ => rfl)

/-- What acts in a skipped span leaves the timebase as the jump has set it (R121). -/
theorem skipSpan_jumpView (s : M8) (lo hi : Nat) : Keeps jumpView s (skipSpan s lo hi) := by
  have hopens (s : M8) (c : Prop) [Decidable c] (i n : Nat) : Keeps jumpView s (if c then closeWindow (openWindow s i n) i n else openWindow s i n) :=
    .ite ((openWindow_jumpView ..).trans (closeWindow_jumpView ..)) (openWindow_jumpView ..)
  unfold skipSpan
  dsimp only
  refine .trans ?_ (.foldl (fun s p => .ite (releaseWaiters_jumpView ..) (.refl s)) _ _)
  refine .trans ?_ (.foldl (fun s iw => .ite (.foldl (fun s n => passDeadline_jumpView ..) _ s) (.refl s)) _ _)
  refine .trans ?_ (.foldl (fun s iw => .foldl (fun s n => .ite (.refl s) (hopens ..)) _ s) _ _)
  exact .foldl (fun s iw => .foldl (fun s n => closeWindow_jumpView ..) _ s) _ s

theorem wfgFirstPass_jumpView (s : M8) : Keeps jumpView s (wfgFirstPass s) := by
  unfold wfgFirstPass
  split <;> rfl

/-- The timebase set to a value at a jump, with JUMP_DONE set (R120). -/
def jumpedTo (s : M8) (new : Nat) : M8 :=
  pavEvent { s with pav := { s.pav with tb := new, frac := 0, slewFx := 0, jump := none, highest := max s.pav.highest new } } 4

/-- HARD_JUMP past a boundary ends in the timebase set, what the jump skips having acted (R120, R121). -/
theorem ends_hardJump {s : State} {t : Nat} {v : Int} {P : M8 → Prop} (hs : s.awake) (hrun : s.m.pav.running = true)
    (hjump : s.m.pav.jump = some (t, v)) (hpassed : s.m.pav.jumpFrom / 65536 < s.m.pav.tb / 65536)
    (hP : ∀ m, Keeps jumpView (jumpedTo s.m
      ((v + (((s.m.clk.now - t) * 65536 * 65536 / max 1 s.m.pav.periodFx : Nat) : Int)).toNat % 2 ^ 64)) m → P m) :
    Ends .hardJump s P := by
  refine ends_live hs (exec_hardJump s) (hP _ ?_)
  have hguard : (s.m.pav.running && decide (s.m.pav.tb / 65536 > s.m.pav.jumpFrom / 65536)) = true := by simpa [hrun] using hpassed
  refine .trans ?_ (wfgFirstPass_jumpView _)
  simp only [hardJump, hjump, hguard, if_true]
  exact .ite (skipSpan_jumpView ..) (.refl _)

theorem jumpedTo_event (s : M8) (new : Nat) : (jumpedTo s new).pav.event.testBit 4 = true := by
  rw [jumpedTo, (pavEvent_sets ..).pavane, Nat.testBit_or, Nat.testBit_two_pow_self, Bool.or_true]

theorem jumpedTo_counts (s : M8) (new : Nat) : odNat (jumpedTo s new) Od.JUMPS = (odNat s Od.JUMPS + 1) % 2 ^ 32 :=
  (pavEvent_sets _ 4).counter (by decide)

theorem jumpedTo_pav (s : M8) (new : Nat) : (jumpedTo s new).pav =
    { s.pav with tb := new, frac := 0, slewFx := 0, jump := none, highest := max s.pav.highest new, event := s.pav.event ||| 2 ^ 4 } :=
  (pavEvent_sets _ 4).pavane

theorem jumpedTo_mem (s : M8) (new : Nat) : (jumpedTo s new).mem = s.mem := by rw [jumpedTo, (pavEvent_sets ..).rest]

/-! ### A start that times out (R126, R144) -/

theorem odSet_entriesBut (s : M8) (k n : Nat) : EntriesBut [k] s (odSet s k n) :=
  ⟨rfl, fun j hj => odGet_odPut_other s k j _ (by simpa using hj)⟩

/-- The machine in the failed state of the job, the change of state recorded. -/
def failing (s : M8) : M8 := record (odSet s Od.JOB_STATE 6) 0x40 0 0 (6 + jobState s * 256)

theorem failing_rest (s : M8) : failing s =
    { s with dict := (odSet s Od.JOB_STATE 6).dict, dbg := { s.dbg with rings := (failing s).dbg.rings } } := by
  conv_lhs => rw [failing, record_rest]
  rfl

theorem failing_job (s : M8) : (failing s).job = s.job := by rw [failing_rest]

/-- A loaded job that has not ended fails: its code and its step are kept. -/
theorem failJob_live {s : M8} (code step : Nat) (hloaded : jobState s ≠ 0) (hend : jobState s ≠ 6) (hdone : jobState s ≠ 5) :
    failJob s code step = { odSet (failing s) Od.JOB_FAIL code with
      job := { s.job with failStep := some step } } := by
  have henter : enterJobState s 6 = failing s := if_neg hend
  have hlive : (jobLoaded s && jobState s != 6 && jobState s != 5) = true := by simp [jobLoaded, hloaded, hend, hdone]
  unfold failJob
  rw [if_pos hlive, henter]
  dsimp only
  rw [odSet_job, failing_job]

/-- The state and the code of a job that fails, and all it changes (R144). -/
theorem failJob_sets {s : M8} (code step : Nat) (hloaded : jobState s ≠ 0) (hend : jobState s ≠ 6) (hdone : jobState s ≠ 5) :
    jobState (failJob s code step) = 6 ∧ odNat (failJob s code step) Od.JOB_FAIL = code % 2 ^ 16 ∧
      (failJob s code step).job = { s.job with failStep := some step } ∧
      EntriesBut [Od.JOB_STATE, Od.JOB_FAIL] s (failJob s code step) ∧
      failJob s code step = { s with
        dict := (failJob s code step).dict
        job := (failJob s code step).job
        dbg := { s.dbg with rings := (failJob s code step).dbg.rings } } := by
  have hdict : (failing s).dict = (odSet s Od.JOB_STATE 6).dict := record_dict ..
  rw [failJob_live code step hloaded hend hdone]
  refine ⟨?state, ?code, ?job, ?entries, ?rest⟩
  case state =>
    calc odNat (odSet (failing s) Od.JOB_FAIL code) Od.JOB_STATE
        = odNat (failing s) Od.JOB_STATE := odNat_odSet_other _ _ _ _ (by decide)
      _ = odNat (odSet s Od.JOB_STATE 6) Od.JOB_STATE := odNat_congr (congrArg _ hdict) _
      _ = 6 := by
          rw [odNat_odSet_self _ _ _ _ rfl rfl]
          rfl
  case code =>
    show odNat (odSet (failing s) Od.JOB_FAIL code) Od.JOB_FAIL = _
    rw [odNat_odSet_self _ _ _ _ rfl rfl]
    rfl
  case job => rfl
  case entries =>
    have hstate : EntriesBut [Od.JOB_STATE] s (failing s) := (odSet_entriesBut s _ 6).trans (.of_dict hdict)
    have hcode : EntriesBut [Od.JOB_FAIL] (failing s) (odSet (failing s) Od.JOB_FAIL code) := odSet_entriesBut ..
    exact ((hstate.mono (by simp)).trans (hcode.mono (by simp))).trans (.of_dict rfl)
  case rest => rw [failing_rest]; rfl

/-- Settles O19: the end of the slew is a step of the phase, a jump sets the timebase and what it skips leaves it set, a start that
times out is a job that fails. -/
theorem timebaseJumpsSlewsAndTimesOut : Obligations.TimebaseJumpsSlewsAndTimesOut := by
  intro s hs
  refine ⟨fun ⟨hrun, hleft, hlast⟩ => ?slew, fun t v ⟨hrun, hjump, hpassed⟩ => ?jump, fun ⟨hjob, htime⟩ => ?start⟩
  case slew =>
    have hlast : s.m.pav.slewFx.natAbs ≤ slewPhase s.m.pav.periodFx := hlast
    have hle : slewPhase s.m.pav.periodFx ≤ hclkPhase s.m.pav.periodFx := Nat.div_le_self ..
    refine ends_slewDone hs hrun hleft hlast ?_
    have hvalue := advancedPav_value s.m.pav (hclkPhase s.m.pav.periodFx + s.m.pav.slewFx).toNat
    have hsum : ((advancedPav s.m.pav (hclkPhase s.m.pav.periodFx + s.m.pav.slewFx).toNat).tb * 2 ^ 32 +
        (advancedPav s.m.pav (hclkPhase s.m.pav.periodFx + s.m.pav.slewFx).toNat).frac : Int) =
        (s.m.pav.tb * 2 ^ 32 + s.m.pav.frac + (hclkPhase s.m.pav.periodFx : Nat) + s.m.pav.slewFx) % 2 ^ 96 := by
      omega
    have hentries : EntriesBut [Od.HOLDOVER_STEPS] s.m (slewSpent s.m) := .of_dict rfl
    exact ⟨rfl, hsum, rfl, hentries.trans (advanceTb_entries ..), advanceTb_rest (slewSpent s.m) _⟩
  case jump =>
    refine ends_hardJump hs hrun hjump hpassed fun m hm => ?_
    simp only [Keeps, jumpView, Prod.mk.injEq] at hm
    obtain ⟨hmem, hpav, hevent, hcount⟩ := hm
    rw [jumpedTo_pav] at hpav
    have hsrc := congrArg Pavane.src hpav
    have hperiod := congrArg Pavane.periodFx hpav
    refine ⟨congrArg Pavane.tb hpav, congrArg Pavane.frac hpav, congrArg Pavane.slewFx hpav, congrArg Pavane.jump hpav,
      hevent.trans (jumpedTo_event ..), hcount.trans (jumpedTo_counts ..), hmem.trans (jumpedTo_mem ..), hsrc, hperiod⟩
  case start =>
    have hguard : (decide (jobState s.m = 2) && decide (s.m.clk.now ≥ s.m.pav.armedAt + odNat s.m Od.START_TIMEOUT * 1000000)) = true := by
      simpa [hjob] using htime
    refine ends_live hs (exec_startTimeout s) ?_
    dsimp only
    rw [if_pos hguard]
    exact failJob_sets (s := s.m) 0x000A _ (by simp [hjob]) (by simp [hjob]) (by simp [hjob])

/-! ### Program traps (R211, R212) -/

/-- The tiles, memory, the sync objects and the count of traps. -/
def trapView (s : M8) : Sparse Tile × List Host.Cell × Sparse SyncObj × Nat := (s.tiles, s.mem, s.sync, odNat s Od.TRAPS)

theorem Keeps.getTile {a b : M8} (h : Keeps trapView a b) (t : Nat) : getTile b t = getTile a t :=
  congrArg (fun v => v.1.get {} t) h

theorem Keeps.trapMem {a b : M8} (h : Keeps trapView a b) : b.mem = a.mem := congrArg (fun v => v.2.1) h

theorem Keeps.trapSync {a b : M8} (h : Keeps trapView a b) : b.sync = a.sync := congrArg (fun v => v.2.2.1) h

theorem Keeps.traps {a b : M8} (h : Keeps trapView a b) : odNat b Od.TRAPS = odNat a Od.TRAPS := congrArg (fun v => v.2.2.2) h

theorem odSet_trapView (s : M8) (k n : Nat) (hk : Od.TRAPS ≠ k) : Keeps trapView s (odSet s k n) := by
  unfold Keeps trapView
  rw [odNat_odSet_other s k _ n hk]
  rfl

theorem record_trapView (s : M8) (r k b a : Nat) : Keeps trapView s (record s r k b a) := by rw [record_rest]; rfl

theorem setLine_trapView (s : M8) (i : Nat) (level : Bool) : Keeps trapView s (setLine s i level) := by
  unfold Keeps trapView
  rw [(setLine_entries s i level).odNat_eq (by decide), setLine_int s i level]

theorem failJob_trapView (s : M8) (code step : Nat) : Keeps trapView s (failJob s code step) := by
  have henter : Keeps trapView s (enterJobState s 6) := .ite (.refl s) ((odSet_trapView s _ _ (by decide)).trans (record_trapView ..))
  have hfail := henter.trans (odSet_trapView _ Od.JOB_FAIL code (by decide))
  exact .ite (hfail.trans rfl) (.refl s)

/-- The machine with a stop of its own marked, its entries not yet written. -/
def stopMarked (s : M8) (cause : Nat) : M8 :=
  { s with freeCtr := s.freeCtr + 1, dbg := { s.dbg with stop := true, stopCause := cause, stopOwn := cause != 1, scanNo := s.freeCtr } }

theorem startStop_trapView (s : M8) (cause : Nat) : Keeps trapView s (startStop s cause) := by
  have hset (s : M8) (a b c : Nat) : Keeps trapView s (odSet (odSet (odSet s Od.STOP_TIME a) Od.STOP_PAV b) Od.STOP_STATUS c) :=
    ((odSet_trapView s _ _ (by decide)).trans (odSet_trapView _ _ _ (by decide))).trans (odSet_trapView _ _ _ (by decide))
  have hmark : Keeps trapView s (stopMarked s cause) := rfl
  refine .ite (.refl s) (.ite ?_ ?_)
  · exact (hmark.trans (hset ..)).trans rfl
  · exact hmark.trans (hset ..)

/-- REEL_TRAP as a trap leaves it: the first one stands until it is cleared (R211, R215). -/
def Tile.trapRecorded (x : Tile) (thread cause pc arg : Nat) : Tile :=
  if x.trapValid then x else { x with
    trapValid := true, trapHw := hwCause cause, trapThread := thread, trapCause := cause, trapPc := pc, trapArg := arg % 2 ^ 48 }

/-- A tile whose thread has trapped and whose discarded requests are gone (R211). -/
def Tile.trapStopped (x : Tile) (thread : Nat) : Tile :=
  { x with reqQ := x.reqQ.filter trapKeeps, busy := none,
           threads := x.threads.modify {} thread fun th => { th with tstate := .trapped } }

/-- The machine with REEL_TRAP of a tile written and not yet counted. -/
def trapNoted (s : M8) (t thread cause pc arg : Nat) : M8 :=
  if (getTile s t).trapValid then s else modTile s t fun x =>
    { x with trapValid := true, trapHw := hwCause cause, trapThread := thread, trapCause := cause, trapPc := pc,
             trapArg := arg % 2 ^ 48 }

theorem getTile_trapNoted (s : M8) (t thread cause pc arg : Nat) :
    getTile (trapNoted s t thread cause pc arg) t = (getTile s t).trapRecorded thread cause pc arg := by
  unfold trapNoted Tile.trapRecorded
  split
  · rfl
  · rw [getTile_modTile]

theorem getTile_trapNoted_other (s : M8) (t t' thread cause pc arg : Nat) (h : t' ≠ t) :
    getTile (trapNoted s t thread cause pc arg) t' = getTile s t' := by
  unfold trapNoted
  split
  · rfl
  · exact getTile_modTile_other _ _ _ _ h

/-- What writing REEL_TRAP counts beside the tile. -/
theorem writeTrap_trapView (s : M8) (t thread cause pc arg : Nat) :
    Keeps trapView (odInc (trapNoted s t thread cause pc arg) Od.TRAPS) (writeTrap s t thread cause pc arg) :=
  (odSet_trapView _ Od.LAST_TRAP _ (by decide)).trans (record_trapView ..)

/-- What entering a state leaves beside the tile. -/
theorem enterTileSt_trapView (s : M8) (t : Nat) (st : TileSt) :
    Keeps trapView (modTile s t fun x => { x with st := st }) (enterTileSt s t st) :=
  .trans (.ite (.refl _) (record_trapView ..)) (setLine_trapView ..)

/-- The machine with a tile stopped by a program trap, its job not yet failed. -/
def trapHalted (s : M8) (t thread cause pc arg : Nat) : M8 :=
  enterTileSt (modTile (writeTrap s t thread cause pc arg) t fun x => x.trapStopped thread) t .trapped

/-- A trap of the program class stops its tile and fails the job (R211, R212). -/
theorem trap_trapView (s : M8) {cause : Nat} (t thread pc arg : Nat) (hprogram : hwCause cause = false) :
    Keeps trapView (trapHalted s t thread cause pc arg) (trap s t thread cause pc arg) := by
  unfold trap
  rw [hprogram]
  exact .ite ((failJob_trapView ..).trans (startStop_trapView ..)) (failJob_trapView ..)

theorem getTile_trapHalted (s : M8) (t thread cause pc arg : Nat) : getTile (trapHalted s t thread cause pc arg) t =
    { ((getTile s t).trapRecorded thread cause pc arg).trapStopped thread with st := .trapped } := by
  rw [trapHalted, (enterTileSt_trapView ..).getTile, getTile_modTile, getTile_modTile, (writeTrap_trapView ..).getTile]
  exact congrArg (fun x => { x.trapStopped thread with st := TileSt.trapped }) (getTile_trapNoted s t thread cause pc arg)

theorem getTile_trapHalted_other (s : M8) (t t' thread cause pc arg : Nat) (h : t' ≠ t) :
    getTile (trapHalted s t thread cause pc arg) t' = getTile s t' := by
  rw [trapHalted, (enterTileSt_trapView ..).getTile, getTile_modTile_other _ _ _ _ h, getTile_modTile_other _ _ _ _ h,
    (writeTrap_trapView ..).getTile]
  exact getTile_trapNoted_other s t t' thread cause pc arg h

theorem Tile.trapRecorded_threads (x : Tile) (thread cause pc arg : Nat) : (x.trapRecorded thread cause pc arg).threads = x.threads := by
  unfold Tile.trapRecorded
  split <;> rfl

theorem Tile.trapStopped_thread (x : Tile) (thread : Nat) :
    (x.trapStopped thread).threads.get {} thread = { x.threads.get {} thread with tstate := .trapped } := Sparse.get_set_self ..

theorem Tile.trapStopped_other (x : Tile) (thread th : Nat) (h : th ≠ thread) :
    (x.trapStopped thread).threads.get {} th = x.threads.get {} th := Sparse.get_set_other _ _ _ _ _ h

theorem odNat_modTile (s : M8) (t : Nat) (f : Tile → Tile) (k : Nat) : odNat (modTile s t f) k = odNat s k := odNat_congr rfl k

theorem trapNoted_traps (s : M8) (t thread cause pc arg : Nat) : odNat (trapNoted s t thread cause pc arg) Od.TRAPS = odNat s Od.TRAPS := by
  unfold trapNoted
  split
  · rfl
  · exact odNat_modTile ..

theorem trapHalted_traps (s : M8) (t thread cause pc arg : Nat) :
    odNat (trapHalted s t thread cause pc arg) Od.TRAPS = (odNat s Od.TRAPS + 1) % 2 ^ 32 := by
  have hcount := (odInc_countsUp (trapNoted s t thread cause pc arg) (k := Od.TRAPS) (w := 32) rfl rfl rfl).counted
  rw [trapHalted, (enterTileSt_trapView ..).traps, odNat_modTile, odNat_modTile, (writeTrap_trapView ..).traps, hcount, trapNoted_traps]

/-- All that a trap of the program class does (R211 to R213). -/
theorem trap_traps (s : M8) {cause : Nat} (t th pc arg : Nat) (hprogram : hwCause cause = false) :
    Traps t th cause pc arg s (trap s t th cause pc arg) := by
  have hview := trap_trapView s t th pc arg hprogram
  have htile := (hview.getTile t).trans (getTile_trapHalted s t th cause pc arg)
  have hrest : TileOnly s (trapHalted s t th cause pc arg) :=
    .trans (.trans (writeTrap_tile ..) (modTile_tile ..)) (enterTileSt_tile ..)
  refine ⟨?state, ?thread, fun th' h => ?others, fun h => ?recorded, fun h => ?kept, fun t' h => ?tiles, ?counted, ?mem, ?sync⟩
  case state => rw [htile]
  case thread =>
    rw [getThread, htile, Tile.trapStopped_thread, Tile.trapRecorded_threads]
    rfl
  case others =>
    rw [getThread, htile, Tile.trapStopped_other _ _ _ h, Tile.trapRecorded_threads]
    rfl
  case recorded => simp [htile, Tile.trapStopped, Tile.trapRecorded, h, hprogram]
  case kept =>
    rw [htile, Tile.trapRecorded, if_pos h]
    exact ⟨rfl, rfl⟩
  case tiles => rw [hview.getTile, getTile_trapHalted_other _ _ _ _ _ _ _ h]
  case counted => rw [hview.traps, trapHalted_traps]
  case mem => rw [hview.trapMem, hrest]
  case sync => rw [hview.trapSync, hrest]

/-! ### Windows (R128) -/

/-- The machine with a window opened for a target. -/
def windowOpened (s : M8) (idx n : Nat) : M8 :=
  { s with pav := { s.pav with wins := { idx := idx, target := n, closed := false } :: s.pav.wins } }

theorem openWindow_new {s : M8} {idx n : Nat} (h : winRec s idx n = none) : openWindow s idx n = windowOpened s idx n :=
  if_neg (by simp [h])

theorem winRec_windowOpened (s : M8) (idx n : Nat) :
    winRec (windowOpened s idx n) idx n = some { idx := idx, target := n, closed := false } := by
  simp [winRec, windowOpened]

theorem winRec_windowOpened_other (s : M8) {idx n i k : Nat} (h : (i, k) ≠ (idx, n)) :
    winRec (windowOpened s idx n) i k = winRec s i k := by
  have hne : (idx == i && n == k) = false := by
    rw [Bool.eq_false_iff]
    intro heq
    simp only [Bool.and_eq_true, beq_iff_eq] at heq
    exact h (by rw [heq.1, heq.2])
  simp only [winRec, windowOpened, List.find?_cons, hne]

/-- A record as the close of a window for a target leaves it. -/
def WinRec.closedAt (r : WinRec) (idx n : Nat) : WinRec := if r.idx = idx && r.target = n then { r with closed := true } else r

theorem WinRec.closedAt_same (r : WinRec) (idx n : Nat) : (r.closedAt idx n).idx = r.idx ∧ (r.closedAt idx n).target = r.target := by
  unfold WinRec.closedAt
  split <;> exact ⟨rfl, rfl⟩

theorem winRec_closeWindow (s : M8) (idx n i k : Nat) :
    winRec (closeWindow s idx n) i k = (winRec s i k).map fun r => r.closedAt idx n := by
  have hsame : ((fun r : WinRec => r.idx == i && r.target == k) ∘ fun r : WinRec => r.closedAt idx n) =
      fun r : WinRec => r.idx == i && r.target == k := by
    funext r
    obtain ⟨hidx, htarget⟩ := r.closedAt_same idx n
    simp only [Function.comp_apply, hidx, htarget]
  calc winRec (closeWindow s idx n) i k
      = (s.pav.wins.map fun r => r.closedAt idx n).find? fun r => r.idx == i && r.target == k := rfl
    _ = _ := by rw [List.find?_map, hsame, winRec]

theorem winRec_found {s : M8} {i k : Nat} {r : WinRec} (h : winRec s i k = some r) : r.idx = i ∧ r.target = k := by
  simpa using List.find?_some h

theorem winRec_closeWindow_other (s : M8) {idx n i k : Nat} (h : (i, k) ≠ (idx, n)) :
    winRec (closeWindow s idx n) i k = winRec s i k := by
  rw [winRec_closeWindow]
  match hrec : winRec s i k with
  | none => rfl
  | some r =>
    obtain ⟨rfl, rfl⟩ := winRec_found hrec
    have hne : ¬ (decide (r.idx = idx) && decide (r.target = n)) = true := by simpa using h
    exact congrArg some (if_neg hne)

/-- A closed window is not open. -/
theorem windowOpen_closeWindow (s : M8) (idx n : Nat) : windowOpen (closeWindow s idx n) idx n = false := by
  rw [windowOpen, winRec_closeWindow]
  match hrec : winRec s idx n with
  | none => rfl
  | some r =>
    obtain ⟨rfl, rfl⟩ := winRec_found hrec
    simp [WinRec.closedAt]

theorem evaluateStep_entries (s : M8) (n : Nat) : EntriesBut [Od.QDR_PASSES] s (evaluateStep s n) := by
  unfold evaluateStep
  split
  · exact odSet_entriesBut ..
  · exact .of_dict rfl

theorem evaluateStep_rest (s : M8) (n : Nat) : evaluateStep s n = { s with dict := (evaluateStep s n).dict } := by
  unfold evaluateStep
  split <;> rfl

/-- A window whose open point is reached opens; nothing but the count of Quadrille's passes follows (R128, R277). -/
theorem ends_windowOpen {s : State} {idx n : Nat} {w : Window} {P : M8 → Prop} (hs : s.awake) (hrun : s.m.pav.running = true)
    (hw : windowOf s.m idx = some w) (hjob : jobState s.m = 3) (htarget : isTarget s.m n = true) (hpoint : openPoint w n ≤ s.m.pav.tb)
    (hnew : winRec s.m idx n = none)
    (hP : ∀ m, EntriesBut [Od.QDR_PASSES] (windowOpened s.m idx n) m → m = { windowOpened s.m idx n with dict := m.dict } → P m) :
    Ends (.windowOpen idx n) s P := by
  have hguard : (s.m.pav.running && (decide (jobState s.m = 3) || (decide (jobState s.m = 4) && fetchOpened s.m n)) &&
      isTarget s.m n && decide ((s.m.pav.tb : Int) ≥ openPoint w n)) = true := by
    simp [hrun, hjob, htarget, hpoint]
  refine ends_live hs (exec_windowOpen s idx n) ?_
  simp only [hw, openWindow_new hnew]
  rw [if_pos hguard]
  split
  · exact hP _ (evaluateStep_entries ..) (evaluateStep_rest ..)
  · exact hP _ (.of_dict rfl) rfl

theorem ends_windowClose {s : State} {idx n : Nat} {w : Window} {P : M8 → Prop} (hs : s.awake) (hrun : s.m.pav.running = true)
    (hw : windowOf s.m idx = some w) (hopen : windowOpen s.m idx n = true) (hpoint : closePoint w n ≤ s.m.pav.tb)
    (hP : P (closeWindow s.m idx n)) : Ends (.windowClose idx n) s P := by
  refine ends_live hs (exec_windowClose s idx n) ?_
  simpa [hw, hrun, hopen, hpoint] using hP

/-! ### The commit deadline (R129, R172) -/

theorem getAsm_key (s : M8) (n r : Nat) : (getAsm s n r).step = n ∧ (getAsm s n r).rank = r := by
  unfold getAsm
  cases hfound : s.job.asm.find? fun a => a.step == n && a.rank == r with
  | none => exact ⟨rfl, rfl⟩
  | some a => simpa using List.find?_some hfound

/-- An assembly put back is the one its step and rank name. -/
theorem getAsm_setAsm (s : M8) (a : Assembly) : getAsm (setAsm s a) a.step a.rank = a := by
  simp [getAsm, setAsm]

/-- The owner with the batch of (n, r) marked late and DEADLINE_MISS set. -/
def lateNoted (s : M8) (n r : Nat) : M8 := pavEvent (setAsm s { getAsm s n r with late := true }) 6

theorem lateNoted_job (s : M8) (n r : Nat) : (lateNoted s n r).job = (setAsm s { getAsm s n r with late := true }).job := by
  rw [lateNoted, (pavEvent_sets ..).rest]

theorem lateNoted_late (s : M8) (n r : Nat) : (getAsm (lateNoted s n r) n r).late = true := by
  obtain ⟨hstep, hrank⟩ := getAsm_key s n r
  have hset := getAsm_setAsm s { getAsm s n r with late := true }
  rw [hstep, hrank] at hset
  rw [getAsm, lateNoted_job, ← getAsm, hset]

/-- The job, Pavane, the dictionary and the fabric: what a deadline missed and not reported elsewhere leaves. -/
def missView (s : M8) : Job × Pavane × Dict × Fabric := (s.job, s.pav, s.dict, s.fab)

theorem wfgFirstPass_missView (s : M8) : Keeps missView s (wfgFirstPass s) := by
  unfold wfgFirstPass
  split <;> rfl

theorem graphed_missView (s : M8) : Keeps missView s (graphed s) := by
  unfold graphed
  split <;> rfl

theorem followedUp_missView (s : M8) (n r : Nat) : Keeps missView s (followedUp s n r) :=
  .ite ((graphed_missView s).trans rfl) (graphed_missView s)

/-- An unsealed incomplete batch whose deadline passes is a miss, and more is only watched and graphed (R129, R550, R606). -/
theorem deadlineFor_missView {s : M8} {n r : Nat} (hunsealed : sealedTo s n r = false) (hmine : targetMine s n r = true)
    (hmissing : missingSlots s n r ≠ []) : Keeps missView (missDeadline s n r) (deadlineFor n s r) := by
  have hact : ¬ (sealedTo s n r || !targetMine s n r) = true := by simp [hunsealed, hmine]
  have hsome : ¬ (missingSlots s n r).isEmpty = true := by simpa using hmissing
  rw [deadlineFor_eq, if_neg hact, if_neg hsome]
  exact followedUp_missView ..

theorem lateNoted_event (s : M8) (n r : Nat) : (lateNoted s n r).pav.event.testBit 6 = true := by
  rw [lateNoted, (pavEvent_sets ..).pavane, Nat.testBit_or, Nat.testBit_two_pow_self, Bool.or_true]

theorem lateNoted_counts (s : M8) (n r : Nat) : odNat (lateNoted s n r) Od.MISSED_COMMITS = (odNat s Od.MISSED_COMMITS + 1) % 2 ^ 32 :=
  (pavEvent_sets _ 6).counter (by decide)

theorem lateNoted_fab (s : M8) (n r : Nat) : (lateNoted s n r).fab = s.fab := by
  rw [lateNoted, (pavEvent_sets ..).rest]
  rfl

theorem lateNoted_ctrlAddr (s : M8) (n r : Nat) : (lateNoted s n r).job.jr.ctrlAddr = s.job.jr.ctrlAddr := by
  rw [lateNoted_job]
  rfl

/-- MISS of (n, r) as it goes to CTRL_ADDR (R165, R172). -/
def missSent (s : M8) (n r : Nat) : M8 :=
  sendFrame (lateNoted s n r) (lateNoted s n r).job.jr.ctrlAddr 0x5 ((missingSlots s n r).headD 0 % 65536)
    (notice 4 0 0 (jobTag (lateNoted s n r)) n r ((missingSlots s n r).headD 0) 0 (missingSlots s n r).length)

theorem missDeadline_eq (s : M8) (n r : Nat) :
    missDeadline s n r = if (lateNoted s n r).job.jr.ctrlAddr = 0xFFFF then lateNoted s n r else missSent s n r := rfl

/-- What the miss of (n, r) must show (R129, R172). -/
structure MissShown (n r : Nat) (a b : M8) : Prop where
  late : (getAsm b n r).late = true
  event : b.pav.event.testBit 6 = true
  counts : odNat b Od.MISSED_COMMITS = (odNat a Od.MISSED_COMMITS + 1) % 2 ^ 32
  sent : a.job.jr.ctrlAddr ≠ 0xFFFF → ∃ f, b.fab.units = a.fab.units ++ [f] ∧ f.dst = a.job.jr.ctrlAddr ∧ f.cls = 0x5

theorem missDeadline_shown (s : M8) (n r : Nat) : MissShown n r s (missDeadline s n r) := by
  have hctrl := lateNoted_ctrlAddr s n r
  rw [missDeadline_eq, hctrl]
  by_cases hnone : s.job.jr.ctrlAddr = 0xFFFF
  · rw [if_pos hnone]
    exact ⟨lateNoted_late .., lateNoted_event .., lateNoted_counts .., fun h => absurd hnone h⟩
  · rw [if_neg hnone]
    have hsent : ∃ f, (missSent s n r).fab.units = (lateNoted s n r).fab.units ++ [f] ∧
        f.dst = (lateNoted s n r).job.jr.ctrlAddr ∧ f.cls = 0x5 := ⟨_, rfl, rfl, rfl⟩
    rw [lateNoted_fab, hctrl] at hsent
    exact ⟨lateNoted_late s n r, lateNoted_event s n r, lateNoted_counts s n r, fun _ => hsent⟩

theorem MissShown.of_keeps {n r : Nat} {a b c : M8} (h : MissShown n r a b) (hkeep : Keeps missView b c) : MissShown n r a c := by
  simp only [Keeps, missView, Prod.mk.injEq] at hkeep
  obtain ⟨hjob, hpav, hdict, hfab⟩ := hkeep
  exact ⟨by rw [getAsm, hjob]; exact h.late, by rw [hpav]; exact h.event,
    by rw [odNat_congr (congrArg _ hdict)]; exact h.counts, by rw [hfab]; exact h.sent⟩

theorem Missed.mem_tiles {a b : M8} (h : Missed a b) : b.mem = a.mem ∧ b.tiles = a.tiles := by
  rw [h.rest]
  exact ⟨rfl, rfl⟩

theorem Missed.passed {a b : M8} (h : Missed a b) : b.pav.passedDeadlines = a.pav.passedDeadlines := by rw [h.rest]

/-- What the deadline of target n shows of the one rank that is owned and has slots missing (R129). -/
theorem passDeadline_shown {s : M8} {idx n r : Nat} (hnew : (idx, n) ∉ s.pav.passedDeadlines) (howned : ownedRanks s = [r])
    (hunsealed : sealedTo s n r = false) (hmine : targetMine s n r = true) (hmissing : missingSlots s n r ≠ []) :
    MissShown n r s (passDeadline s idx n) := by
  have hone : passDeadline s idx n = deadlineFor n (deadlineNoted s idx n) r := by
    rw [passDeadline_new hnew, show ownedRanks (deadlineNoted s idx n) = [r] from howned]
    rfl
  have hmiss := missDeadline_shown (deadlineNoted s idx n) n r
  have hcount : odNat (deadlineNoted s idx n) Od.MISSED_COMMITS = odNat s Od.MISSED_COMMITS := odNat_congr rfl _
  have hshown : MissShown n r s (missDeadline (deadlineNoted s idx n) n r) :=
    ⟨hmiss.late, hmiss.event, by rw [hmiss.counts, hcount], hmiss.sent⟩
  rw [hone]
  exact hshown.of_keeps (deadlineFor_missView (s := deadlineNoted s idx n) hunsealed hmine hmissing)

/-- COMMIT_DEADLINE of a job that runs or drains passes the deadline, and a graph may make its first pass (R129, R606). -/
theorem ends_commitDeadline {s : State} {idx n : Nat} {w : Window} {P : M8 → Prop} (hs : s.awake) (hrun : s.m.pav.running = true)
    (hw : windowOf s.m idx = some w) (hkind : w.kind = 3) (hjob : jobState s.m = 3 ∨ jobState s.m = 4) (htarget : isTarget s.m n = true)
    (hpoint : closePoint w n ≤ s.m.pav.tb) (hfenced : s.m.grp.fenced = false) (hP : P (wfgFirstPass (passDeadline s.m idx n))) :
    Ends (.commitDeadline idx n) s P := by
  have hguard : (decide (w.kind = 3) && s.m.pav.running && (decide (jobState s.m = 3) || decide (jobState s.m = 4)) && isTarget s.m n &&
      decide ((s.m.pav.tb : Int) ≥ closePoint w n) && !s.m.grp.fenced) = true := by
    simp [hkind, hrun, hjob, htarget, hpoint, hfenced]
  refine ends_live hs (exec_commitDeadline s idx n) ?_
  simp only [commitDeadline, hw]
  rwa [if_pos hguard]

theorem wfgFirstPass_rest (s : M8) : wfgFirstPass s = { s with dbg := (wfgFirstPass s).dbg } := by
  unfold wfgFirstPass
  split <;> rfl

/-! ### Transfers (R130, R193) -/

/-- The thread of a transfer admitted in a window of target n (R130, R193). -/
def Thread.admitted (y : Thread) (sd n : Nat) : Thread := { (y.setReg sd (BitVec.ofNat 64 n)).advance with told := false }

theorem Thread.admitted_reg (y : Thread) (sd n : Nat) : (y.admitted sd n).reg sd = if sd = 0 then 0 else BitVec.ofNat 64 n := by
  have h := y.reg_setReg sd sd (BitVec.ofNat 64 n)
  rwa [if_pos rfl] at h

theorem Thread.admitted_pc (y : Thread) (sd n : Nat) : (y.admitted sd n).pc = y.pc + 8 := by
  simp [Thread.admitted, Thread.advance]

theorem fitsNow_iff (s : M8) (w : Window) (channel kind n0 n bytes : Nat) : fitsNow s w channel kind n0 n bytes = true ↔
    tooLong s channel kind bytes = false ∧ (n = n0 ∨ ∀ iw ∈ channelWindows s channel kind,
      windowSpent s iw.1 iw.2 n0 (transferNs s channel bytes) = true) ∧ transferNs s channel bytes ≤ timeLeft s w n := by
  simp [fitsNow, targetAllowed, and_assoc]

/-- A waiting transfer that fits an open window, none older first, is admitted (R130). -/
theorem ends_transferAdmit {s : State} {t th idx n bytes n0 kind sd : Nat} {w : Window} {P : M8 → Prop} (hs : s.awake)
    (hrun : s.m.pav.running = true) (hw : windowOf s.m idx = some w) (hwait : (getThread s.m t th).wait = .window bytes n0 kind sd)
    (htile : (getTile s.m t).st = .running) (hfenced : s.m.grp.fenced = false)
    (hchannel : w.channel = (getThread s.m t th).channel) (hkind : w.kind = kind) (hopen : windowOpen s.m idx n = true)
    (hfits : fitsNow s.m w (getThread s.m t th).channel kind n0 n bytes = true)
    (hfirst : olderFirst s.m w (getThread s.m t th).channel kind n0 n = false)
    (hP : P (setThread s.m t th ((getThread s.m t th).admitted sd n))) : Ends (.transferAdmit t th idx n) s P := by
  obtain ⟨hlength, -⟩ := (fitsNow_iff ..).1 hfits
  have hguard : (decide (w.channel = (getThread s.m t th).channel) && decide (w.kind = kind) && windowOpen s.m idx n &&
      fitsNow s.m w (getThread s.m t th).channel kind n0 n bytes &&
      !olderFirst s.m w (getThread s.m t th).channel kind n0 n) = true := by
    simp only [hchannel, hkind, hopen, hfits, hfirst]
    rfl
  have hlive : ¬ (decide ((getTile s.m t).st ≠ .running) || !s.m.pav.running || s.m.grp.fenced) = true := by simp [htile, hrun, hfenced]
  refine ends_live hs (exec_transferAdmit s t th idx n) ?_
  simp only [hwait, hw, hlength, Bool.false_eq_true, if_false]
  rwa [if_neg hlive, if_pos hguard]

/-! ### WOPEN (R193, R194) -/

/-- The machine with a thread waiting for a window, its tile's round-robin pointer moved on. -/
def windowAwaited (s : M8) (t th : Nat) (w : Wait) : M8 :=
  setThread (modTile s t fun x => { x with lastIssue := th }) t th { getThread s t th with tstate := .waitWindow, wait := w }

theorem windowAwaited_thread (s : M8) (t th : Nat) (w : Wait) :
    getThread (windowAwaited s t th w) t th = { getThread s t th with tstate := .waitWindow, wait := w } := getThread_setThread ..

theorem windowAwaited_one (s : M8) (t th : Nat) (w : Wait) : OneThread t th 0 s (windowAwaited s t th w) where
  otherTiles t' h := by rw [windowAwaited, getTile_setThread_other _ _ _ _ _ h, getTile_modTile_other _ _ _ _ h]
  tile := by rw [windowAwaited, getTile_setThread, getTile_modTile]
  otherThreads th' h := by
    rw [windowAwaited, getThread_setThread_other _ _ _ _ _ h, getThread, getTile_modTile]
    rfl
  thread := ⟨_, _, _, _, _, windowAwaited_thread ..⟩
  registers r _ := by
    rw [windowAwaited_thread]
    rfl

theorem wopen_locked {s : State} {t th : Nat} {f : RFields} {P : M8 → Prop} (hs : Issues s t th) (hlocked : (getThread s.m t th).locked = true)
    (hP : P (windowAwaited s.m t th (.window ((getThread s.m t th).reg f.sa).toNat ((getThread s.m t th).reg f.sb).toNat (f.func % 4) f.sd))) :
    Ends (.wopen t th f) s P := by
  refine ends_live hs.1 (exec_wopen s t th f) ?_
  dsimp only
  rw [if_pos hs.2]
  rwa [if_pos hlocked]

theorem wopen_free {s : State} {t th : Nat} {f : RFields} (hs : Issues s t th) (hfree : (getThread s.m t th).locked = false) :
    Ends (.wopen t th f) s (Traps t th 0x0D (getThread s.m t th).pc 0 s.m) := by
  refine ends_live hs.1 (exec_wopen s t th f) ?_
  dsimp only
  rw [if_pos hs.2]
  rw [if_neg (by simp [hfree])]
  exact trap_traps s.m t th _ 0 rfl

theorem getThread_setThread_elsewhere (s : M8) {t th t' k : Nat} (y : Thread) (h : (t', k) ≠ (t, th)) :
    getThread (setThread s t th y) t' k = getThread s t' k := by
  by_cases ht : t' = t
  · subst ht
    exact getThread_setThread_other _ _ _ _ _ fun hk => h (by rw [hk])
  · rw [getThread, getTile_setThread_other _ _ _ _ _ ht, getThread]

/-- Settles O20: a window's record is put at the head or closed in place, a deadline folds over the owned ranks, an admitted transfer
and WOPEN change their thread. -/
theorem windowsDeadlinesAndTransfers : Obligations.WindowsDeadlinesAndTransfers := by
  intro s hs
  refine ⟨fun idx n w ⟨hrun, hw⟩ => ⟨fun ⟨hjob, htarget, hpoint, hnew⟩ => ?opens, fun ⟨hopen, hpoint⟩ => ?closes,
    fun ⟨hkind, hjob, htarget, hpoint, hfenced, hnew⟩ => ?deadline, ?transfer⟩, fun t th f hissues =>
    ⟨fun hlocked => wopen_locked hissues hlocked ⟨windowAwaited_thread .., windowAwaited_one .., rfl⟩, wopen_free hissues⟩⟩
  case opens =>
    refine ends_windowOpen hs hrun hw hjob htarget hpoint hnew fun m hentries hrest => ?_
    have hpav : m.pav = (windowOpened s.m idx n).pav := by rw [hrest]
    have hopened : EntriesBut [Od.QDR_PASSES] s.m (windowOpened s.m idx n) := .of_dict rfl
    have hrec (i k : Nat) : winRec m i k = winRec (windowOpened s.m idx n) i k := by rw [winRec, hpav, winRec]
    refine ⟨(hrec ..).trans (winRec_windowOpened ..), fun i k h => (hrec ..).trans (winRec_windowOpened_other _ h),
      hopened.trans hentries, ?_⟩
    rw [hpav]
    exact hrest
  case closes =>
    exact ends_windowClose hs hrun hw hopen hpoint
      ⟨windowOpen_closeWindow .., fun i k h => winRec_closeWindow_other _ h, rfl⟩
  case deadline =>
    refine ends_commitDeadline hs hrun hw hkind hjob htarget hpoint hfenced ?_
    have hmissed : Missed (deadlineNoted s.m idx n) (passDeadline s.m idx n) := by
      rw [passDeadline_new hnew]
      exact .foldl (deadlineFor_missed n) _ _
    obtain ⟨hmem, htiles⟩ := hmissed.mem_tiles
    have hpass := wfgFirstPass_rest (passDeadline s.m idx n)
    refine ⟨?_, by rw [hpass, hmem]; rfl, by rw [hpass, htiles]; rfl, fun r ⟨howned, hunsealed, hmine, hmissing⟩ => ?_⟩
    · rw [hpass]
      dsimp only
      rw [hmissed.passed]
      exact List.mem_cons_self
    · obtain ⟨hlate, hevent, hcounts, hsent⟩ :=
        (passDeadline_shown hnew howned hunsealed hmine hmissing).of_keeps (wfgFirstPass_missView _)
      exact ⟨hlate, hevent, hcounts, hsent⟩
  case transfer =>
    intro t th bytes n0 kind sd ⟨hwait, htile, hfenced, hlength, hchannel, hkind, hopen, hallowed, hfirst, htime⟩
    have hfits : fitsNow s.m w (getThread s.m t th).channel kind n0 n bytes = true :=
      (fitsNow_iff ..).2 ⟨hlength, by rwa [hchannel] at hallowed, htime⟩
    rw [hchannel] at hfirst
    refine ends_transferAdmit hs hrun hw hwait htile hfenced hchannel hkind hopen hfits hfirst ⟨?_, ?_, ?_, fun t' k h => ?_, rfl⟩
    · rw [getThread_setThread, Thread.admitted_reg]
    · rw [getThread_setThread, Thread.admitted_pc]
    · rw [getThread_setThread]
      rfl
    · exact getThread_setThread_elsewhere _ _ h

/-! ### What is held of a rank (R161, R162) -/

theorem getRank_setRank (s : M8) (r : Nat) (x : RankState) : getRank (setRank s r x) r = x := Sparse.get_set_self ..

theorem getRank_setRank_other (s : M8) (r r' : Nat) (x : RankState) (h : r' ≠ r) : getRank (setRank s r x) r' = getRank s r' :=
  Sparse.get_set_other _ _ _ _ _ h

theorem setRank_is (s : M8) (r : Nat) (x : RankState) : RankIs r x s (setRank s r x) :=
  ⟨getRank_setRank .., fun _ h => getRank_setRank_other _ _ _ _ h, rfl⟩

theorem RankIs.of_job {r : Nat} {x : RankState} {a b c : M8} (h : RankIs r x a b) (hjob : c.job = b.job) : RankIs r x a c :=
  ⟨by rw [getRank, hjob]; exact h.rank, fun r' hr => by rw [getRank, hjob]; exact h.others r' hr, by rw [hjob]; exact h.rest⟩

/-! ### Implicit release (R161) -/

/-- What releases the buffer of target n of rank r. -/
def bufferReleases (s : M8) (r n : Nat) : Bool :=
  r < s.job.jr.ranks.length && (rankOf s r).credit = 0 && s.pav.running && isTarget s n &&
    n + 1 ≤ s.pav.tb / 65536 + (rankOf s r).nbuf &&
    (!ownsRank s r || n < s.job.jr.firstStep + (rankOf s r).nbuf || sealedTo s (n - (rankOf s r).nbuf) r) && !bufFree s r n

/-- The machine with the buffer of target n of rank r released. -/
def bufferReleased (s : M8) (r n : Nat) : M8 :=
  setRank s r { getRank s r with released := n :: (getRank s r).released.filter (n ≤ · + 2 * (rankOf s r).nbuf) }

theorem ends_bufferRelease {s : State} {r n : Nat} {P : M8 → Prop} (hs : s.awake)
    (hP : P (if bufferReleases s.m r n then bufferReleased s.m r n else s.m)) : Ends (.bufferRelease r n) s P :=
  ends_live hs (exec_bufferRelease s r n) hP

/-- Under implicit release the free buffers are the released ones. -/
theorem bufFree_implicit {s : M8} {r : Nat} (n : Nat) (h : (rankOf s r).credit = 0) :
    bufFree s r n = (getRank s r).released.contains n := if_pos h

theorem bufFree_bufferReleased {s : M8} {r : Nat} (n : Nat) (h : (rankOf s r).credit = 0) : bufFree (bufferReleased s r n) r n = true := by
  have h' : (rankOf (bufferReleased s r n) r).credit = 0 := h
  rw [bufFree_implicit n h', bufferReleased, getRank_setRank]
  simp

/-! ### Credits (R162, R163, R499) -/

/-- A credit for step n is not newer than the last one (R162). -/
def creditStale (s : M8) (r n : Nat) : Bool :=
  (rankOf s r).credit = 0 || (match (getRank s r).credit with
    | some c => n ≤ c
    | none => n < s.job.jr.firstStep)

theorem creditStale_iff (s : M8) (r n : Nat) : creditStale s r n = true ↔ ¬ ((rankOf s r).credit ≠ 0 ∧
    (∀ c, (getRank s r).credit = some c → c < n) ∧ ((getRank s r).credit = none → s.job.jr.firstStep ≤ n)) := by
  unfold creditStale
  cases (getRank s r).credit <;> simp [Classical.or_iff_not_imp_left]

/-- The target step a credit word names (R162). -/
def creditStep (s : M8) (r w : Nat) : Nat := expandStep ((getRank s r).sealedTo.getD s.job.jr.firstStep) (w % 2 ^ 32)

/-- The machine with a credit word of a rank stored (R163). -/
def creditStored (s : M8) (r w : Nat) : M8 := writeMem s (s.job.creditArea + 8 * r) (natLe 8 w)

/-- What is held of a rank once a credit for step n counts (R161, R499). -/
def creditTaken (s : M8) (r n key : Nat) : RankState :=
  { getRank s r with
    credit := some n, creditStep := s.pav.tb / 65536, stallCounted := false, keys := (getRank s r).keys.put (bufOf s r n) key }

theorem creditWrite_eq {s : M8} {r : Nat} (w : Nat) (hloaded : jobLoaded s = true) (hr : r < s.job.jr.ranks.length) :
    creditWrite s r w =
      if creditStale s r (creditStep s r w) then creditStored s r w
      else if ownsRank s r && !sealedTo s (creditStep s r w) r then odInc (creditStored s r w) Od.CREDIT_EARLY
      else if !creditKeyOk s r (creditStep s r w) (w / 2 ^ 32 % 2 ^ 32) then odInc (creditStored s r w) Od.CREDIT_BAD
      else creditLine (setRank (creditStored s r w) r (creditTaken s r (creditStep s r w) (w / 2 ^ 32 % 2 ^ 32))) := by
  have hguard : ¬ (!jobLoaded s || decide (r ≥ s.job.jr.ranks.length)) = true := by simp [hloaded, hr]
  exact if_neg hguard

theorem ends_creditWrite {s : State} {r : Nat} (w : Nat) {P : M8 → Prop} (hs : s.awake) (hloaded : jobLoaded s.m = true)
    (hr : r < s.m.job.jr.ranks.length)
    (hP : P (if creditStale s.m r (creditStep s.m r w) then creditStored s.m r w
      else if ownsRank s.m r && !sealedTo s.m (creditStep s.m r w) r then odInc (creditStored s.m r w) Od.CREDIT_EARLY
      else if !creditKeyOk s.m r (creditStep s.m r w) (w / 2 ^ 32 % 2 ^ 32) then odInc (creditStored s.m r w) Od.CREDIT_BAD
      else creditLine (setRank (creditStored s.m r w) r (creditTaken s.m r (creditStep s.m r w) (w / 2 ^ 32 % 2 ^ 32))))) :
    Ends (.creditWrite r w) s P :=
  ends_live hs (exec_creditWrite s r w) (by rwa [creditWrite_eq w hloaded hr])

theorem creditLine_int (s : M8) : IntOnly s (creditLine s) := setLine_int ..

theorem creditLine_entries (s : M8) : EntriesBut [Od.INT_OVERRUNS] s (creditLine s) := setLine_entries ..

theorem creditLine_other (s : M8) (i : Nat) (h : i ≠ 0x149) : getSrc (creditLine s) i = getSrc s i := getSrc_setLine_other _ _ _ _ h

theorem Sparse.mem_of_find {α : Type} {m : Sparse α} {k : Nat} {v : α} (h : Sparse.find m k = some v) : (k, v) ∈ m := by
  induction m with
  | nil => simp at h
  | cons p m ih =>
    obtain ⟨a, x⟩ := p
    rw [Sparse.find] at h
    split at h
    next hk => simp_all
    next => exact List.mem_cons_of_mem _ (ih h)

/-- A stalled rank raises the source (R163). -/
theorem creditLine_stalled (s : M8) {r : Nat} {x : RankState} (hx : x.stallCounted = true) (hrank : s.job.ranks.find r = some x) :
    (getSrc (creditLine s) 0x149).line = true := by
  rw [creditLine, getSrc_setLine_line _ _ _ (by omega), List.any_eq_true]
  exact ⟨(r, x), Sparse.mem_of_find hrank, hx⟩

/-- The machine with the stall of a rank counted (R163). -/
def stallNoted (s : M8) (r : Nat) : M8 := odInc (setRank s r { getRank s r with stallCounted := true }) Od.CREDIT_WAITS

theorem stallNoted_rank (s : M8) (r : Nat) : (stallNoted s r).job.ranks.find r = some { getRank s r with stallCounted := true } := by
  have hne : ({ getRank s r with stallCounted := true } : RankState) ≠ {} := fun h => by simpa using congrArg RankState.stallCounted h
  show Sparse.find (s.job.ranks.set {} r { getRank s r with stallCounted := true }) r = _
  rw [Sparse.set, if_neg hne, Sparse.find_put_self]

theorem stallNoted_counts (s : M8) (r : Nat) :
    CountsUp Od.CREDIT_WAITS 32 (setRank s r { getRank s r with stallCounted := true }) (stallNoted s r) := odInc_countsUp _ rfl rfl rfl

/-- Has a rank gone CREDIT_STALL_STEPS without a credit, not counted yet (R163)? -/
def creditStalls (s : M8) (r : Nat) : Bool :=
  r < s.job.jr.ranks.length && (rankOf s r).credit = 1 && s.pav.running && !(getRank s r).stallCounted &&
    s.pav.tb / 65536 ≥ max (getRank s r).creditStep (s.job.jr.firstStep - s.job.img.lead) + odNat s Od.CREDIT_STALL_STEPS

theorem ends_creditStall {s : State} {r : Nat} {P : M8 → Prop} (hs : s.awake)
    (hP : P (if creditStalls s.m r then creditLine (stallNoted s.m r) else s.m)) : Ends (.creditStall r) s P :=
  ends_live hs (exec_creditStall s r) hP

/-- A rank's stall counts once and raises the source (R163). -/
theorem creditStall_noted (s : M8) (r : Nat) :
    RankIs r { getRank s r with stallCounted := true } s (creditLine (stallNoted s r)) ∧
      odNat (creditLine (stallNoted s r)) Od.CREDIT_WAITS = (odNat s Od.CREDIT_WAITS + 1) % 2 ^ 32 ∧
      (getSrc (creditLine (stallNoted s r)) 0x149).line = true ∧
      (∀ i, i ≠ 0x149 → getSrc (creditLine (stallNoted s r)) i = getSrc s i) ∧
      EntriesBut [Od.CREDIT_WAITS, Od.INT_OVERRUNS] s (creditLine (stallNoted s r)) ∧
      creditLine (stallNoted s r) = { s with
        job := (creditLine (stallNoted s r)).job, intc := (creditLine (stallNoted s r)).intc, dict := (creditLine (stallNoted s r)).dict } := by
  have hint := creditLine_int (stallNoted s r)
  have hentries := creditLine_entries (stallNoted s r)
  have hcounts := stallNoted_counts s r
  have hset : EntriesBut [Od.CREDIT_WAITS] s (setRank s r { getRank s r with stallCounted := true }) := .of_dict rfl
  have hwaits : odNat (setRank s r { getRank s r with stallCounted := true }) Od.CREDIT_WAITS = odNat s Od.CREDIT_WAITS := odNat_congr rfl _
  refine ⟨(setRank_is s r _).of_job ?_, ?_, creditLine_stalled _ rfl (stallNoted_rank s r), fun i h => creditLine_other _ i h, ?_, ?_⟩
  · rw [hint]
    rfl
  · rw [hentries.odNat_eq (by decide), hcounts.counted, hwaits]
  · exact ((hset.trans hcounts.entries).mono (by simp)).trans (hentries.mono (by simp))
  · rw [hint]
    rfl

/-- A credit that counts sets what is held of its rank, and the source follows (R161 to R163, R499). -/
theorem creditWrite_taken (s : M8) (r w : Nat) (x : RankState) :
    RankIs r x s (creditLine (setRank (creditStored s r w) r x)) ∧
      (creditLine (setRank (creditStored s r w) r x)).mem = (creditStored s r w).mem ∧
      (∀ i, i ≠ 0x149 → getSrc (creditLine (setRank (creditStored s r w) r x)) i = getSrc s i) ∧
      EntriesBut [Od.INT_OVERRUNS] s (creditLine (setRank (creditStored s r w) r x)) ∧
      creditLine (setRank (creditStored s r w) r x) = { s with
        mem := (creditLine (setRank (creditStored s r w) r x)).mem, job := (creditLine (setRank (creditStored s r w) r x)).job,
        intc := (creditLine (setRank (creditStored s r w) r x)).intc, dict := (creditLine (setRank (creditStored s r w) r x)).dict } := by
  have hint := creditLine_int (setRank (creditStored s r w) r x)
  have hset : EntriesBut [Od.INT_OVERRUNS] s (setRank (creditStored s r w) r x) := .of_dict rfl
  have hrank : RankIs r x s (setRank (creditStored s r w) r x) :=
    ⟨getRank_setRank .., fun _ h => getRank_setRank_other (creditStored s r w) _ _ _ h, rfl⟩
  refine ⟨hrank.of_job ?_, ?_, fun i h => creditLine_other _ i h, hset.trans (creditLine_entries _), ?_⟩
  · rw [hint]
  · rw [hint]
    rfl
  · rw [hint]
    rfl

/-! ### Packing (R158, R203, R266) -/

/-- The term over the bytes that a PLACE packs (R167). -/
def packTerm (m : M8) (t : Nat) (r : Request) : Nat :=
  slotTerm (leField r.desc 8 6) (leField r.desc 14 2) (leField r.desc 16 4) (epochOf m (leField r.desc 8 6)) (leField r.desc 20 2)
    (packedBytes m t r.desc)

/-- The layout a PLACE packs in. -/
def packFormat (m : M8) (r : Request) : Layout := layoutOf (m.job.img.layouts.getD (leField r.desc 20 2) [])

/-- The machine with the hub's address error noted where SRC lies in no memory (R41). -/
def packSource (m : M8) (t : Nat) (r : Request) : M8 :=
  if (localToPkg t (leField r.desc 0 8)).isNone then addressError m (0x51 + 4 * (t / 16)) (leField r.desc 0 8) else m

/-- The packed bytes in their cells and the term in the descriptor (R167, R203). -/
def packStored (s m : M8) (t : Nat) (r : Request) (h : Holding) : M8 :=
  writeMem (writeSpans m (holdSpans m (t / 16) 0 h) (packedBytes s t r.desc)) (r.addr + 32) (natLe 8 (packTerm s t r))

/-- The elements packed counted by their format, and the scaled blocks (R602). -/
def packCounted (m : M8) (hub : Nat) (l : Layout) : M8 :=
  let m := count m (64 + hub) (13 + l.format) l.elems
  if l.scale = 0 then m else count m (64 + hub) 27 (l.elems / 32)

/-- The machine once a PLACE's bytes stand in their cells, counted and kept as the last of their layout. -/
def packKept (s m : M8) (t : Nat) (r : Request) (h : Holding) : M8 :=
  modJob (packCounted (packStored s m t r h) (t / 16) (packFormat s r)) fun j =>
    { j with lastPacked := j.lastPacked.put (leField r.desc 20 2) (packedBytes s t r.desc, leField r.desc 24 6) }

/-- The slot that a packed PLACE waits as (R160). -/
def packSlot (s m : M8) (t : Nat) (r : Request) (h : Holding) (owner : Nat) : PackedSlot :=
  { tile := t, step := leField r.desc 8 6, rank := leField r.desc 14 2, slot := leField r.desc 16 4, sample := leField r.desc 24 6,
    mayVary := r.vary, term := packTerm s t r, data := packedBytes s t r.desc,
    chan := if (getThread m t r.thread).locked then some (getThread m t r.thread).channel else none,
    hold := some (t / 16, h.id, owner), req := r.id }

/-- The machine once a PLACE waits to be written. -/
def packQueued (s m : M8) (t : Nat) (r : Request) (h : Holding) (owner : Nat) : M8 :=
  addPacked (setReq m t { r with phase := .packing }) (packSlot s m t r h owner)

/-- Outside an audit, a slot not cancelled and not fanned out waits to be written (R160). -/
theorem packInto_queued {s : M8} {t : Nat} {r : Request} {h : Holding} {owner : Nat}
    (haudit : ¬ (packKept s (packSource s t r) t r h).job.audit = true)
    (hnever : ¬ neverWritten (packKept s (packSource s t r) t r h) (leField r.desc 8 6) (leField r.desc 14 2) (leField r.desc 16 4) = true)
    (hports : (fanoutPorts (packQueued s (packKept s (packSource s t r) t r h) t r h owner) (leField r.desc 14 2)).isEmpty = true) :
    packInto s t r h owner = packQueued s (packKept s (packSource s t r) t r h) t r h owner :=
  (if_neg haudit).trans ((if_neg hnever).trans (if_pos hports))

theorem packSource_memory {s : M8} {t p : Nat} {r : Request} (h : localToPkg t (leField r.desc 0 8) = some p) : packSource s t r = s :=
  if_neg (by simp [h])

theorem packCounted_counts (m : M8) (hub : Nat) {l : Layout} (hl : l.format < 15) : CountsOnly m (packCounted m hub l) := by
  have hformat := count_counts m (64 + hub) (13 + l.format) l.elems (by omega)
  unfold packCounted
  split
  · exact hformat
  · exact hformat.trans (count_counts _ _ _ _ (by omega))

theorem packCounted_rest (m : M8) (hub : Nat) (l : Layout) :
    packCounted m hub l = { m with dbg := (packCounted m hub l).dbg, dict := (packCounted m hub l).dict } := by
  unfold packCounted
  split
  · exact count_rest ..
  · rw [count_rest (count m (64 + hub) (13 + l.format) l.elems), count_rest m]

theorem writeSpans_rest (s : M8) (ps : List (Nat × Nat)) (b : Bytes) : writeSpans s ps b = { s with mem := (writeSpans s ps b).mem } := by
  induction ps generalizing s b with
  | nil => rfl
  | cons p ps ih => rw [writeSpans, ih]; rfl

theorem packStored_rest (s m : M8) (t : Nat) (r : Request) (h : Holding) :
    packStored s m t r h = { m with mem := (packStored s m t r h).mem } := by
  conv_lhs => rw [packStored, writeSpans_rest]
  rw [packStored, writeSpans_rest]
  rfl

/-- All that packing changes before the slot waits. -/
theorem packKept_rest (s m : M8) (t : Nat) (r : Request) (h : Holding) : packKept s m t r h = { m with
    mem := (packStored s m t r h).mem, dbg := (packKept s m t r h).dbg, dict := (packKept s m t r h).dict,
    job := { m.job with lastPacked := m.job.lastPacked.put (leField r.desc 20 2) (packedBytes s t r.desc, leField r.desc 24 6) } } := by
  rw [packKept, modJob, packCounted_rest, packStored_rest]

theorem EntriesBut.odBytes_eq {ks : List Nat} {a b : M8} {k : Nat} (h : EntriesBut ks a b) (hk : k ∉ ks) : odBytes b k = odBytes a k := by
  rw [odBytes, h.others k hk, odBytes]

theorem odBytes_of_dict {a b : M8} (h : b.dict = a.dict) (k : Nat) : odBytes b k = odBytes a k :=
  (EntriesBut.of_dict (ks := []) h).odBytes_eq (by simp)

theorem packKept_odBytes (s m : M8) (t : Nat) {r : Request} (h : Holding) {k : Nat} (hformat : (packFormat s r).format < 15)
    (hk : k ∉ counterEntries) : odBytes (packKept s m t r h) k = odBytes m k := by
  have hcounts := (packCounted_counts (packStored s m t r h) (t / 16) hformat).entries.odBytes_eq hk
  have hstored : odBytes (packStored s m t r h) k = odBytes m k := by
    rw [packStored_rest]
    rfl
  exact Eq.trans hcounts hstored

theorem fanoutPorts_congr {a b : M8} {r : Nat} (hjob : b.job.jr = a.job.jr) (hconn : odBytes b Od.CONN_TABLE = odBytes a Od.CONN_TABLE) :
    fanoutPorts b r = fanoutPorts a r := by
  have hrank : rankOf b r = rankOf a r := by rw [rankOf, hjob, rankOf]
  have hrec : connRec b = connRec a := funext fun c => by rw [connRec, hconn, connRec]
  have hinfo : connInfo b = connInfo a := funext fun c => by rw [connInfo, hrec, connInfo]
  have hpath : pathInfo b = pathInfo a := funext fun c => funext fun j => by rw [pathInfo, hrec, pathInfo]
  rw [fanoutPorts, hrank, hinfo, hpath, fanoutPorts]

/-- A queue without a request that waits is served. -/
theorem drainReqs_idle {m : M8} {t : Nat} (h : queuedReqs (getTile m t) = []) : drainReqs m t = m := by
  simp [drainReqs, drainFuel, h]

theorem cotillionPack_held {m : M8} {t : Nat} {r : Request} {h : Holding} (hhold : r.hold ≠ 0)
    (hfind : findHold m (t / 16) 0 r.hold = some h) :
    cotillionPack m t r = drainReqs (packInto m t r h (packOwner (entryStream (sampleEntry m (leField r.desc 24 6))))) t := by
  simp only [cotillionPack, if_neg hhold, hfind]

theorem packQueued_tiles (s m : M8) (t : Nat) (r : Request) (h : Holding) (owner : Nat) :
    (packQueued s m t r h owner).tiles = (setReq m t { r with phase := .packing }).tiles := by
  unfold packQueued addPacked
  split <;> rfl

theorem packQueued_mem (s m : M8) (t : Nat) (r : Request) (h : Holding) (owner : Nat) : (packQueued s m t r h owner).mem = m.mem := by
  unfold packQueued addPacked
  split <;> rfl

/-- The queue once a PLACE is packing. -/
theorem packQueued_reqQ (s m : M8) (t : Nat) (r : Request) (h : Holding) (owner : Nat) :
    (getTile (packQueued s m t r h owner) t).reqQ =
      (getTile m t).reqQ.map fun q => if q.id = r.id then { r with phase := .packing } else q := by
  rw [getTile, packQueued_tiles, ← getTile, setReq, getTile_modTile]

/-- A packed PLACE was the queue's only request that waits for service. -/
theorem packQueued_idle (s m : M8) (t : Nat) (r : Request) (h : Holding) (owner : Nat)
    (hone : ∀ q ∈ queuedReqs (getTile m t), q.id = r.id) : queuedReqs (getTile (packQueued s m t r h owner) t) = [] := by
  rw [queuedReqs, packQueued_reqQ, List.filter_eq_nil_iff]
  intro q hq hqueued
  obtain ⟨x, hx, rfl⟩ := List.mem_map.1 hq
  by_cases hid : x.id = r.id
  · simp [hid] at hqueued
  · rw [if_neg hid] at hqueued
    exact hid (hone x (List.mem_filter.2 ⟨hx, hqueued⟩))

/-- Outside an audit a packed PLACE joins the slots that wait to be written (R160). -/
theorem packQueued_job {s m : M8} (t : Nat) (r : Request) (h : Holding) (owner : Nat) (haudit : m.job.audit = false) :
    packQueued s m t r h owner = { setReq m t { r with phase := .packing } with
      job := { m.job with
        packed := m.job.packed ++ [{ packSlot s m t r h owner with id := m.job.nextId }], nextId := m.job.nextId + 1 } } :=
  have hsame : (setReq m t { r with phase := .packing }).job = m.job := rfl
  if_neg (by simp [hsame, haudit])

/-- COTILLION_PACK of a PLACE that holds its cells, the only request that waits, packs it, and it waits to be written. -/
theorem cotillionPack_queued {s : M8} {t p : Nat} {r : Request} {h : Holding} (hhold : r.hold ≠ 0)
    (hfind : findHold s (t / 16) 0 r.hold = some h) (hsrc : localToPkg t (leField r.desc 0 8) = some p) (haudit : s.job.audit = false)
    (hnever : (leField r.desc 8 6, leField r.desc 14 2, leField r.desc 16 4) ∉ s.job.never)
    (hports : fanoutPorts s (leField r.desc 14 2) = []) (hformat : (packFormat s r).format < 15)
    (hone : ∀ q ∈ queuedReqs (getTile s t), q.id = r.id) :
    cotillionPack s t r = packQueued s (packKept s s t r h) t r h (packOwner (entryStream (sampleEntry s (leField r.desc 24 6)))) := by
  have hrest := packKept_rest s s t r h
  have hjob : (packKept s s t r h).job.audit = s.job.audit ∧ (packKept s s t r h).job.never = s.job.never ∧
      (packKept s s t r h).job.jr = s.job.jr := by
    rw [hrest]
    exact ⟨rfl, rfl, rfl⟩
  obtain ⟨hsame, hcancels, hjr⟩ := hjob
  have htile : getTile (packKept s s t r h) t = getTile s t := by
    rw [hrest]
    rfl
  generalize hown : packOwner (entryStream (sampleEntry s (leField r.desc 24 6))) = owner
  have hqueued := packQueued_job (s := s) t r h owner (hsame.trans haudit)
  have hfan : fanoutPorts (packQueued s (packKept s s t r h) t r h owner) (leField r.desc 14 2) = [] := by
    have hdict : (packQueued s (packKept s s t r h) t r h owner).dict = (packKept s s t r h).dict := by
      rw [hqueued]
      rfl
    have hconn := packKept_odBytes s s t h hformat (k := Od.CONN_TABLE) (by decide)
    refine (fanoutPorts_congr ?_ ((odBytes_of_dict hdict _).trans hconn)).trans hports
    rw [hqueued]
    exact hjr
  have hinto := packInto_queued (s := s) (t := t) (r := r) (h := h) (owner := owner)
  rw [packSource_memory hsrc] at hinto
  rw [cotillionPack_held hhold hfind, hown, hinto ?_ ?_ ?_]
  · exact drainReqs_idle (packQueued_idle _ _ _ _ _ _ (by rwa [htile]))
  · simp [hsame, haudit]
  · simpa [neverWritten, hcancels] using hnever
  · rw [hfan]
    rfl

theorem ends_cotillionPack {s : State} {t : Nat} {r : Request} {P : M8 → Prop} (hs : s.awake)
    (hhead : (queuedReqs (getTile s.m t)).head? = some r) (hkind : r.kind = .place) (hP : P (cotillionPack s.m t r)) :
    Ends (.cotillionPack t r.id) s P := by
  refine ends_live hs (exec_cotillionPack s t r.id) ?_
  simpa [hhead, hkind] using hP

/-- A request at the head that is not the PLACE named is not packed (R196). -/
theorem ends_cotillionPack_other {s : State} {t req : Nat} {P : M8 → Prop} (hs : s.awake)
    (hother : ∀ r, (queuedReqs (getTile s.m t)).head? = some r → r.id ≠ req ∨ r.kind ≠ .place) (hP : P s.m) :
    Ends (.cotillionPack t req) s P := by
  refine ends_live hs (exec_cotillionPack s t req) ?_
  cases hhead : (queuedReqs (getTile s.m t)).head? with
  | none => exact hP
  | some r =>
    have hskip : ¬ (decide (r.id = req) && decide (r.kind = .place)) = true := by
      simpa [Classical.or_iff_not_imp_left] using hother r hhead
    dsimp only
    rwa [if_neg hskip]

/-- The bytes packed of a source in memory (R266). -/
theorem packedBytes_memory {s : M8} {t p : Nat} {r : Request} (h : localToPkg t (leField r.desc 0 8) = some p) :
    packedBytes s t r.desc = packLayout (packFormat s r) fun off => leNat (readMemOnes s (p + off) (elemSize (packFormat s r).srcType)) := by
  rw [packedBytes, h]
  rfl

/-- All that packing a PLACE changes once it waits to be written (R158, R160, R203, R266). -/
theorem packQueued_sets {s : M8} (t : Nat) (r : Request) (h : Holding) (owner : Nat) (haudit : s.job.audit = false) :
    let m := packQueued s (packKept s s t r h) t r h owner
    m.job.packed = s.job.packed ++ [{ packSlot s s t r h owner with id := s.job.nextId }] ∧
      m.mem = (packStored s s t r h).mem ∧
      (getTile m t).reqQ = ((getTile s t).reqQ.map fun q => if q.id = r.id then { r with phase := .packing } else q) ∧
      (∀ t', t' ≠ t → getTile m t' = getTile s t') ∧
      m = { s with mem := m.mem, tiles := m.tiles, job := m.job, dbg := m.dbg, dict := m.dict } := by
  have hrest := packKept_rest s s t r h
  have hjob : (packKept s s t r h).job.audit = s.job.audit ∧ (packKept s s t r h).job.packed = s.job.packed ∧
      (packKept s s t r h).job.nextId = s.job.nextId := by
    rw [hrest]
    exact ⟨rfl, rfl, rfl⟩
  obtain ⟨hsame, hpacked, hid⟩ := hjob
  have htiles : (packKept s s t r h).tiles = s.tiles := by rw [hrest]
  have htile (t' : Nat) : getTile (packKept s s t r h) t' = getTile s t' := by rw [getTile, htiles, getTile]
  have hslot : packSlot s (packKept s s t r h) t r h owner = packSlot s s t r h owner := by
    have hthread : getThread (packKept s s t r h) t r.thread = getThread s t r.thread := by rw [getThread, htile, getThread]
    rw [packSlot, hthread, packSlot]
  have hqueued := packQueued_job (s := s) t r h owner (hsame.trans haudit)
  refine ⟨?_, ?_, ?_, fun t' ht => ?_, ?_⟩
  · rw [hqueued, hslot, hpacked, hid]
  · rw [packQueued_mem, hrest]
  · rw [packQueued_reqQ, htile]
  · rw [getTile, packQueued_tiles, ← getTile, setReq, getTile_modTile_other _ _ _ _ ht, htile]
  · rw [hqueued, setReq, modTile, setTile, hrest]

/-! ### A slot's write is issued (R159, R160, R195) -/

/-- Only tiles, sync objects and the record of progress differ. -/
def PlaceOnly (a b : M8) : Prop := b = { a with tiles := b.tiles, sync := b.sync, dbg := b.dbg }

theorem PlaceOnly.trans {a b c : M8} (h : PlaceOnly a b) (h' : PlaceOnly b c) : PlaceOnly a c := by
  unfold PlaceOnly at *
  rw [h', h]

theorem PlaceOnly.of_untiled {a b : M8} (h : Keeps untiled a b) : PlaceOnly a b := by
  have hb : b = { untiled b with tiles := b.tiles } := rfl
  unfold PlaceOnly
  rw [hb, h]
  rfl

theorem notifyCounter_place (s : M8) (ref : Nat) : PlaceOnly s (notifyCounter s ref) := by
  have hcount (s : M8) (o : SyncObj) : PlaceOnly s (releaseWaiters (setSync s ref o) ref) :=
    .trans (b := setSync s ref o) rfl (.of_untiled (releaseWaiters_untiled ..))
  unfold notifyCounter
  split
  · exact .trans (b := progressed s (ref / 4096)) rfl (hcount ..)
  · rfl

theorem placeDone_place (s : M8) (t req : Nat) : PlaceOnly s (placeDone s t req) := by
  unfold placeDone
  split
  · exact .trans (b := dropReq s t req) rfl (notifyCounter_place ..)
  · rfl

/-- The machine with a slot's write marked as issued, none of it held for packet life any more. -/
def slotStarted (s : M8) (p : PackedSlot) : M8 := setPacked (unhold s p.id) { p with issued := true }

/-- The machine with the PLACE of an issued slot complete (R195). -/
def slotPlaced (s : M8) (p : PackedSlot) : M8 := if p.req = 0 then slotStarted s p else placeDone (slotStarted s p) p.tile p.req

theorem slotPlaced_place (s : M8) (p : PackedSlot) : PlaceOnly (slotStarted s p) (slotPlaced s p) := by
  unfold slotPlaced
  split
  · rfl
  · exact placeDone_place ..

theorem slotPlaced_rest (s : M8) (p : PackedSlot) : slotPlaced s p = { s with
    job := (slotStarted s p).job, rem := (slotStarted s p).rem,
    tiles := (slotPlaced s p).tiles, sync := (slotPlaced s p).sync, dbg := (slotPlaced s p).dbg } := by
  rw [slotPlaced_place s p]
  rfl

theorem slotIssue_eq (s : M8) (p : PackedSlot) : slotIssue s p =
    if (rankOf s p.rank).kind = 1 then
      slotAcked (writeMem (slotPlaced s p) (partBase (slotPlaced s p) 1 + slotAddr (rankOf s p.rank) p.step p.slot) p.data) p.id
    else remoteWrite (slotPlaced s p) (rankOf s p.rank).conn (bufKeyOf (slotPlaced s p) p.rank p.step)
      (slotAddr (rankOf s p.rank) p.step p.slot) p.data (.slot p.id) := rfl

theorem findPacked_id {s : M8} {id : Nat} {p : PackedSlot} (h : findPacked s id = some p) : p.id = id := by
  simpa using List.find?_some h

/-- A packed slot put back is the one its number finds. -/
theorem findPacked_setPacked {s : M8} {x q : PackedSlot} (h : findPacked s q.id = some x) : findPacked (setPacked s q) q.id = some q := by
  have hsame : ((fun y : PackedSlot => y.id == q.id) ∘ fun y : PackedSlot => if y.id = q.id then q else y) =
      fun y : PackedSlot => y.id == q.id := by
    funext y
    by_cases hy : y.id = q.id <;> simp [hy]
  calc findPacked (setPacked s q) q.id
      = (s.job.packed.map fun y => if y.id = q.id then q else y).find? fun y => y.id == q.id := rfl
    _ = (findPacked s q.id).map fun y => if y.id = q.id then q else y := by rw [List.find?_map, hsame, findPacked]
    _ = some q := by rw [h, Option.map_some, if_pos (findPacked_id h)]

theorem findPacked_congr {a b : M8} (h : b.job.packed = a.job.packed) (id : Nat) : findPacked b id = findPacked a id := by
  rw [findPacked, h, findPacked]

theorem slotPlaced_found {s : M8} {p : PackedSlot} (h : findPacked s p.id = some p) :
    findPacked (slotPlaced s p) p.id = some { p with issued := true } := by
  have hjob : (slotPlaced s p).job = (slotStarted s p).job := by rw [slotPlaced_rest]
  rw [findPacked_congr (congrArg _ hjob)]
  exact findPacked_setPacked (s := unhold s p.id) (q := { p with issued := true }) h

/-! ### A slot's write is acknowledged (R55, R155, R165) -/

/-- The machine with a slot marked as acknowledged and the fence of its step noted. -/
def ackNoted (s : M8) (q : PackedSlot) : M8 :=
  modJob (setPacked s { q with acked := true, data := [], hold := none }) fun j => { j with fenceAt := j.fenceAt.put q.step s.pav.tb }

/-- The cells of an acknowledged slot given back (R55). -/
def ackFreed (s : M8) (q : PackedSlot) : M8 :=
  match q.hold with
  | some (hub, h, owner) => if (fanoutPorts s q.rank).isEmpty then giveHold s hub 0 h owner else s
  | none => s

/-- The coverage of an acknowledged slot's PLACE gone (R205). -/
def ackCovered (s : M8) (q : PackedSlot) : M8 := if q.req = 0 then s else placeAcked s q.tile q.req

/-- A slot that is no fill and no substitute is acknowledged without a notice. -/
theorem slotAcked_plain {s : M8} {q : PackedSlot} (hfind : findPacked s q.id = some q) (hreason : q.reason = 0) :
    slotAcked s q.id = ackCovered (ackFreed (ackNoted s q) q) q := by
  unfold slotAcked
  rw [hfind]
  exact if_pos hreason

/-- Only tiles and hubs differ. -/
def AckOnly (a b : M8) : Prop := b = { a with tiles := b.tiles, hubs := b.hubs }

theorem AckOnly.trans {a b c : M8} (h : AckOnly a b) (h' : AckOnly b c) : AckOnly a c := by
  unfold AckOnly at *
  rw [h', h]

theorem AckOnly.ite {a x y : M8} {c : Prop} [Decidable c] (hx : AckOnly a x) (hy : AckOnly a y) : AckOnly a (if c then x else y) := by
  split <;> assumption

theorem dropName_ack (s : M8) (hub pool id owner : Nat) : AckOnly s (dropName s hub pool id owner) := by
  unfold dropName
  dsimp only
  split
  · rfl
  · exact .ite rfl rfl

theorem ackFreed_ack (s : M8) (q : PackedSlot) : AckOnly s (ackFreed s q) := by
  unfold ackFreed
  split
  · exact .ite (dropName_ack ..) rfl
  · rfl

theorem ackCovered_ack (s : M8) (q : PackedSlot) : AckOnly s (ackCovered s q) := .ite rfl rfl

/-- All that an acknowledgement changes beside tiles and hubs (R55, R165). -/
theorem slotAcked_ack {s : M8} {q : PackedSlot} (hfind : findPacked s q.id = some q) (hreason : q.reason = 0) :
    AckOnly (ackNoted s q) (slotAcked s q.id) := by
  rw [slotAcked_plain hfind hreason]
  exact (ackFreed_ack ..).trans (ackCovered_ack ..)

theorem partBase_congr {a b : M8} (h : b.dict = a.dict) (which : Nat) : partBase b which = partBase a which := by
  have hlive : b.dict.live = a.dict.live := congrArg _ h
  have hforce : odInForce b = odInForce a := funext fun k => by simp only [odInForce, odNat_congr hlive, h]
  rw [partBase, hforce, partBase]

/-- The machine with a slot's bytes in the readback area (R159). -/
def slotWritten (s : M8) (p : PackedSlot) : M8 :=
  writeMem (slotPlaced s p) (partBase s 1 + slotAddr (rankOf s p.rank) p.step p.slot) p.data

/-- A slot of the readback area is written and acknowledged at once (R159, R165). -/
theorem slotIssue_readback {s : M8} {p : PackedSlot} (hkind : (rankOf s p.rank).kind = 1) :
    slotIssue s p = slotAcked (slotWritten s p) p.id := by
  have hdict : (slotPlaced s p).dict = s.dict := by rw [slotPlaced_rest]
  rw [slotIssue_eq, if_pos hkind, partBase_congr hdict, slotWritten]

/-- All that the write of a slot of the readback area does. -/
theorem slotIssue_readback_sets {s : M8} {p : PackedSlot} (hfind : findPacked s p.id = some p) (hkind : (rankOf s p.rank).kind = 1)
    (hreason : p.reason = 0) :
    let m := slotIssue s p
    m.mem = (writeMem s (partBase s 1 + slotAddr (rankOf s p.rank) p.step p.slot) p.data).mem ∧
      m.job.fenceAt.find p.step = some s.pav.tb ∧
      findPacked m p.id = some { p with issued := true, acked := true, data := [], hold := none } ∧
      m = { s with mem := m.mem, job := m.job, tiles := m.tiles, sync := m.sync, dbg := m.dbg, hubs := m.hubs, rem := m.rem } := by
  have hrest := slotPlaced_rest s p
  have hfound : findPacked (slotWritten s p) p.id = some { p with issued := true } := slotPlaced_found hfind
  have hack : AckOnly (ackNoted (slotWritten s p) { p with issued := true }) (slotAcked (slotWritten s p) p.id) :=
    slotAcked_ack (q := { p with issued := true }) hfound hreason
  have hjob : (slotAcked (slotWritten s p) p.id).job = (ackNoted (slotWritten s p) { p with issued := true }).job := by rw [hack]
  rw [slotIssue_readback hkind]
  refine ⟨?mem, ?fence, ?found, ?rest⟩
  case mem =>
    rw [hack]
    show putBytes (slotPlaced s p).mem _ _ = putBytes s.mem _ _
    rw [hrest]
  case fence =>
    have hpav : (slotWritten s p).pav = s.pav := by
      rw [slotWritten, writeMem_pav, hrest]
    rw [hjob]
    show Sparse.find (Sparse.put _ p.step (slotWritten s p).pav.tb) p.step = _
    rw [Sparse.find_put_self, hpav]
  case found =>
    rw [findPacked_congr (congrArg _ hjob)]
    exact findPacked_setPacked (q := { p with issued := true, acked := true, data := [], hold := none }) hfound
  case rest =>
    rw [hack, ackNoted, slotWritten, hrest]
    rfl

/-! ### Sending (R447, R503) -/

/-- The job, memory and the messages not yet acknowledged: what sending packets leaves. -/
def sendView (s : M8) : Job × List Host.Cell × List Msg := (s.job, s.mem, s.rem.msgs)

theorem noteTx_sendView (s : M8) (m : Msg) : Keeps sendView s (noteTx s m) := by
  unfold noteTx
  split
  · split <;> rfl
  · rfl
  · rfl
  · rfl
  · rfl

theorem shaperTake_sendView (s : M8) (p tc n : Nat) : Keeps sendView s (shaperTake s p tc n) := .ite rfl rfl

theorem transmit_sendView (s : M8) (p : Nat) (c : TxCmd) : Keeps sendView s (transmit s p c) := by
  unfold transmit
  split
  · rfl
  · split <;> rfl

theorem txCommand_sendView (s : M8) (p : Nat) (c : TxCmd) : Keeps sendView s (txCommand s p c).2 := by
  have hqueue : Keeps sendView s (if (getPort s p).queue.length < 16 then
      (0x01, modPort s p fun x => { x with queue := x.queue ++ [c] }) else (0x02, odInc s Od.TX_REFUSED) : Nat × M8).2 := by
    split <;> rfl
  unfold txCommand
  dsimp only
  cases (getPort s p).st with
  | up => exact transmit_sendView ..
  | ramping => exact hqueue
  | settling => exact hqueue
  | acquiring => exact hqueue
  | disabled => rfl
  | stopping => rfl
  | fault => rfl

/-- A packet is sent at the path's next PSN and noted (R500, R503). -/
theorem noteTx_setPath_sendView (s : M8) (c j : Nat) (x : Path) (m : Msg) : Keeps sendView s (noteTx (setPath s c j x) m) :=
  .trans (b := setPath s c j x) rfl (noteTx_sendView ..)

theorem sendOne_sendView {s s' : M8} {c j : Nat} (h : sendOne s c j = some s') : Keeps sendView s s' := by
  unfold sendOne at h
  dsimp only at h
  split at h
  · cases h
  split at h
  · cases h
  split at h
  · cases h
  split at h
  · cases h
  split at h
  · obtain rfl := Option.some.inj h
    exact .trans (b := sendFrame s _ _ _ _) rfl (noteTx_setPath_sendView ..)
  split at h
  · cases h
  split at h
  · obtain rfl := Option.some.inj h
    exact ((txCommand_sendView ..).trans (shaperTake_sendView ..)).trans (noteTx_setPath_sendView ..)
  · cases h

theorem pumpFuel_sendView (c j fuel : Nat) (s : M8) : Keeps sendView s (pumpFuel c j fuel s) := by
  induction fuel generalizing s with
  | zero => rfl
  | succ fuel ih =>
    rw [pumpFuel]
    split
    next h => exact (sendOne_sendView h).trans (ih _)
    next => rfl

theorem putOnPath_sendView (s : M8) (m : Msg) (j : Nat) : Keeps sendView s (putOnPath s m j) := rfl

/-- A message that gets its paths is put back with them, and packets are sent (R503, R505). -/
theorem placeMsg_sendView (s : M8) (m : Msg) :
    Keeps sendView (setMsg s { m with paths := choosePaths s m.conn (tagSlot s m.tag), acked := [] }) (placeMsg s m) :=
  .foldl (fun s j => (putOnPath_sendView s _ j).trans (pumpFuel_sendView ..)) _ _

/-- The message of a slot's write (R503). -/
def slotMsg (s : M8) (conn key addr : Nat) (data : Bytes) (id : Nat) : Msg :=
  { id := s.rem.nextMsg, conn := conn, key := key, addr := addr, data := data, tag := .slot id }

/-- The machine with a message that waits for its paths. -/
def msgQueued (s : M8) (m : Msg) : M8 := modRem s fun r => { r with nextMsg := r.nextMsg + 1, msgs := r.msgs ++ [m] }

theorem remoteWrite_slot (s : M8) (conn key addr : Nat) (data : Bytes) (id : Nat) : remoteWrite s conn key addr data (.slot id) =
    if !granted s conn key addr data.length 1 then
      react (odInc s Od.BOUNDS_BLOCKED) 0x0A 2 (0x51 + 4 * ((pathInfo s conn 0).port / 8)) 0xFFFF addr
    else if givenUp s conn then s
    else placeMsg (msgQueued s (slotMsg s conn key addr data id)) (slotMsg s conn key addr data id) := rfl

/-- A write that a grant covers is handed to its connection (R503). -/
theorem remoteWrite_slot_handed {s : M8} {conn key addr : Nat} {data : Bytes} {id : Nat}
    (hgrant : granted s conn key addr data.length 1 = true) (hlive : givenUp s conn = false) :
    Handed conn key addr data (.slot id) s (remoteWrite s conn key addr data (.slot id)) ∧
      (remoteWrite s conn key addr data (.slot id)).job = s.job ∧ (remoteWrite s conn key addr data (.slot id)).mem = s.mem := by
  rw [remoteWrite_slot, if_neg (by simp [hgrant]), if_neg (by simp [hlive])]
  have hplace := placeMsg_sendView (msgQueued s (slotMsg s conn key addr data id)) (slotMsg s conn key addr data id)
  simp only [Keeps, sendView, Prod.mk.injEq] at hplace
  obtain ⟨hjob, hmem, hmsgs⟩ := hplace
  refine ⟨?_, hjob, hmem⟩
  unfold Handed
  rw [hmsgs]
  refine ⟨_, List.mem_map.2 ⟨slotMsg s conn key addr data id, List.mem_append_right _ List.mem_cons_self, if_pos rfl⟩, rfl, rfl, rfl, rfl, rfl, rfl⟩

/-! ### A write that no grant covers (R498, R549) -/

/-- The messages, memory, the count of writes blocked and the safety controller's reaction. -/
def blockView (s : M8) : List Msg × List Host.Cell × Nat × Bool := (s.rem.msgs, s.mem, odNat s Od.BOUNDS_BLOCKED, s.safe.reacting)

theorem odSet_blockView (s : M8) {k : Nat} (n : Nat) (hk : Od.BOUNDS_BLOCKED ≠ k) : Keeps blockView s (odSet s k n) := by
  unfold Keeps blockView
  rw [odNat_odSet_other s k _ n hk]
  rfl

theorem pulse_blockView (s : M8) (id : Nat) : Keeps blockView s (pulse s id) := by
  unfold Keeps blockView pulse
  rw [(sourceEdge_entries s id).odNat_eq (by decide), sourceEdge_int s id]

theorem startStop_blockView (s : M8) (cause : Nat) : Keeps blockView s (startStop s cause) := by
  have hset (s : M8) (a b c : Nat) : Keeps blockView s (odSet (odSet (odSet s Od.STOP_TIME a) Od.STOP_PAV b) Od.STOP_STATUS c) :=
    ((odSet_blockView s _ (by decide)).trans (odSet_blockView _ _ (by decide))).trans (odSet_blockView _ _ (by decide))
  have hmark : Keeps blockView s (stopMarked s cause) := rfl
  refine .ite (.refl s) (.ite ?_ ?_)
  · exact (hmark.trans (hset ..)).trans rfl
  · exact hmark.trans (hset ..)

theorem logDetection_blockView (s : M8) (mode unitKind unit reaction rank detail : Nat) :
    Keeps blockView s (logDetection s mode unitKind unit reaction rank detail) := by
  unfold logDetection
  exact .trans (b := { s with safe := _ }) rfl ((odSet_blockView _ _ (by decide)).trans (pulse_blockView ..))

theorem haltTile_blockView (s : M8) (t : Nat) : Keeps blockView s (haltTile s t) := .ite rfl rfl

theorem fenceSelf_blockView (s : M8) : Keeps blockView s (fenceSelf s) := by
  refine .ite (.refl s) (.trans ?_ (.foldl haltTile_blockView _ _))
  exact .trans (b := { s with grp := _ }) rfl ((odSet_blockView _ _ (by decide)).trans (odSet_blockView _ _ (by decide)))

theorem sendFault_blockView (s : M8) (role kind : Nat) : Keeps blockView s (sendFault s role kind) := rfl

theorem declareSelf_blockView (s : M8) (kind : Nat) : Keeps blockView s (declareSelf s kind) := by
  have hfaults : Keeps blockView s (s.grp.own.foldl (fun s r => sendFault s r kind) s) := .foldl (fun s r => sendFault_blockView s r kind) _ s
  exact .ite ((hfaults.trans rfl).trans (fenceSelf_blockView _)) (.refl s)

/-- The gates closed, SEAL_HOLD 1 and the reaction under way (R549). -/
def reactBegun (s : M8) : M8 :=
  { odSet (closeGates s) Od.SEAL_HOLD 1 with safe := { (closeGates s).safe with reacting := true } }

theorem reactBegun_blocked (s : M8) : odNat (reactBegun s) Od.BOUNDS_BLOCKED = odNat s Od.BOUNDS_BLOCKED := by
  have hgates : odNat (closeGates s) Od.BOUNDS_BLOCKED = odNat s Od.BOUNDS_BLOCKED := odNat_congr rfl _
  have hset : odNat (reactBegun s) Od.BOUNDS_BLOCKED = odNat (odSet (closeGates s) Od.SEAL_HOLD 1) Od.BOUNDS_BLOCKED := odNat_congr rfl _
  rw [hset, odNat_odSet_other _ _ _ _ (by decide), hgates]

/-- The detection of a blocked write logged and declared, and no notice held any more (R549, R551, R557). -/
def reactDeclared (s : M8) (unit rank detail : Nat) : M8 :=
  let m := declareSelf (logDetection (if (reactBegun s).safe.faultN then reactBegun s else odSet (reactBegun s) Od.SAFETY_STATE 1)
    0x0A 2 unit 2 rank detail) 6
  { m with safe := { m.safe with held := [] } }

/-- The reaction to a dangerous failure of a hub (R549). -/
theorem react_hub (s : M8) (unit rank detail : Nat) : react s 0x0A 2 unit rank detail =
    if (odNat (reactDeclared s unit rank detail) Od.STOP_CFG).testBit 2 then startStop (reactDeclared s unit rank detail) 5
    else reactDeclared s unit rank detail := by
  unfold react reactDeclared
  rfl

theorem reactDeclared_blockView (s : M8) (unit rank detail : Nat) : Keeps blockView (reactBegun s) (reactDeclared s unit rank detail) := by
  have hstate : Keeps blockView (reactBegun s) (if (reactBegun s).safe.faultN then reactBegun s else odSet (reactBegun s) Od.SAFETY_STATE 1) :=
    .ite (.refl _) (odSet_blockView _ _ (by decide))
  exact ((hstate.trans (logDetection_blockView ..)).trans (declareSelf_blockView ..)).trans rfl

theorem react_hub_blockView (s : M8) (unit rank detail : Nat) : Keeps blockView (reactBegun s) (react s 0x0A 2 unit rank detail) := by
  rw [react_hub]
  exact .ite ((reactDeclared_blockView ..).trans (startStop_blockView ..)) (reactDeclared_blockView ..)

/-- A write that no grant covers is not sent: it is counted, and the reaction begins (R498, R549). -/
theorem remoteWrite_slot_blocked {s : M8} {conn key addr : Nat} {data : Bytes} {id : Nat}
    (hgrant : granted s conn key addr data.length 1 = false) :
    let m := remoteWrite s conn key addr data (.slot id)
    m.rem.msgs = s.rem.msgs ∧ m.mem = s.mem ∧ odNat m Od.BOUNDS_BLOCKED = (odNat s Od.BOUNDS_BLOCKED + 1) % 2 ^ 32 ∧
      m.safe.reacting = true := by
  have hwrite : remoteWrite s conn key addr data (.slot id) =
      react (odInc s Od.BOUNDS_BLOCKED) 0x0A 2 (0x51 + 4 * ((pathInfo s conn 0).port / 8)) 0xFFFF addr :=
    (remoteWrite_slot ..).trans (if_pos (by rw [hgrant]; rfl))
  have hreact := react_hub_blockView (odInc s Od.BOUNDS_BLOCKED) (0x51 + 4 * ((pathInfo s conn 0).port / 8)) 0xFFFF addr
  rw [← hwrite] at hreact
  simp only [Keeps, blockView, Prod.mk.injEq] at hreact
  obtain ⟨hmsgs, hmem, hcount, hreacting⟩ := hreact
  rw [reactBegun_blocked, (odInc_countsUp s rfl rfl rfl).counted] at hcount
  exact ⟨hmsgs, hmem, hcount, hreacting⟩

/-! ### SLOT_WRITE_ISSUE (R130, R160, R498 to R500) -/

theorem granted_congr {a b : M8} (h : b.dict = a.dict) (c key addr len mask : Nat) : granted b c key addr len mask = granted a c key addr len mask := by
  rw [granted, grantRecs, odBytes_of_dict h, ← grantRecs, ← granted]

theorem givenUp_congr {a b : M8} (hdict : b.dict = a.dict) (hpaths : b.rem.paths = a.rem.paths) (c : Nat) : givenUp b c = givenUp a c := by
  have hinfo : connInfo b c = connInfo a c := by rw [connInfo, connRec, odBytes_of_dict hdict, ← connRec, ← connInfo]
  have hpath : getPath b = getPath a := funext fun c => funext fun j => by rw [getPath, hpaths, getPath]
  rw [givenUp, livePaths, pathsIn, pathsIn, hinfo, hpath, ← pathsIn, ← pathsIn, ← livePaths, ← givenUp]

theorem slotPlaced_bufKey (s : M8) (p : PackedSlot) (r n : Nat) : bufKeyOf (slotPlaced s p) r n = bufKeyOf s r n := by
  rw [slotPlaced_rest]
  rfl

/-- A slot of a connection is a remote write of its bytes under its buffer's key (R498, R499). -/
theorem slotIssue_remote {s : M8} {p : PackedSlot} (hkind : (rankOf s p.rank).kind ≠ 1) :
    slotIssue s p = remoteWrite (slotPlaced s p) (rankOf s p.rank).conn (bufKeyOf s p.rank p.step)
      (slotAddr (rankOf s p.rank) p.step p.slot) p.data (.slot p.id) := by
  rw [slotIssue_eq, if_neg hkind, slotPlaced_bufKey]

theorem slotIssue_handed {s : M8} {p : PackedSlot} (hfind : findPacked s p.id = some p) (hkind : (rankOf s p.rank).kind ≠ 1)
    (hgrant : granted s (rankOf s p.rank).conn (bufKeyOf s p.rank p.step) (slotAddr (rankOf s p.rank) p.step p.slot) p.data.length 1 = true)
    (hlive : givenUp s (rankOf s p.rank).conn = false) :
    Handed (rankOf s p.rank).conn (bufKeyOf s p.rank p.step) (slotAddr (rankOf s p.rank) p.step p.slot) p.data (.slot p.id) s (slotIssue s p) ∧
      findPacked (slotIssue s p) p.id = some { p with issued := true } ∧ (slotIssue s p).mem = s.mem := by
  have hrest := slotPlaced_rest s p
  have hdict : (slotPlaced s p).dict = s.dict := by rw [hrest]
  have hpaths : (slotPlaced s p).rem.paths = s.rem.paths := by
    rw [hrest]
    rfl
  have hnext : (slotPlaced s p).rem.nextMsg = s.rem.nextMsg := by
    rw [hrest]
    rfl
  have hmem : (slotPlaced s p).mem = s.mem := by rw [hrest]
  rw [← granted_congr hdict] at hgrant
  rw [← givenUp_congr hdict hpaths] at hlive
  obtain ⟨hhanded, hjob, hkept⟩ := remoteWrite_slot_handed (id := p.id) hgrant hlive
  rw [Handed, hnext] at hhanded
  rw [slotIssue_remote hkind]
  exact ⟨hhanded, (findPacked_congr (congrArg _ hjob) _).trans (slotPlaced_found hfind), hkept.trans hmem⟩

theorem slotIssue_blocked {s : M8} {p : PackedSlot} (hkind : (rankOf s p.rank).kind ≠ 1)
    (hgrant : granted s (rankOf s p.rank).conn (bufKeyOf s p.rank p.step) (slotAddr (rankOf s p.rank) p.step p.slot) p.data.length 1 = false) :
    (slotIssue s p).rem.msgs = s.rem.msgs ∧ odNat (slotIssue s p) Od.BOUNDS_BLOCKED = (odNat s Od.BOUNDS_BLOCKED + 1) % 2 ^ 32 ∧
      (slotIssue s p).mem = s.mem ∧ (slotIssue s p).safe.reacting = true := by
  have hrest := slotPlaced_rest s p
  have hdict : (slotPlaced s p).dict = s.dict := by rw [hrest]
  have hsent : (slotPlaced s p).rem.msgs = s.rem.msgs := by
    rw [hrest]
    rfl
  have hmem : (slotPlaced s p).mem = s.mem := by rw [hrest]
  rw [← granted_congr hdict] at hgrant
  obtain ⟨hmsgs, hkept, hcount, hreacting⟩ := remoteWrite_slot_blocked (id := p.id) hgrant
  rw [odNat_congr (congrArg _ hdict)] at hcount
  rw [slotIssue_remote hkind]
  exact ⟨hmsgs.trans hsent, hcount, hkept.trans hmem, hreacting⟩

/-- What keeps a packed slot from being written (R130, R160, R161, R522, R528). -/
def slotStays (s : M8) (p : PackedSlot) : Bool :=
  p.issued || sealedTo s p.step p.rank || !mayWrite s || !bufFree s p.rank p.step || olderMoved s p || !deliveryOpen s p

theorem slotStays_iff (s : State) (p : PackedSlot) : slotStays s.m p = true ↔ ¬ SlotMayGo s p := by
  simp only [slotStays, SlotMayGo, Bool.or_eq_true, Bool.not_eq_true', not_and_or, Bool.not_eq_false, Bool.not_eq_true, or_assoc]

theorem ends_slotWriteIssue {s : State} {p : PackedSlot} {P : M8 → Prop} (hs : s.awake) (hfind : findPacked s.m p.id = some p)
    (hP : P (if slotStays s.m p then s.m else if lifeHold s.m p then noteHold s.m p.id else slotIssue s.m p)) :
    Ends (.slotWriteIssue p.id) s P := by
  refine ends_live hs (exec_slotWriteIssue s p.id) ?_
  rw [hfind]
  exact hP

/-- The machine with a slot held for packet life (R500). -/
def lifeHeldNoted (s : M8) (key : Nat) : M8 := { s with rem := { s.rem with lifeHeld := key :: s.rem.lifeHeld } }

theorem noteHold_again {s : M8} {key : Nat} (h : key ∈ s.rem.lifeHeld) : noteHold s key = s := if_pos (by simpa using h)

theorem noteHold_counts {s : M8} {key : Nat} (h : key ∉ s.rem.lifeHeld) : CountsUp Od.LIFE_HOLDS 32 (lifeHeldNoted s key) (noteHold s key) := by
  have hnew : noteHold s key = odInc (lifeHeldNoted s key) Od.LIFE_HOLDS := if_neg (by simpa using h)
  rw [hnew]
  exact odInc_countsUp _ rfl rfl rfl

/-- Settles O40: a rank's record is set or kept, a PLACE at the head is packed in its cells, and a packed slot is held, written and
acknowledged, handed over or blocked. -/
theorem buffersCreditsAndSlotWrites : Obligations.BuffersCreditsAndSlotWrites := by
  intro s hs
  refine ⟨fun r n hr => ⟨fun himplicit => ⟨fun hearly => ?early, fun ⟨hrun, htarget, htime, hseal⟩ => ?release⟩,
    fun hloaded w => ?credit, fun ⟨hcredit, hrun⟩ => ⟨fun hcounted => ?stalled, fun ⟨hnew, htime⟩ => ?stall⟩⟩,
    fun t req hother => ends_cotillionPack_other hs hother rfl, fun t r h p ⟨hhead, hkind, hone⟩ => ?pack, fun id p hfind => ?write⟩
  case early =>
    have hno : bufferReleases s.m r n = false := by
      simp only [bufferReleases, show ¬ n + 1 ≤ s.m.pav.tb / 65536 + (rankOf s.m r).nbuf by omega]
      simp
    refine ends_bufferRelease hs ?_
    rw [hno]
    rfl
  case release =>
    refine ends_bufferRelease hs ?_
    by_cases hfree : bufFree s.m r n = true
    · have hno : bufferReleases s.m r n = false := by simp [bufferReleases, hfree]
      rw [hno]
      exact ⟨hfree, ⟨rfl, fun _ _ => rfl, rfl⟩, rfl⟩
    · have howner : (!ownsRank s.m r || decide (n < s.m.job.jr.firstStep + (rankOf s.m r).nbuf) ||
          sealedTo s.m (n - (rankOf s.m r).nbuf) r) = true := by
        cases howns : ownsRank s.m r with
        | false => rfl
        | true => simpa using hseal (.inr howns)
      have hyes : bufferReleases s.m r n = true := by simp [bufferReleases, hr, himplicit, hrun, htarget, htime, hfree, howner]
      have hrank := setRank_is s.m r { getRank s.m r with
        released := n :: (getRank s.m r).released.filter (n ≤ · + 2 * (rankOf s.m r).nbuf) }
      rw [hyes]
      refine ⟨bufFree_bufferReleased n himplicit, ?_, rfl⟩
      rw [if_pos rfl, bufferReleased, hrank.rank]
      exact hrank
  case credit =>
    intro n key d fresh early
    have hstale : creditStale s.m r (creditStep s.m r w) = true ↔ ¬ fresh := creditStale_iff s.m r n
    have hnew (h : fresh) : ¬ creditStale s.m r (creditStep s.m r w) = true := fun hold => hstale.1 hold h
    have hheld : (ownsRank s.m r && !sealedTo s.m (creditStep s.m r w) r) = true ↔ early := by
      rw [Bool.and_eq_true, Bool.not_eq_true']
      exact Iff.rfl
    refine ⟨fun hold => ?_, fun ⟨hfresh, hearly⟩ => ?_, fun ⟨hfresh, hlate, hbad⟩ => ?_, fun ⟨hfresh, hlate, hkey⟩ => ?_⟩
    all_goals refine ends_creditWrite w hs hloaded hr ?_
    · rw [if_pos (hstale.2 hold)]
      rfl
    · rw [if_neg (hnew hfresh), if_pos (hheld.2 hearly)]
      exact odInc_countsUp _ rfl rfl rfl
    · have hunused : (!creditKeyOk s.m r (creditStep s.m r w) (w / 2 ^ 32 % 2 ^ 32)) = true := congrArg (!·) hbad
      rw [if_neg (hnew hfresh), if_neg (mt hheld.1 hlate), if_pos hunused]
      exact odInc_countsUp _ rfl rfl rfl
    · have hused : (!creditKeyOk s.m r (creditStep s.m r w) (w / 2 ^ 32 % 2 ^ 32)) = false := congrArg (!·) hkey
      rw [if_neg (hnew hfresh), if_neg (mt hheld.1 hlate), if_neg (hused ▸ Bool.false_ne_true)]
      exact creditWrite_taken s.m r w _
  case stalled =>
    have hno : creditStalls s.m r = false := by simp [creditStalls, hcounted]
    refine ends_creditStall hs ?_
    rw [hno]
    rfl
  case stall =>
    have hyes : creditStalls s.m r = true := by simp [creditStalls, hr, hcredit, hrun, hnew, htime]
    refine ends_creditStall hs ?_
    rw [hyes]
    exact creditStall_noted s.m r
  case pack =>
    refine fun ⟨hhold, hfound, hsrc, haudit, hnever, hports, hformat⟩ => ends_cotillionPack hs hhead hkind ?_
    rw [cotillionPack_queued hhold hfound hsrc haudit hnever hports hformat hone]
    have hdata := packedBytes_memory (s := s.m) hsrc
    have hterm : packTerm s.m t r = slotTerm _ _ _ _ _ _ := congrArg (slotTerm _ _ _ _ _) hdata
    obtain ⟨hpacked, hmem, hqueue, hothers, hrest⟩ := packQueued_sets t r h (packOwner (entryStream (sampleEntry s.m (leField r.desc 24 6)))) haudit
    refine ⟨?_, ?_, hqueue, hothers, hrest⟩
    · rw [hpacked, packSlot, hdata, hterm]
      rfl
    · rw [hmem, packStored, hdata, hterm]
      rfl
  case write =>
    obtain rfl := findPacked_id hfind
    intro k a covered
    have hgoes (h : SlotMayGo s p) : ¬ slotStays s.m p = true := by
      rw [slotStays_iff]
      exact not_not_intro h
    refine ⟨fun hstays => ?stays, fun ⟨hgo, hlife⟩ => ⟨fun hagain => ?held, fun hfirst => ?counted⟩,
      fun ⟨hgo, hlife⟩ => ⟨fun ⟨hkind, hreason⟩ => ?readback, fun ⟨hkind, hgrant, hlive⟩ => ?handed, fun ⟨hkind, hgrant⟩ => ?blocked⟩⟩
    all_goals refine ends_slotWriteIssue hs hfind ?_
    case stays =>
      rw [if_pos ((slotStays_iff s p).2 hstays)]
    case held =>
      rw [if_neg (hgoes hgo), if_pos hlife]
      exact noteHold_again hagain
    case counted =>
      rw [if_neg (hgoes hgo), if_pos hlife]
      exact noteHold_counts hfirst
    all_goals rw [if_neg (hgoes hgo), if_neg (by simp [hlife])]
    case readback => exact slotIssue_readback_sets hfind hkind hreason
    case handed => exact slotIssue_handed hfind hkind hgrant hlive
    case blocked => exact slotIssue_blocked hkind hgrant

end Machine
end Sys2Proof

/-!
PROOFS of the statements of the sample path: what a request's completion, a quarantine, an admission to the flash and a fill's copy
leave (R149 to R156, R195, R203, R321, R390, R402).
-/
namespace Sys2Proof
namespace Machine

/-! ### Requests of a tile (R195, R196) -/

theorem findReq_id {s : M8} {t id : Nat} {r : Request} (h : findReq s t id = some r) : r.id = id := by
  simpa using List.find?_some h

theorem findReq_dropReq (s : M8) (t id : Nat) : findReq (dropReq s t id) t id = none := by
  rw [findReq, dropReq, getTile_modTile, List.find?_filter, List.find?_eq_none]
  simp

/-- A request put back is found again. -/
theorem findReq_setReq {s : M8} {t : Nat} {r x : Request} (h : findReq s t x.id = some r) : findReq (setReq s t x) t x.id = some x := by
  rw [findReq, setReq, getTile_modTile]
  rw [findReq] at h
  generalize (getTile s t).reqQ = q at h
  induction q with
  | nil => simp at h
  | cons y q ih =>
    by_cases hy : y.id = x.id
    · simp [hy]
    · rw [List.find?_cons_of_neg (by simpa using hy)] at h
      simpa [hy] using ih h

theorem findReq_congr {a b : M8} (h : b.tiles = a.tiles) (t id : Nat) : findReq b t id = findReq a t id := by
  rw [findReq, getTile, h, findReq, getTile]

/-- What a tile asks of its hub. -/
def reqView (t : Nat) (s : M8) : List Request := (getTile s t).reqQ

theorem releaseThread_reqView (k t ref th : Nat) (s : M8) : Keeps (reqView k) s (releaseThread s t ref th) := by
  unfold releaseThread
  dsimp only
  split
  · refine .ite ?_ (.refl s)
    by_cases hk : k = t
    · subst hk
      simp [Keeps, reqView]
    · simp [Keeps, reqView, getTile_setThread_other _ _ _ _ _ hk]
  · rfl

theorem releaseWaiters_reqView (k ref : Nat) (s : M8) : Keeps (reqView k) s (releaseWaiters s ref) :=
  .foldl (fun s t => .foldl (fun s th => releaseThread_reqView k t ref th s) _ s) _ s

/-- A completion object that gains 1 leaves every tile's requests (R189). -/
theorem notifyCounter_reqView (k ref : Nat) (s : M8) : Keeps (reqView k) s (notifyCounter s ref) := by
  unfold notifyCounter
  refine .ite (.trans (b := setSync (progressed s (ref / 4096)) ref _) rfl (releaseWaiters_reqView ..)) (.refl s)

theorem releaseWaiters_sync (s : M8) (ref : Nat) : (releaseWaiters s ref).sync = s.sync :=
  (releaseWaiters_untiled s ref).of_untiled (view := M8.sync) fun _ => rfl

theorem notifyCounter_value (s : M8) (ref : Nat) (h : (getSync s ref).kind = 1) :
    (getSync (notifyCounter s ref) ref).value = ((getSync s ref).value + 1) % 2 ^ 64 := by
  rw [notifyCounter, if_pos h, addCounter, getSync, releaseWaiters_sync, ← getSync, getSync_setSync_self]
  rfl

/-! ### A fetch completes (R150, R156, R195, R203) -/

/-- Request r of tile t is gone with STATUS and LENGTH written over memory as d holds it, flash stands, and its counter gained 1. -/
structure FetchEnds (s : M8) (t : Nat) (r : Request) (status len : Nat) (d m : M8) : Prop where
  mem : m.mem = (writeMem d (r.addr + 20) (natLe 4 status ++ natLe 4 len)).mem
  gone : findReq m t r.id = none
  flash : m.fl = s.fl
  counter : (getSync s r.counter).kind = 1 → (getSync m r.counter).value = ((getSync s r.counter).value + 1) % 2 ^ 64

theorem findReq_completeFetch (d : M8) (t : Nat) (r : Request) (status len : Nat) : findReq (completeFetch d t r status len) t r.id = none :=
  (congrArg (List.find? fun q : Request => q.id == r.id) (notifyCounter_reqView t r.counter _)).trans (findReq_dropReq _ t r.id)

theorem completeFetch_place (d : M8) (t : Nat) (r : Request) (status len : Nat) :
    PlaceOnly (writeMem d (r.addr + 20) (natLe 4 status ++ natLe 4 len)) (completeFetch d t r status len) :=
  .trans (b := dropReq (writeMem d (r.addr + 20) (natLe 4 status ++ natLe 4 len)) t r.id) rfl (notifyCounter_place ..)

/-- A fetch completes on a machine that differs in memory and entries alone. -/
theorem completeFetch_ends {s d : M8} (t : Nat) (r : Request) (status len : Nat) (hsync : d.sync = s.sync) (hfl : d.fl = s.fl) :
    FetchEnds s t r status len d (completeFetch d t r status len) where
  mem := by rw [completeFetch_place]
  gone := findReq_completeFetch ..
  flash := by
    rw [completeFetch_place]
    exact hfl
  counter hkind := by
    have hobj : getSync (dropReq (writeMem d (r.addr + 20) (natLe 4 status ++ natLe 4 len)) t r.id) r.counter = getSync s r.counter := by
      rw [getSync, getSync, ← hsync]
      rfl
    rw [completeFetch, notifyCounter_value _ _ (hobj ▸ hkind), hobj]

theorem enterJobState_entries (s : M8) (st : Nat) : EntriesBut [Od.JOB_STATE] s (enterJobState s st) :=
  .ite (.of_dict rfl) ((odSet_entriesBut ..).trans (.of_dict (record_dict ..)))

theorem failJob_entries (s : M8) (code step : Nat) : EntriesBut [Od.JOB_STATE, Od.JOB_FAIL] s (failJob s code step) := by
  have henter := (enterJobState_entries s 6).mono (ks' := [Od.JOB_STATE, Od.JOB_FAIL]) (by simp)
  have hcode := (odSet_entriesBut (enterJobState s 6) Od.JOB_FAIL code).mono (ks' := [Od.JOB_STATE, Od.JOB_FAIL]) (by simp)
  exact .ite ((henter.trans hcode).trans (.of_dict rfl)) (.of_dict rfl)

/-- The tiles and the count of quarantines. -/
def quarView (s : M8) : Sparse Tile × Nat := (s.tiles, odNat s Od.QUARANTINED)

theorem failJob_quarView (s : M8) (code step : Nat) : Keeps quarView s (failJob s code step) :=
  Prod.ext (congrArg (fun v => v.1) (failJob_trapView s code step)) ((failJob_entries s code step).odNat_eq (by decide))

theorem addPacked_quarView (s : M8) (p : PackedSlot) : Keeps quarView s (addPacked s p) := .ite rfl rfl

/-- The machine with a quarantine counted and logged (R156). -/
def quarNoted (s : M8) (entry : Bytes) : M8 :=
  { odInc s Od.QUARANTINED with job := { s.job with quarLog := (s.job.quarLog ++ [entry]).drop ((s.job.quarLog ++ [entry]).length - 65536) } }

/-- What becomes of a quarantined sample's slot (R152, R155). -/
def quarSettled (m : M8) (tile sample step reason : Nat) : M8 :=
  if odNat m Od.QUAR_POLICY = 1 && !m.job.audit then failJob m 0x000B step
  else match offsetIn m step sample with
    | none => m
    | some q =>
      let (r, k) := slotOf m.job.jr q
      let b := fillBytes m r
      addPacked m { tile := tile, step := step, rank := r, slot := k, sample := sample, reason := reason,
                    term := slotTerm step r k (epochOf m step) (rankOf m r).layout b, data := b }

theorem postQuarantine_eq (s : M8) (tile sample step epoch reason stream offset : Nat) :
    postQuarantine s tile sample step epoch reason stream offset =
      quarSettled (quarNoted s (quarEntry (odInc s Od.QUARANTINED) tile sample step epoch reason stream offset)) tile sample step reason := rfl

theorem quarSettled_quarView (m : M8) (tile sample step reason : Nat) : Keeps quarView m (quarSettled m tile sample step reason) := by
  unfold quarSettled
  refine .ite (failJob_quarView ..) ?_
  split
  · rfl
  · exact addPacked_quarView ..

theorem quarNoted_quarView (s : M8) (entry : Bytes) : Keeps quarView (odInc s Od.QUARANTINED) (quarNoted s entry) := by
  unfold Keeps quarView
  rw [odNat_congr (a := odInc s Od.QUARANTINED) (b := quarNoted s entry) rfl]
  rfl

/-- A quarantine counts, whatever becomes of its slot, and no tile changes (R156). -/
theorem postQuarantine_quarView (s : M8) (tile sample step epoch reason stream offset : Nat) :
    Keeps quarView (odInc s Od.QUARANTINED) (postQuarantine s tile sample step epoch reason stream offset) :=
  (quarNoted_quarView ..).trans (quarSettled_quarView ..)

theorem quarantineFetch_sets (s : M8) (t : Nat) (r : Request) :
    (getTile (quarantineFetch s t r) t).reqQ = (getTile (completeFetch s t r 0x16 0) t).reqQ ∧
      odNat (quarantineFetch s t r) Od.QUARANTINED = (odNat s Od.QUARANTINED + 1) % 2 ^ 64 := by
  have hview := postQuarantine_quarView (completeFetch s t r 0x16 0) t (leField r.desc 0 6)
    (quarStep (completeFetch s t r 0x16 0) (leField r.desc 0 6))
    (epochOf (completeFetch s t r 0x16 0) (quarStep (completeFetch s t r 0x16 0) (leField r.desc 0 6))) 0x16
    (entryStream (sampleEntry s (leField r.desc 0 6)))
    (maxCoded (completeFetch s t r 0x16 0) (entryStream (sampleEntry s (leField r.desc 0 6))))
  have hcount : odNat (completeFetch s t r 0x16 0) Od.QUARANTINED = odNat s Od.QUARANTINED := by
    rw [completeFetch_place]
    rfl
  refine ⟨congrArg (fun v => (v.1.get {} t).reqQ) hview, (congrArg Prod.snd hview).trans ?_⟩
  rw [← hcount]
  exact (odInc_countsUp (completeFetch s t r 0x16 0) (k := Od.QUARANTINED) rfl rfl rfl).counted

theorem findReq_quarantineFetch (s : M8) (t : Nat) (r : Request) : findReq (quarantineFetch s t r) t r.id = none := by
  rw [findReq, (quarantineFetch_sets s t r).1, ← findReq, findReq_completeFetch]

/-- A request that waited alone leaves nothing that waits. -/
theorem queuedReqs_completeFetch {s : M8} {t : Nat} {r : Request} (status len : Nat) (hone : ∀ q ∈ queuedReqs (getTile s t), q.id = r.id) :
    queuedReqs (getTile (completeFetch s t r status len) t) = [] := by
  have hqueue : (getTile (completeFetch s t r status len) t).reqQ = (getTile s t).reqQ.filter fun q => q.id != r.id :=
    Eq.trans (notifyCounter_reqView t r.counter _) (by simp only [reqView, dropReq, getTile_modTile]; rfl)
  rw [queuedReqs, hqueue, List.filter_filter, List.filter_eq_nil_iff]
  intro q hq hqueued
  rw [Bool.and_eq_true] at hqueued
  have hid := hone q (List.mem_filter.2 ⟨hq, hqueued.1⟩)
  simp [hid] at hqueued

/-- Taken out of the queue, a request that waited alone leaves nothing that waits. -/
theorem queuedReqs_setReq {s : M8} {t : Nat} {r x : Request} (hid : x.id = r.id) (hphase : x.phase ≠ .queued)
    (hone : ∀ q ∈ queuedReqs (getTile s t), q.id = r.id) : queuedReqs (getTile (setReq s t x) t) = [] := by
  rw [queuedReqs, setReq, getTile_modTile, List.filter_eq_nil_iff]
  intro q hq hqueued
  obtain ⟨y, hy, rfl⟩ := List.mem_map.1 hq
  by_cases hyid : y.id = x.id
  · simp [hyid, hphase] at hqueued
  · rw [if_neg hyid] at hqueued
    exact hyid ((hone y (List.mem_filter.2 ⟨hy, hqueued⟩)).trans hid.symm)

theorem queuedReqs_quarantineFetch {s : M8} {t : Nat} {r : Request} (hone : ∀ q ∈ queuedReqs (getTile s t), q.id = r.id) :
    queuedReqs (getTile (quarantineFetch s t r) t) = [] := by
  rw [queuedReqs, (quarantineFetch_sets s t r).1]
  exact queuedReqs_completeFetch 0x16 0 hone

/-! ### Admission to the flash (R390, R402) -/

/-- Nothing but the map cache and its counts differs. -/
def CacheOnly (a b : M8) : Prop := b = { a with fl := { a.fl with cache := b.fl.cache }, dict := b.dict }

theorem CacheOnly.trans {a b c : M8} (h : CacheOnly a b) (h' : CacheOnly b c) : CacheOnly a c := by
  unfold CacheOnly at *
  rw [h', h]

theorem loadPage_cache (s : M8) (page : Nat) : CacheOnly s (loadPage s page) := by
  unfold loadPage
  split
  · rfl
  · dsimp only
    split
    · rfl
    · split <;> rfl

theorem usePage_cache (s : M8) (page : Nat) : CacheOnly s (usePage s page) := .trans (loadPage_cache s page) rfl

theorem usePages_cache (ps : List Nat) (s : M8) : CacheOnly s (ps.foldl usePage s) := by
  induction ps generalizing s with
  | nil => rfl
  | cons p ps ih => exact (usePage_cache s p).trans (ih _)

/-- The map pages of a local fetch are used (R402). -/
def fetchPages (s : M8) (r : Request) : M8 :=
  if sampleLocal s (leField r.desc 0 6) then
    (((List.range (extentPages (entryLength (sampleEntry s (leField r.desc 0 6))))).map fun i =>
      pageOf (entryLpn (sampleEntry s (leField r.desc 0 6)) + i)).eraseDups).foldl usePage s
  else s

theorem fetchPages_cache (s : M8) (r : Request) : CacheOnly s (fetchPages s r) := by
  unfold fetchPages
  split
  · exact usePages_cache ..
  · rfl

/-- What FLASH_FETCH_ADMIT makes of a fetch that may be scheduled. -/
def fetchAdmitted (s : M8) (t : Nat) (r : Request) : M8 :=
  match fetchEarly s t r with
  | some m => drainReqs m t
  | none => if !diesFree s r then s else drainReqs (setReq (fetchPages s r) t { r with phase := .flash, admitTime := (fetchPages s r).clk.now }) t

theorem ends_flashFetchAdmit {s : State} {t req : Nat} {r : Request} {P : M8 → Prop} (hs : s.awake) (hfind : findReq s.m t req = some r)
    (hsched : schedulable s.m t r = true) (hP : P (fetchAdmitted s.m t r)) : Ends (.flashFetchAdmit t req) s P := by
  refine ends_live hs (exec_flashFetchAdmit s t req) ?_
  simp only [hfind, hsched]
  exact hP

theorem fetchEarly_eq (s : M8) (t : Nat) (r : Request) : fetchEarly s t r =
    if sampleLocal s (leField r.desc 0 6) = true ∧ maxCoded s (entryStream (sampleEntry s (leField r.desc 0 6))) <
        entryLength (sampleEntry s (leField r.desc 0 6)) then some (quarantineFetch s t r)
    else if sampleLocal s (leField r.desc 0 6) = true ∧ leField r.desc 16 4 < entryLength (sampleEntry s (leField r.desc 0 6)) then
      some (completeFetch s t r 0x0100 0)
    else none := by
  unfold fetchEarly
  cases sampleLocal s (leField r.desc 0 6) <;> simp

/-- An admitted fetch that waited alone stands at the flash, and nothing else has changed but the map cache (R402). -/
theorem fetchAdmitted_admits {s : M8} {t : Nat} {r : Request} (hearly : fetchEarly s t r = none) (hfree : diesFree s r = true)
    (hone : ∀ q ∈ queuedReqs (getTile s t), q.id = r.id) :
    fetchAdmitted s t r = setReq (fetchPages s r) t { r with phase := .flash, admitTime := s.clk.now } := by
  have hrest := fetchPages_cache s r
  have hclk : (fetchPages s r).clk = s.clk := by rw [hrest]
  have htile : getTile (fetchPages s r) t = getTile s t := by
    rw [hrest]
    rfl
  rw [fetchAdmitted, hearly]
  simp only [hfree, Bool.not_true, Bool.false_eq_true, if_false, hclk]
  exact drainReqs_idle (queuedReqs_setReq (r := r) rfl nofun (by rwa [htile]))

/-! ### The completion of a flash read and of a fill's copy (R203, R321, R402) -/

/-- The bytes a fetch delivers. -/
def fetchBytes (s : M8) (r : Request) (other : Bytes) : Bytes :=
  if sampleLocal s (leField r.desc 0 6) && !((match r.kind with
    | .fetch _ f => f && !s.job.audit
    | _ => false) && !other.isEmpty) then ownExtent s (leField r.desc 0 6) else other

/-- The machine with the bytes of a fetch at its DEST. -/
def fetchDestWritten (s : M8) (t : Nat) (r : Request) (b : Bytes) : M8 :=
  match fetchDest t r with
  | some p => writeMem s p b
  | none => s

/-- What FETCH_COMPLETE makes of a fetch at the flash that delivers b. -/
def fetchDelivered (s : M8) (t : Nat) (r : Request) (b : Bytes) : M8 :=
  if s.clk.now < r.admitTime + tFix (extentPages b.length) then s
  else if !sampleLocal s (leField r.desc 0 6) && b.length > maxCoded s (leField r.desc 6 1) then quarantineFetch s t r
  else if b.length > leField r.desc 16 4 then completeFetch s t r 0x0100 0
  else completeFetch (fetchDestWritten s t r b) t r 0 b.length

theorem ends_fetchComplete {s : State} {t req : Nat} {r : Request} {other : Bytes} {P : M8 → Prop} (hs : s.awake)
    (hfind : findReq s.m t req = some r) (hphase : r.phase = .flash) (hP : P (fetchDelivered s.m t r (fetchBytes s.m r other))) :
    Ends (.fetchComplete t req other) s P := by
  refine ends_live hs (exec_fetchComplete s t req other) ?_
  simp only [hfind, hphase, ne_eq, not_true_eq_false, decide_false, Bool.false_or, decide_eq_true_eq]
  exact hP

/-- What CFILL_COPY_DONE makes of a fill whose source has been copied. -/
def fillCopied (s : M8) (t : Nat) (r : Request) : M8 :=
  match localToPkg t (leField r.desc 24 8), findHold s (t / 16) 0 r.hold with
  | some p, some h => writeSpans s (holdSpans s (t / 16) 0 h) (packedTensor s p (imgAt r.desc 8))
  | _, _ => s

/-- The fill of a copied request, as it queues for a lane. -/
def fillOf (r : Request) : FillJob := ⟨r.slot, leField r.desc 0 6, leField r.desc 6 1, slice r.desc 8 16, r.hold⟩

theorem fillCopied_rest (s : M8) (t : Nat) (r : Request) : fillCopied s t r = { s with mem := (fillCopied s t r).mem } := by
  unfold fillCopied
  split
  · exact writeSpans_rest ..
  · rfl

theorem ends_cfillCopyDone {s : State} {t req : Nat} {r : Request} {P : M8 → Prop} (hs : s.awake)
    (hfind : findReq s.m t req = some r) (hphase : r.phase = .copying)
    (hP : P (modCodec (dropReq (fillCopied s.m t r) t req) (t / 16) fun x => { x with fills := x.fills ++ [fillOf r] })) :
    Ends (.cfillCopyDone t req) s P := by
  refine ends_live hs (exec_cfillCopyDone s t req) ?_
  simp only [hfind, hphase, ne_eq, not_true_eq_false, if_false]
  exact hP

theorem getCodec_modCodec (s : M8) (hub : Nat) (f : CodecHub → CodecHub) : getCodec (modCodec s hub f) hub = f (getCodec s hub) :=
  Sparse.get_set_self ..

theorem getCodec_modCodec_other (s : M8) {hub h : Nat} (f : CodecHub → CodecHub) (hne : h ≠ hub) :
    getCodec (modCodec s hub f) h = getCodec s h := Sparse.get_set_other _ _ _ _ _ hne

/-- An extent comes from the device's own flash unless a first responder has answered (R207, R402). -/
theorem readsOwn_iff (own first : Bool) (other : Bytes) :
    (own && !(first && !other.isEmpty)) = true ↔ own = true ∧ (first = false ∨ other = []) := by
  cases first <;> simp

theorem fillCopied_queue (s : M8) (t : Nat) (r : Request) (f : CodecHub → CodecHub) :
    (getTile (modCodec (dropReq (fillCopied s t r) t r.id) (t / 16) f) t).reqQ = (getTile s t).reqQ.filter (fun q => q.id != r.id) := by
  have htile : getTile (fillCopied s t r) t = getTile s t := by
    rw [fillCopied_rest]
    rfl
  rw [← htile]
  show (getTile (dropReq (fillCopied s t r) t r.id) t).reqQ = _
  rw [dropReq, getTile_modTile]

/-- Settles O37: a fetch that stands alone is admitted, waits, or ends before any read; one at the flash ends T_FIX later; a copied
fill queues for a lane. -/
theorem fetchesAndFillsComplete : Obligations.FetchesAndFillsComplete := by
  unfold Obligations.FetchesAndFillsComplete
  intro s t req r hs hfind e ends
  obtain rfl := findReq_id hfind
  refine ⟨fun ⟨hsched, hone⟩ => ends_flashFetchAdmit hs hfind hsched ?admission, fun other hphase => ends_fetchComplete hs hfind hphase ?complete,
    fun hphase => ends_cfillCopyDone hs hfind hphase ?fill⟩
  case admission =>
    have hearly := fetchEarly_eq s.m t r
    have hends := completeFetch_ends (s := s.m) (d := s.m) t r 0x0100 0 rfl rfl
    split
    next hlong =>
      rw [if_pos hlong] at hearly
      rw [fetchAdmitted, hearly]
      dsimp only
      rw [drainReqs_idle (queuedReqs_quarantineFetch hone)]
      exact ⟨findReq_quarantineFetch .., (quarantineFetch_sets ..).2⟩
    next hlong =>
      rw [if_neg hlong] at hearly
      split
      next hcap =>
        rw [if_pos hcap] at hearly
        rw [fetchAdmitted, hearly]
        dsimp only
        rw [drainReqs_idle (queuedReqs_completeFetch _ _ hone)]
        exact ⟨hends.mem, hends.gone, hends.flash, hends.counter⟩
      next hcap =>
        rw [if_neg hcap] at hearly
        split
        next hfree =>
          have hrest := fetchPages_cache s.m r
          have htiles : (fetchPages s.m r).tiles = s.m.tiles := by rw [hrest]
          rw [fetchAdmitted_admits hearly hfree hone]
          refine ⟨?_, fun t' ht => ?_, ?_, ?_, ?_⟩
          · rw [setReq, getTile_modTile, getTile, htiles]
            rfl
          · rw [setReq, getTile_modTile_other _ _ _ _ ht, getTile, htiles, getTile]
          all_goals
            rw [setReq, hrest]
            rfl
        next hfree =>
          rw [fetchAdmitted, hearly]
          simp [hfree]
  case complete =>
    intro loc first b
    have hb : fetchBytes s.m r other = b := if_congr (readsOwn_iff loc first other) rfl rfl
    rw [hb]
    clear_value b
    have hends (status len : Nat) (d : M8) := completeFetch_ends (s := s.m) (d := d) t r status len
    split
    next hearly => exact if_pos hearly
    next hearly =>
      rw [fetchDelivered, if_neg (show ¬ s.m.clk.now < r.admitTime + tFix (extentPages b.length) from hearly)]
      by_cases hlong : loc = false ∧ maxCoded s.m (leField r.desc 6 1) < b.length
      · rw [if_pos hlong, if_pos (by simpa using hlong)]
        exact ⟨findReq_quarantineFetch .., (quarantineFetch_sets ..).2⟩
      · rw [if_neg hlong, if_neg (show ¬ (!loc && decide (b.length > maxCoded s.m (leField r.desc 6 1))) = true by simpa using hlong)]
        by_cases hcap : leField r.desc 16 4 < b.length
        · obtain ⟨hmem, hgone, hflash, hcounter⟩ := hends 0x0100 0 s.m rfl rfl
          rw [if_pos hcap, if_pos hcap]
          exact ⟨hmem, hgone, hflash, hcounter⟩
        · have hdest : (fetchDestWritten s.m t r b).sync = s.m.sync ∧ (fetchDestWritten s.m t r b).fl = s.m.fl := by
            unfold fetchDestWritten
            split <;> exact ⟨rfl, rfl⟩
          obtain ⟨hmem, hgone, hflash, hcounter⟩ := hends 0 b.length (fetchDestWritten s.m t r b) hdest.1 hdest.2
          rw [if_neg hcap, if_neg hcap]
          exact ⟨hmem, hgone, hflash, hcounter⟩
  case fill =>
    have hrest := fillCopied_rest s.m t r
    have htiles : (fillCopied s.m t r).tiles = s.m.tiles := by rw [hrest]
    have hcodec (h : Nat) : getCodec (dropReq (fillCopied s.m t r) t r.id) h = getCodec s.m h := by
      rw [hrest]
      rfl
    refine ⟨rfl, fillCopied_queue .., fun t' ht => ?_, ?_, fun h hh => ?_, ?_⟩
    · have htile : getTile (fillCopied s.m t r) t' = getTile s.m t' := by rw [getTile, htiles, getTile]
      show getTile (dropReq (fillCopied s.m t r) t r.id) t' = _
      rw [dropReq, getTile_modTile_other _ _ _ _ ht, htile]
    · rw [getCodec_modCodec, hcodec]
      rfl
    · rw [getCodec_modCodec_other _ _ hh, hcodec]
    · rw [hrest]
      rfl

end Machine
end Sys2Proof

/-!
PROOFS of the statements of the sample path: heartbeats, unit faults, the coordinator, intents and mirrors (R513 to R537).
-/
namespace Sys2Proof
namespace Machine

/-! ### Fields of a message -/

theorem leNat_natLe (k n : Nat) : leNat (natLe k n) = n % 2 ^ (8 * k) := by
  induction k generalizing n with
  | zero => simp [natLe, leNat, Nat.mod_one]
  | succ k ih =>
    rw [natLe, leNat, ih, BitVec.toNat_ofNat, show 8 * (k + 1) = 8 + 8 * k by omega, Nat.pow_add, Nat.mod_mul]

theorem leField_natLe (k n : Nat) (b : Bytes) : leField (natLe k n ++ b) 0 k = n % 2 ^ (8 * k) := by
  rw [leField, List.drop_zero, List.take_left' (natLe_length k n), leNat_natLe]

/-- A field beyond the first is a field of what follows it. -/
theorem leField_skip {k o : Nat} (n w : Nat) (b : Bytes) (h : k ≤ o) : leField (natLe k n ++ b) o w = leField b (o - k) w := by
  rw [leField, List.drop_append, List.drop_eq_nil_of_le (by simpa using h), natLe_length, List.nil_append, leField]

/-- A message holds fields: offset, bytes and value of each. -/
def HasFields (p : Bytes) (fields : List (Nat × Nat × Nat)) : Prop := ∀ f ∈ fields, leField p f.1 f.2.1 = f.2.2 % 2 ^ (8 * f.2.1)

theorem recOk_iff (m : M8) (b : Bytes) (type : Nat) : recOk m b type = true ↔ heard m b type := by
  simp [recOk, heard, and_assoc]

/-! ### What sending leaves (R518) -/

/-- Nothing but the group's state and the frames that wait differs. -/
def SentOnly (a b : M8) : Prop := b = { a with grp := b.grp, fab := { a.fab with units := b.fab.units } }

theorem SentOnly.refl (a : M8) : SentOnly a a := rfl

theorem SentOnly.trans {a b c : M8} (h : SentOnly a b) (h' : SentOnly b c) : SentOnly a c := by
  unfold SentOnly at *
  rw [h', h]

theorem SentOnly.ite {a x y : M8} {c : Prop} [Decidable c] (hx : SentOnly a x) (hy : SentOnly a y) : SentOnly a (if c then x else y) := by
  split <;> assumption

theorem modGrp_sent (s : M8) (f : Group → Group) : SentOnly s (modGrp s f) := rfl

theorem sendRec_sent (s : M8) (dst : Nat) (b : Bytes) : SentOnly s (sendRec s dst b) := rfl

/-- A recovery message as it waits to be sent. -/
def recFrame (dst : Nat) (b : Bytes) : UnitFrame := { dst := dst, cls := 4, payload := b }

theorem recovering_of_frame {dst : Nat} {b : Bytes} {fields : List (Nat × Nat × Nat)} {m : M8} (hsent : recFrame dst b ∈ m.fab.units)
    (hfields : HasFields b fields) : Recovering dst fields m := ⟨_, hsent, rfl, rfl, hfields⟩

theorem Recovering.mono {dst : Nat} {fields : List (Nat × Nat × Nat)} {a b : M8} (h : Recovering dst fields a)
    (hsub : a.fab.units ⊆ b.fab.units) : Recovering dst fields b := by
  obtain ⟨u, hu, hdst, hcls, hfields⟩ := h
  exact ⟨u, hsub hu, hdst, hcls, hfields⟩

/-- Messages sent one after another wait behind the others. -/
theorem foldl_sendRec {α : Type} (dst : α → Nat) (body : α → Bytes) (l : List α) (m : M8) :
    l.foldl (fun m a => sendRec m (dst a) (body a)) m =
      { m with fab := { m.fab with units := m.fab.units ++ l.map fun a => recFrame (dst a) (body a) } } := by
  induction l generalizing m with
  | nil => simp
  | cons a l ih =>
    rw [List.foldl_cons, ih]
    simp [sendRec, sendFrame, recFrame]

/-! ### Heartbeats (R519, R522) -/

/-- The body of a HEARTBEAT. -/
def heartbeatBody (s : M8) : Bytes :=
  recoveryHeader s 1 (ownRole s) ++ natLe 4 (unsigned 32 s.grp.slack) ++ natLe 1 (jobState s) ++ zeros 3

theorem heartbeatBody_fields (s : M8) : HasFields (heartbeatBody s)
    [(0, 1, 1), (2, 2, ownRole s), (4, 4, jobTag s), (8, 4, s.grp.rbId), (12, 4, unsigned 32 s.grp.slack), (16, 1, jobState s)] := by
  simp [HasFields, heartbeatBody, recoveryHeader, leField_skip, leField_natLe]

/-- The machine with its HEARTBEATs sent. -/
def heartbeatsSent (s : M8) : M8 :=
  (hbTargets s).foldl (fun m a => sendRec m a (heartbeatBody s)) (modGrp s fun g => { g with hbSent := s.clk.now })

theorem heartbeatsSent_eq (s : M8) : heartbeatsSent s = { s with
    grp := { s.grp with hbSent := s.clk.now }
    fab := { s.fab with units := s.fab.units ++ (hbTargets s).map fun a => recFrame a (heartbeatBody s) } } :=
  foldl_sendRec id (fun _ => heartbeatBody s) (hbTargets s) (modGrp s fun g => { g with hbSent := s.clk.now })

theorem ends_heartbeatSend {s : State} {P : M8 → Prop} (hs : s.awake) (hP : P (
    if s.m.grp.own.isEmpty || s.m.clk.now < s.m.grp.hbSent + odNat s.m Od.HB_US * 1000 then s.m else heartbeatsSent s.m)) :
    Ends .heartbeatSend s P := ends_live hs (exec_heartbeatSend s) hP

/-- A FAULT of a role has been sent to its coordinator (R519). -/
def FaultSent (s : M8) (role kind : Nat) (m : M8) : Prop :=
  Recovering (coordFor s role) [(0, 1, 2), (12, 2, role), (14, 1, bits (ownAddr s) 9 6), (15, 1, kind), (16, 8, s.clk.now)] m

/-- The body of a FAULT. -/
def faultBody (s : M8) (role kind : Nat) : Bytes :=
  recoveryHeader s 2 (ownRole s) ++ natLe 2 role ++ natLe 1 (bits (ownAddr s) 9 6) ++ natLe 1 kind ++ natLe 8 s.clk.now

theorem sendFault_eq (s : M8) (role kind : Nat) : sendFault s role kind = sendRec s (coordFor s role) (faultBody s role kind) := rfl

theorem faultBody_fields (s : M8) (role kind : Nat) : HasFields (faultBody s role kind)
    [(0, 1, 2), (12, 2, role), (14, 1, bits (ownAddr s) 9 6), (15, 1, kind), (16, 8, s.clk.now)] := by
  have hend := leField_natLe 8 s.clk.now []
  rw [List.append_nil] at hend
  simp [HasFields, faultBody, recoveryHeader, leField_skip, leField_natLe, hend]

/-- The machine with a fault of a role declared (R519). -/
def faultDeclared (s : M8) (role kind : Nat) : M8 :=
  sendFault (modGrp s fun g => { g with pastFaults := (role, kind) :: g.pastFaults }) role kind

theorem faultDeclared_sent (s : M8) (role kind : Nat) : FaultSent s role kind (faultDeclared s role kind) := by
  rw [faultDeclared, sendFault_eq]
  refine recovering_of_frame (b := faultBody s role kind) ?_ (faultBody_fields s role kind)
  exact List.mem_append_right _ (List.mem_singleton_self _)

/-- Nothing but the faults declared and the frames that wait differs, and none of them is lost. -/
structure Declares (a b : M8) : Prop where
  rest : b = { a with grp := { a.grp with pastFaults := b.grp.pastFaults }, fab := { a.fab with units := b.fab.units } }
  past : a.grp.pastFaults ⊆ b.grp.pastFaults
  units : a.fab.units ⊆ b.fab.units

theorem Declares.refl (a : M8) : Declares a a := ⟨rfl, fun _ h => h, fun _ h => h⟩

theorem Declares.trans {a b c : M8} (h : Declares a b) (h' : Declares b c) : Declares a c :=
  ⟨by rw [h'.rest, h.rest], fun _ hx => h'.past (h.past hx), fun _ hx => h'.units (h.units hx)⟩

theorem faultDeclared_declares (s : M8) (role kind : Nat) : Declares s (faultDeclared s role kind) :=
  ⟨rfl, fun _ hx => List.mem_cons_of_mem _ hx, fun _ hx => List.mem_append_left _ hx⟩

theorem Declares.faultSent {a b m : M8} (h : Declares a b) {role kind : Nat} (hsent : FaultSent b role kind m) : FaultSent a role kind m := by
  rw [h.rest] at hsent
  exact hsent

/-- Declare a KIND 5 fault of a role, once (R173). -/
def declareSilent (m : M8) (i : Nat) : M8 := if m.grp.pastFaults.contains (i, 5) then m else faultDeclared m i 5

theorem declareSilent_declares (m : M8) (i : Nat) : Declares m (declareSilent m i) := by
  unfold declareSilent
  split
  · exact .refl m
  · exact faultDeclared_declares ..

theorem declareSilent_past (m : M8) (i : Nat) : (i, 5) ∈ (declareSilent m i).grp.pastFaults := by
  unfold declareSilent
  split
  next h => simpa using h
  next => exact List.mem_cons_self ..

theorem declareSilent_past_other {m : M8} {i j : Nat} (hne : j ≠ i) (h : (j, 5) ∉ m.grp.pastFaults) :
    (j, 5) ∉ (declareSilent m i).grp.pastFaults := by
  unfold declareSilent
  split
  · exact h
  · exact fun hin => (List.mem_cons.1 hin).elim (fun he => hne (congrArg Prod.fst he)) h

theorem declareSilent_new {m : M8} {i : Nat} (h : (i, 5) ∉ m.grp.pastFaults) : FaultSent m i 5 (declareSilent m i) := by
  rw [declareSilent, if_neg (by simpa using h)]
  exact faultDeclared_sent ..

/-- Every silent role of a list stands as declared, and what is declared anew is sent. -/
theorem declareSilents (l : List Nat) (m : M8) : Declares m (l.foldl declareSilent m) ∧
    ∀ i ∈ l, (i, 5) ∈ (l.foldl declareSilent m).grp.pastFaults ∧ ((i, 5) ∉ m.grp.pastFaults → FaultSent m i 5 (l.foldl declareSilent m)) := by
  induction l generalizing m with
  | nil => exact ⟨.refl m, nofun⟩
  | cons k l ih =>
    obtain ⟨hrest, hall⟩ := ih (declareSilent m k)
    have hfirst := declareSilent_declares m k
    refine ⟨hfirst.trans hrest, fun i hi => ?_⟩
    by_cases hk : i = k
    · subst hk
      exact ⟨hrest.past (declareSilent_past ..), fun hnew => (declareSilent_new hnew).mono hrest.units⟩
    · have hin : i ∈ l := (List.mem_cons.1 hi).resolve_left hk
      exact ⟨(hall i hin).1, fun hnew => hfirst.faultSent ((hall i hin).2 (declareSilent_past_other hk hnew))⟩

/-- The roles whose home member has not answered a CANCEL for 1 ms. -/
def silentHomes (s : M8) : List Nat :=
  ((s.job.cancels.filter fun c => s.clk.now ≥ c.time + 1000000).filterMap fun c => roleOfAddr s c.home).eraseDups

theorem ends_cancelAckTimeout {s : State} {P : M8 → Prop} (hs : s.awake) (hP : P ((silentHomes s.m).foldl declareSilent s.m)) :
    Ends .cancelAckTimeout s P := ends_live hs (exec_cancelAckTimeout s) hP

/-! ### A member fences itself (R522) -/

theorem Sparse.mem_of_get {α : Type} {d v : α} {m : Sparse α} {k : Nat} (h : Sparse.get d m k = v) (hv : v ≠ d) : (k, v) ∈ m := by
  induction m with
  | nil => exact absurd h.symm hv
  | cons p m ih =>
    obtain ⟨a, w⟩ := p
    rw [Sparse.get] at h
    split at h
    next hk => simp [hk, h]
    next => exact List.mem_cons_of_mem _ (ih h)

theorem mem_runningTiles {s : M8} {t : Nat} (h : (getTile s t).st = .running) : t ∈ runningTiles s := by
  have hlisted : (t, getTile s t) ∈ s.tiles := Sparse.mem_of_get rfl fun he => by simp [he] at h
  exact List.mem_map.2 ⟨_, List.mem_filter.2 ⟨hlisted, by simp [h]⟩, rfl⟩

/-- Tile t runs only with a HALT in progress. -/
def HaltsIfRunning (t : Nat) (s : M8) : Prop := (getTile s t).st = .running → (getTile s t).busy = some .halt

theorem haltTile_same (s : M8) (t : Nat) : HaltsIfRunning t (haltTile s t) := by
  unfold haltTile HaltsIfRunning
  split
  · simp
  next h => exact fun hrun => absurd hrun h

theorem haltTile_keeps (s : M8) (t k : Nat) (h : HaltsIfRunning k s) : HaltsIfRunning k (haltTile s t) := by
  by_cases hk : k = t
  · exact hk ▸ haltTile_same s t
  · unfold haltTile
    split
    · rw [HaltsIfRunning, getTile_modTile_other _ _ _ _ hk]
      exact h
    · exact h

theorem haltTiles_halt (l : List Nat) (s : M8) (k : Nat) (h : k ∈ l ∨ HaltsIfRunning k s) : HaltsIfRunning k (l.foldl haltTile s) := by
  induction l generalizing s with
  | nil => exact h.resolve_left (List.not_mem_nil)
  | cons t l ih =>
    refine ih _ ?_
    by_cases hk : k = t
    · exact .inr (hk ▸ haltTile_same s t)
    · exact h.imp (fun hin => (List.mem_cons.1 hin).resolve_left hk) (haltTile_keeps s t k)

theorem haltTile_state (s : M8) (t k : Nat) : (getTile (haltTile s t) k).st = (getTile s k).st := by
  unfold haltTile
  split
  · by_cases hk : k = t
    · subst hk
      simp
    · rw [getTile_modTile_other _ _ _ _ hk]
  · rfl

theorem haltTiles_state (l : List Nat) (s : M8) (k : Nat) : (getTile (l.foldl haltTile s) k).st = (getTile s k).st := by
  induction l generalizing s with
  | nil => rfl
  | cons t l ih => exact (ih _).trans (haltTile_state ..)

/-- The machine with its fence marked and counted, its tiles not yet halted. -/
def fenceMarked (s : M8) : M8 :=
  odSet (odInc { s with grp := { s.grp with fenced := true, fencedAt := s.clk.now } } Od.SELF_FENCES) Od.SAFETY_STATE (if s.safe.faultN then 3 else 2)

theorem fenceSelf_eq {s : M8} (h : s.grp.fenced = false) : fenceSelf s = (runningTiles s).foldl haltTile (fenceMarked s) := by
  rw [fenceSelf, h]
  rfl

theorem haltTiles_rest (l : List Nat) (s : M8) : l.foldl haltTile s = { s with tiles := (l.foldl haltTile s).tiles } := by
  induction l generalizing s with
  | nil => rfl
  | cons t l ih =>
    have hfirst : haltTile s t = { s with tiles := (haltTile s t).tiles } := by
      unfold haltTile
      split <;> rfl
    rw [List.foldl_cons, ih]
    exact (congrArg (fun m : M8 => { m with tiles := (l.foldl haltTile (haltTile s t)).tiles }) hfirst)

theorem odKeyRow_safetyState : odKeyRow Od.SAFETY_STATE = some ⟨0x5100, 1, 1, .unsigned 1, 0, 255, .num 0, .n, .full, false⟩ := by
  decide +kernel

/-- The entries a fence of itself leaves (R522, R553). -/
theorem fenceMarked_entries (s : M8) : odNat (fenceMarked s) Od.SELF_FENCES = (odNat s Od.SELF_FENCES + 1) % 2 ^ 32 ∧
    odNat (fenceMarked s) Od.SAFETY_STATE = (if s.safe.faultN then 3 else 2) ∧
    EntriesBut [Od.SELF_FENCES, Od.SAFETY_STATE] s (fenceMarked s) := by
  generalize hg : ({ s with grp := { s.grp with fenced := true, fencedAt := s.clk.now } } : M8) = g
  have hmark : fenceMarked s = odSet (odInc g Od.SELF_FENCES) Od.SAFETY_STATE (if s.safe.faultN then 3 else 2) := by rw [fenceMarked, hg]
  have hdict : g.dict = s.dict := by rw [← hg]
  rw [hmark]
  refine ⟨?count, ?state, ?entries⟩
  case count =>
    rw [odNat_odSet_other _ _ _ _ (by decide), (odInc_countsUp g (k := Od.SELF_FENCES) (w := 32) rfl rfl rfl).counted,
      odNat_congr (congrArg Dict.live hdict)]
  case state =>
    rw [odNat_odSet_self _ _ _ _ odKeyRow_safetyState rfl]
    split <;> rfl
  case entries =>
    have hcount : EntriesBut [Od.SELF_FENCES, Od.SAFETY_STATE] g (odInc g Od.SELF_FENCES) := (odInc_entries ..).mono (by simp)
    exact (EntriesBut.of_dict hdict).trans (hcount.trans ((odSet_entriesBut ..).mono (by simp)))

/-- All that a fence of itself changes (R522). -/
theorem fenceSelf_sets {s : M8} (h : s.grp.fenced = false) :
    (∀ t, (getTile s t).st = .running → (getTile (fenceSelf s) t).busy = some .halt) ∧
      (fenceSelf s).dict = (fenceMarked s).dict ∧
      fenceSelf s = { s with
        dict := (fenceSelf s).dict
        grp := { s.grp with fenced := true, fencedAt := s.clk.now }
        tiles := (fenceSelf s).tiles } := by
  have hrest := haltTiles_rest (runningTiles s) (fenceMarked s)
  rw [fenceSelf_eq h]
  refine ⟨fun t ht => ?_, by rw [hrest], ?_⟩
  · refine haltTiles_halt _ (fenceMarked s) t (.inl (mem_runningTiles ht)) ?_
    rw [haltTiles_state]
    exact ht
  · rw [hrest]
    rfl

/-! ### Answers that are waited for (R518) -/

/-- The messages unanswered for 100 us, sent again. -/
def resent (s : M8) : M8 :=
  (s.grp.awaits.filter fun a => s.clk.now ≥ a.time + 100000).foldl (fun m a => sendRec m a.dst a.payload)
    (modGrp s fun g => { g with awaits := g.awaits.map fun a => if s.clk.now ≥ a.time + 100000 then { a with time := s.clk.now } else a })

theorem ends_recoveryResend {s : State} {P : M8 → Prop} (hs : s.awake) (hP : P (resent s.m)) : Ends .recoveryResend s P :=
  ends_live hs (exec_recoveryResend s) hP

theorem resent_eq (s : M8) : resent s = { s with
    grp := { s.grp with awaits := s.grp.awaits.map fun a => if s.clk.now ≥ a.time + 100000 then { a with time := s.clk.now } else a }
    fab := { s.fab with units := s.fab.units ++
      (s.grp.awaits.filter fun a => s.clk.now ≥ a.time + 100000).map fun a => recFrame a.dst a.payload } } :=
  foldl_sendRec AwaitMsg.dst AwaitMsg.payload (s.grp.awaits.filter fun a => s.clk.now ≥ a.time + 100000)
    (modGrp s fun g => { g with awaits := g.awaits.map fun a => if s.clk.now ≥ a.time + 100000 then { a with time := s.clk.now } else a })

/-! ### The coordinator of a FAULT (R521, R535) -/

theorem setRole_named {s : M8} {i : Nat} {r : RoleRec} (h : r ≠ {}) : setRole s i r = { s with grp := { s.grp with roles := s.grp.roles.put i r } } := by
  rw [setRole, Sparse.set, if_neg h]

/-- The machine with a role marked as lost (R537). -/
def roleLost (s : M8) (role : Nat) : M8 := setRole s role { holder := 0xFFFF, state := 0xFF }

theorem roleLost_eq (s : M8) (role : Nat) : roleLost s role =
    { s with grp := { s.grp with roles := s.grp.roles.put role { holder := 0xFFFF, state := 0xFF } } } := setRole_named nofun

theorem roleHolder_roleLost (s : M8) (role i : Nat) : roleHolder (roleLost s role) i = if i = role then 0xFFFF else roleHolder s i := by
  have haddr : roleAddr (roleLost s role) i = roleAddr s i := rfl
  rw [roleHolder, roleHolder, haddr, roleLost_eq]
  dsimp only
  rw [Sparse.find_put]
  by_cases h : i = role <;> simp [h]

/-- The FAULT is passed on to the job coordinator, unless this device is that (R521). -/
def faultForwarded (s : M8) (role : Nat) (b : Bytes) : M8 :=
  if jobCoordinator s (roleAddr s role) = ownAddr s then roleLost s role else sendRec (roleLost s role) (jobCoordinator s (roleAddr s role)) b

/-- Does the device coordinate the role a FAULT names, and is the role not yet lost (R518, R521)? -/
def faultTaken (s : M8) (b : Bytes) : Prop :=
  heard s b 2 ∧ 24 ≤ b.length ∧ leField b 14 1 = bits (ownAddr s) 9 6 ∧ leField b 12 2 < groupW s ∧ coordFor s (leField b 12 2) = ownAddr s ∧
    ¬((getRole s (leField b 12 2)).holder = 0xFFFF ∧ s.grp.roles.has (leField b 12 2) = true)

theorem faultReceive_skips {s : M8} {b : Bytes} (src : Nat) (h : ¬ faultTaken s b) : faultReceive s src b = s := by
  refine if_pos ?_
  rw [faultTaken, ← recOk_iff] at h
  by_contra hn
  simp only [Bool.or_eq_true, Bool.not_eq_true', decide_eq_true_eq, Bool.and_eq_true, not_or] at hn
  simp_all

theorem faultReceive_takes {s : M8} {b : Bytes} (src : Nat) (h : faultTaken s b) : faultReceive s src b =
    if spareIdle (faultForwarded s (leField b 12 2) b) then
      spareBusy (sendRoleReq (faultForwarded s (leField b 12 2) b) (faultForwarded s (leField b 12 2) b).grp.spareAddr (leField b 12 2) 1
        (nowStep (faultForwarded s (leField b 12 2) b)))
    else absorbRole (faultForwarded s (leField b 12 2) b) (leField b 12 2) := by
  refine if_neg ?_
  obtain ⟨hheard, hlength, hgroup, hrole, hcoord, hlost⟩ := h
  simp_all [recOk_iff]

theorem faultForwarded_sent (s : M8) (role : Nat) (b : Bytes) : SentOnly s (faultForwarded s role b) := .ite rfl rfl

theorem faultForwarded_grp (s : M8) (role : Nat) (b : Bytes) :
    (faultForwarded s role b).grp = { s.grp with roles := s.grp.roles.put role { holder := 0xFFFF, state := 0xFF } } := by
  have hlost : (roleLost s role).grp = { s.grp with roles := s.grp.roles.put role { holder := 0xFFFF, state := 0xFF } } := by rw [roleLost_eq]
  unfold faultForwarded
  split <;> exact hlost

theorem faultForwarded_idle (s : M8) {role : Nat} (b : Bytes) (h : role ≠ 63) : spareIdle (faultForwarded s role b) = spareIdle s := by
  simp only [spareIdle, faultForwarded_grp, Sparse.get_put, if_neg h.symm]

/-- A role is marked as lost, and its FAULT b has been passed on to the job coordinator. -/
def LossNoted (s : M8) (role : Nat) (b : Bytes) (m : M8) : Prop :=
  Sparse.find m.grp.roles role = some { holder := 0xFFFF, state := 0xFF } ∧
    (jobCoordinator s (roleAddr s role) ≠ ownAddr s → recFrame (jobCoordinator s (roleAddr s role)) b ∈ m.fab.units)

theorem faultForwarded_noted (s : M8) (role : Nat) (b : Bytes) : LossNoted s role b (faultForwarded s role b) := by
  refine ⟨by rw [faultForwarded_grp, Sparse.find_put_self], fun hother => ?_⟩
  rw [faultForwarded, if_neg hother]
  exact List.mem_append_right _ (List.mem_singleton_self _)

theorem LossNoted.mono {s a m : M8} {role : Nat} {b : Bytes} (h : LossNoted s role b a)
    (hroles : Sparse.find m.grp.roles role = Sparse.find a.grp.roles role) (hunits : a.fab.units ⊆ m.fab.units) : LossNoted s role b m :=
  ⟨hroles.trans h.1, fun hother => hunits (h.2 hother)⟩

/-- All that asking a device to take a role leaves (R521). -/
structure Asked (s : M8) (dst role reason boundary : Nat) (m : M8) : Prop where
  sent : SentOnly s m
  roles : m.grp.roles = s.grp.roles
  spare : m.grp.spareAddr = s.grp.spareAddr
  wanted : (role, reason) ∈ m.grp.wanted
  units : s.fab.units ⊆ m.fab.units
  message : RoleSent 3 dst role reason 0 boundary m

theorem roleBody_fields (s : M8) (role reason boundary : Nat) : HasFields (recoveryHeader s 3 (ownRole s) ++ roleBody role reason 0 boundary)
    [(0, 1, 3), (12, 2, role), (14, 1, reason), (15, 1, 0), (16, 6, boundary)] := by
  simp [HasFields, recoveryHeader, roleBody, leField_skip, leField_natLe]

theorem sendRoleReq_asks (s : M8) (dst role reason boundary : Nat) : Asked s dst role reason boundary (sendRoleReq s dst role reason boundary) where
  sent := rfl
  roles := rfl
  spare := rfl
  wanted := List.mem_cons_self ..
  units := List.subset_append_left ..
  message := by
    refine recovering_of_frame (b := recoveryHeader s 3 (ownRole s) ++ roleBody role reason 0 boundary) ?_ (roleBody_fields s role reason boundary)
    exact List.mem_append_right _ (List.mem_singleton_self _)

theorem spareBusy_eq (s : M8) : spareBusy s =
    { s with grp := { s.grp with roles := s.grp.roles.put 63 { holder := s.grp.spareAddr, state := 5 } } } :=
  setRole_named fun h => by simpa using congrArg RoleRec.state h

/-- With a free spare, the coordinator asks it (R521). -/
theorem faultReceive_asksSpare {s : M8} {b : Bytes} (src : Nat) (h : faultTaken s b) (hspare : leField b 12 2 ≠ 63) (hidle : spareIdle s = true) :
    let m := faultReceive s src b
    LossNoted s (leField b 12 2) b m ∧ SentOnly s m ∧ RoleSent 3 s.grp.spareAddr (leField b 12 2) 1 0 (nowStep s) m ∧
      (leField b 12 2, 1) ∈ m.grp.wanted ∧ Sparse.find m.grp.roles 63 = some { holder := s.grp.spareAddr, state := 5 } := by
  have hforward := faultForwarded_sent s (leField b 12 2) b
  have hnoted := faultForwarded_noted s (leField b 12 2) b
  have hspareAddr : (faultForwarded s (leField b 12 2) b).grp.spareAddr = s.grp.spareAddr := by rw [faultForwarded_grp]
  have hnow : nowStep (faultForwarded s (leField b 12 2) b) = nowStep s := by
    rw [hforward]
    rfl
  rw [faultReceive_takes src h, if_pos (by rwa [faultForwarded_idle s b hspare]), hspareAddr, hnow]
  generalize faultForwarded s (leField b 12 2) b = a at hforward hnoted hspareAddr
  have hask := sendRoleReq_asks a s.grp.spareAddr (leField b 12 2) 1 (nowStep s)
  generalize sendRoleReq a s.grp.spareAddr (leField b 12 2) 1 (nowStep s) = d at hask
  have hbusy := hask.spare.trans hspareAddr
  rw [spareBusy_eq, hbusy]
  refine ⟨hnoted.mono ?_ hask.units, (hforward.trans hask.sent).trans rfl, hask.message, hask.wanted, Sparse.find_put_self ..⟩
  rw [Sparse.find_put_other _ _ _ _ hspare, hask.roles]

theorem nextRole_ne {s : M8} {role : Nat} (hW : 2 ≤ groupW s) (hrole : role < groupW s) : nextRole s role ≠ role := by
  rw [nextRole, Nat.max_eq_right (by omega)]
  by_cases hlast : role + 1 = groupW s
  · rw [hlast, Nat.mod_self]
    omega
  · rw [Nat.mod_eq_of_lt (by omega)]
    omega

theorem roleHolder_faultForwarded (s : M8) (role : Nat) (b : Bytes) (i : Nat) :
    roleHolder (faultForwarded s role b) i = if i = role then 0xFFFF else roleHolder s i := by
  rw [← roleHolder_roleLost]
  unfold faultForwarded
  split <;> rfl

/-- A device holds, of the roles once one is lost, those it held but that one (R535). -/
theorem rolesHeld_faultForwarded (s : M8) (role : Nat) (b : Bytes) {h : Nat} (hh : h ≠ 0xFFFF) : rolesHeld (faultForwarded s role b) h =
    ((List.range (groupW s)).filter fun i => i != role && roleHolder s i == h).length := by
  have hW : groupW (faultForwarded s role b) = groupW s := by
    rw [faultForwarded_sent]
    rfl
  rw [rolesHeld, hW]
  congr 1
  refine List.filter_congr fun i _ => ?_
  rw [roleHolder_faultForwarded]
  by_cases hi : i = role
  · simp [hi, hh.symm]
  · simp [hi]

/-- Without a free spare, the partner's holder is asked, or the job fails on a third role (R535). -/
theorem faultReceive_absorbs {s : M8} {b : Bytes} (src : Nat) (h : faultTaken s b) (hspare : leField b 12 2 ≠ 63) (hidle : spareIdle s = false)
    (hW : 2 ≤ groupW s) (hheld : roleHolder s (nextRole s (leField b 12 2)) ≠ 0xFFFF) : faultReceive s src b =
    if 2 ≤ ((List.range (groupW s)).filter fun i => i != leField b 12 2 && roleHolder s i == roleHolder s (nextRole s (leField b 12 2))).length then
      failJob (faultForwarded s (leField b 12 2) b) 0x0014 (lowestUnsealed (faultForwarded s (leField b 12 2) b))
    else sendRoleReq (faultForwarded s (leField b 12 2) b) (roleHolder s (nextRole s (leField b 12 2))) (leField b 12 2) 1 (nowStep s) := by
  have hrole : leField b 12 2 < groupW s := h.2.2.2.1
  have hforward := faultForwarded_sent s (leField b 12 2) b
  have hnow : nowStep (faultForwarded s (leField b 12 2) b) = nowStep s := by
    rw [hforward]
    rfl
  have hnext : nextRole (faultForwarded s (leField b 12 2) b) (leField b 12 2) = nextRole s (leField b 12 2) := by
    rw [hforward]
    rfl
  rw [faultReceive_takes src h, if_neg (by simp [faultForwarded_idle s b hspare, hidle]), absorbRole, hnext, roleHolder_faultForwarded,
    if_neg (nextRole_ne hW hrole), rolesHeld_faultForwarded s _ b hheld, hnow]

/-! ### Intents and mirrors (R515, R516) -/

/-- What is held of the intent a part b belongs to before the part. -/
def intentHeld (s : M8) (b : Bytes) : IntentRec :=
  (s.grp.intents.find? fun i => i.step == leField b 24 6 && i.rank == leField b 30 2).getD
    { step := leField b 24 6, rank := leField b 30 2, parts := leField b 14 2 }

/-- The intent with a part stored. -/
def intentWith (s : M8) (b : Bytes) : IntentRec :=
  { intentHeld s b with got := (intentHeld s b).got.put (leField b 12 2) (b.drop 80), commit := slice b 16 64, parts := leField b 14 2 }

theorem intentHeld_names (s : M8) (b : Bytes) : (intentHeld s b).step = leField b 24 6 ∧ (intentHeld s b).rank = leField b 30 2 := by
  unfold intentHeld
  cases h : s.grp.intents.find? fun i => i.step == leField b 24 6 && i.rank == leField b 30 2 with
  | none => exact ⟨rfl, rfl⟩
  | some i => simpa using List.find?_some h

/-- The machine with a part of an intent stored; intents whose buffer has been reused are let go. -/
def intentStored (s : M8) (b : Bytes) : M8 :=
  modGrp s fun g => { g with intents := intentWith s b :: g.intents.filter fun x =>
    !(x.step == leField b 24 6 && x.rank == leField b 30 2) &&
      !(x.rank == leField b 30 2 && x.step + (rankOf s (leField b 30 2)).nbuf < leField b 24 6) }

/-- The body of an INTENT_ACK. -/
def intentAckBody (s : M8) (b : Bytes) : Bytes :=
  recoveryHeader s 7 (ownRole s) ++ natLe 6 (leField b 24 6) ++ natLe 2 (leField b 30 2) ++ natLe 2 (leField b 12 2) ++ zeros 2

theorem intentAckBody_fields (s : M8) (b : Bytes) : HasFields (intentAckBody s b)
    [(0, 1, 7), (12, 6, leField b 24 6), (18, 2, leField b 30 2), (20, 2, leField b 12 2)] := by
  simp [HasFields, intentAckBody, recoveryHeader, leField_skip, leField_natLe]

theorem sealIntent_eq (s : M8) (src : Nat) (b : Bytes) : sealIntent s src b =
    if !recOk s b 6 || b.length < 80 || leField b 12 2 ≥ leField b 14 2 then s
    else sendRec (intentStored s b) src (intentAckBody s b) := rfl

/-- What has been acknowledged of an intent, after ack came for a step and rank. -/
def intentAcked (n r : Nat) (ack : Nat × Nat) (x : IntentAcks) : IntentAcks :=
  if x.step == n && x.rank == r && (x.acks.contains ack) == false then { x with acks := ack :: x.acks } else x

theorem intentAcked_has {n r : Nat} {ack : Nat × Nat} (x : IntentAcks) (hn : (intentAcked n r ack x).step = n)
    (hr : (intentAcked n r ack x).rank = r) : ack ∈ (intentAcked n r ack x).acks := by
  unfold intentAcked at *
  split at hn
  next h =>
    rw [if_pos h]
    exact List.mem_cons_self ..
  next h =>
    rw [if_neg h] at hr ⊢
    simpa [hn, hr] using h

theorem ends_intentAckReceive {s : State} {src : Nat} {b : Bytes} {P : M8 → Prop} (hs : s.awake) (hP : P (
    if !recOk s.m b 7 || b.length < 24 then s.m
    else modGrp (dropAwait s.m 6 (intentKey (leField b 12 6) (leField b 18 2) (leField b 20 2)) src) fun g => { g with
      acks := g.acks.map (intentAcked (leField b 12 6) (leField b 18 2) (src, leField b 20 2)) })) :
    Ends (.intentAckReceive src b) s P := ends_live hs (exec_intentAckReceive s src b) hP

/-- A group with a part of a role's mirror stored (R515). -/
def mirrored (g : Group) (b : Bytes) : Group :=
  if leField b 12 1 = 0 then { g with mirrorJob := putMirror g.mirrorJob (leField b 16 8) (b.drop 24), jobPartHeld := true }
  else if leField b 12 1 = 1 then { g with mirrorMap := putMirror g.mirrorMap (leField b 16 8) (b.drop 24) }
  else if leField b 12 1 = 2 then { g with mirrorHot := putMirror g.mirrorHot (leField b 16 8) (b.drop 24) }
  else g

theorem mirrored_part (g : Group) {b : Bytes} (h : leField b 12 1 ≤ 2) : mirrored g b =
    if leField b 12 1 = 0 then { g with mirrorJob := putMirror g.mirrorJob (leField b 16 8) (b.drop 24), jobPartHeld := true }
    else if leField b 12 1 = 1 then { g with mirrorMap := putMirror g.mirrorMap (leField b 16 8) (b.drop 24) }
    else { g with mirrorHot := putMirror g.mirrorHot (leField b 16 8) (b.drop 24) } := by
  unfold mirrored
  split
  · rfl
  · split
    · rfl
    · exact if_pos (by omega)

theorem ends_mirrorReceive {s : State} {src : Nat} {b : Bytes} {P : M8 → Prop} (hs : s.awake) (hP : P (
    if !recOk s.m b 9 || b.length < 24 then s.m else { s.m with grp := mirrored s.m.grp b })) :
    Ends (.mirrorReceive src b) s P := by
  refine ends_live hs (exec_mirrorReceive s src b) ?_
  unfold mirrored at hP
  dsimp only
  split at hP
  next h => rwa [if_pos h]
  next h =>
    rw [if_neg h]
    split at hP
    next h0 => rwa [if_pos h0]
    next h0 =>
      rw [if_neg h0]
      split at hP
      next h1 => rwa [if_pos h1]
      next h1 =>
        rw [if_neg h1]
        split at hP
        next h2 => rwa [if_pos h2]
        next h2 => rwa [if_neg h2]

/-- An entry set on a machine whose dictionary stands as in a. -/
theorem EntriesBut.set {a b : M8} (k n : Nat) (h : b.dict = a.dict) : EntriesBut [k] a (odSet b k n) :=
  (EntriesBut.of_dict h).trans (odSet_entriesBut b k n)

/-! ### Rebuilds and slack (R524, R530, R536) -/

theorem ends_rebuildDone {s : State} {P : M8 → Prop} (hs : s.awake) (hP : P (
    if s.m.grp.rebuilding then odSet (modGrp s.m fun g => { g with rebuilding := false }) Od.REBUILD_LEFT 0 else s.m)) :
    Ends .rebuildDone s P := ends_live hs (exec_rebuildDone s) hP

/-- The group with the slack of the step it is in. -/
def slackNoted (s : M8) : Group :=
  { s.grp with slackSeen := nowStep s, slack := ownSlack s, slacks := s.grp.slacks.put (ownAddr s) (unsigned 32 (ownSlack s)) }

/-- The group with the members whose slack stays low counted. -/
def lowCounted (s : M8) (g : Group) : Group :=
  { g with lowSteps := g.slacks.foldl (fun l p =>
      l.set 0 p.1 (if signed 32 p.2 < (odNat s Od.STRAG_SLACK_PU : Int) then l.get 0 p.1 + 1 else 0)) g.lowSteps }

/-- The machine with its margins evaluated. -/
def slackEvaluated (s : M8) : M8 :=
  odSet { s with grp := lowCounted s (slackNoted s) } Od.RECOVERY_SLACK_NS (unsigned 64 (recoverySlack s))

theorem ends_recoverySlackEval {s : State} {P : M8 → Prop} (hs : s.awake) (hP : P (
    if !jobRuns s.m || !s.m.pav.running || s.m.grp.slackSeen = nowStep s.m then s.m else slackEvaluated s.m)) :
    Ends .recoverySlackEval s P := ends_live hs (exec_recoverySlackEval s) hP

theorem slackEvaluated_value (s : M8) : odNat (slackEvaluated s) Od.RECOVERY_SLACK_NS = unsigned 64 (recoverySlack s) := by
  rw [slackEvaluated, odNat_odSet_self _ Od.RECOVERY_SLACK_NS _ _ rfl rfl]
  refine Nat.mod_eq_of_lt ?_
  unfold unsigned
  show _ < 2 ^ 64
  omega

theorem slackEvaluated_entries (s : M8) : EntriesBut [Od.RECOVERY_SLACK_NS] s (slackEvaluated s) :=
  .set Od.RECOVERY_SLACK_NS (unsigned 64 (recoverySlack s)) rfl

/-- Settles O53: what heartbeats, faults, the coordinator, intents, mirrors and the slack leave, each from what its command makes of
the machine. -/
theorem heartbeatsFaultsAndMirrors : Obligations.HeartbeatsFaultsAndMirrors := by
  unfold Obligations.HeartbeatsFaultsAndMirrors
  intro s hs same g now own W sent faultTo
  refine ⟨?heartbeat, ?miss, ?fence, ?resend, ?quiet, ?cancel, ?fault, ?intent, ?ack, ?mirror, ?still, ?rebuilt, ?slack⟩
  case heartbeat =>
    intro due
    have hdue : (s.m.grp.own.isEmpty || decide (s.m.clk.now < s.m.grp.hbSent + odNat s.m Od.HB_US * 1000)) = true ↔ ¬ due := by
      simp [due, g, now, Classical.or_iff_not_imp_left]
    refine ⟨fun hn => ends_heartbeatSend hs (if_pos (hdue.2 hn)), fun hd => ends_heartbeatSend hs ?_⟩
    rw [if_neg fun h => hdue.1 h hd, heartbeatsSent_eq]
    exact ⟨rfl, rfl, _, rfl, heartbeatBody_fields s.m⟩
  case miss =>
    intro role h miss
    have hmiss : (decide (role < groupW s.m) && jobRuns s.m && !s.m.grp.fenced && holdsRole s.m (nextRole s.m role) && decide (h ≠ ownAddr s.m) &&
        decide (h ≠ 0xFFFF) && silent s.m h && !s.m.grp.pastFaults.contains (role, 1)) = true ↔ miss := by
      simp [miss, g, W, own, h, and_assoc]
    exact ⟨fun hn => ends_live hs (exec_heartbeatMiss s role) (if_neg fun hm => hn (hmiss.1 hm)), fun hm =>
      ends_live hs (exec_heartbeatMiss s role) (by
        dsimp only
        rw [if_pos (hmiss.2 hm)]
        exact ⟨rfl, faultDeclared_sent s.m role 1, rfl⟩)⟩
  case fence =>
    intro alone
    have halone : (jobRuns s.m && !s.m.grp.own.isEmpty && !s.m.grp.fenced && !(hbTargets s.m).isEmpty && (hbTargets s.m).all (silent s.m)) = true ↔
        alone := by
      simp [alone, g, and_assoc]
    refine ⟨fun hn => ends_live hs (exec_selfFence s) (if_neg fun ha => hn (halone.1 ha)), fun ha => ends_live hs (exec_selfFence s) ?_⟩
    have hfenced : s.m.grp.fenced = false := ha.2.2.1
    obtain ⟨htiles, hdict, hrest⟩ := fenceSelf_sets hfenced
    obtain ⟨hcount, hstate, hentries⟩ := fenceMarked_entries s.m
    have hlive := congrArg Dict.live hdict
    dsimp only
    rw [if_pos (halone.2 ha)]
    refine ⟨by rw [hrest], htiles, ?_, ?_, hentries.trans (.of_dict hdict), ?_⟩
    · rw [odNat_congr hlive, hcount]
    · rw [odNat_congr hlive, hstate]
    · rw [hrest]
  case resend =>
    intro late
    refine ends_recoveryResend hs ?_
    rw [resent_eq]
    refine ⟨?_, rfl, rfl⟩
    simp only [late, decide_eq_true_eq]
    rfl
  case quiet =>
    intro hquiet
    refine ends_cancelAckTimeout hs ?_
    have hnone : silentHomes s.m = [] := by
      rw [silentHomes, List.filter_eq_nil_iff.2]
      · rfl
      · intro c hc
        simpa using hquiet c hc
    rw [hnone]
    rfl
  case cancel =>
    obtain ⟨hdeclares, hall⟩ := declareSilents (silentHomes s.m) s.m
    refine ends_cancelAckTimeout hs ⟨?_, fun c hc hlate i hi => hall i ?_⟩
    · rw [hdeclares.rest]
    · exact List.mem_eraseDups.2 (List.mem_filterMap.2 ⟨c, List.mem_filter.2 ⟨hc, by simpa using hlate⟩, hi⟩)
  case fault =>
    intro src b role takes
    refine ⟨fun hn => ends_live hs (exec_faultReceive s src b) (faultReceive_skips src hn), fun ⟨ht, hrole⟩ => ?_⟩
    intro lost h two
    refine ⟨fun hidle => ends_live hs (exec_faultReceive s src b) ?_, fun ⟨hidle, hW, hheld⟩ => ⟨fun hfew => ?_, fun ⟨htwo, hloaded, hdone, hend⟩ => ?_⟩⟩
    · exact faultReceive_asksSpare src ht hrole hidle
    all_goals
      have hforward := faultForwarded_sent s.m role b
      have hnoted := faultForwarded_noted s.m role b
      have habsorb := faultReceive_absorbs src ht hrole hidle hW hheld
    · have hask := sendRoleReq_asks (faultForwarded s.m role b) h role 1 (nowStep s.m)
      refine ends_live hs (exec_faultReceive s src b) ?_
      rw [habsorb, if_neg hfew]
      exact ⟨hnoted.mono (by rw [hask.roles]) hask.units, hforward.trans hask.sent, hask.message, hask.wanted⟩
    · have hstate : jobState (faultForwarded s.m role b) = jobState s.m := by
        rw [hforward]
        rfl
      obtain ⟨hfailed, hcode, -, -, hrest⟩ := failJob_sets (s := faultForwarded s.m role b) 0x0014 (lowestUnsealed (faultForwarded s.m role b))
        (by simpa [hstate, jobLoaded] using hloaded) (by rwa [hstate]) (by rwa [hstate])
      refine ends_live hs (exec_faultReceive s src b) ?_
      rw [habsorb, if_pos htwo]
      exact ⟨hnoted.mono (by rw [hrest]) (by rw [hrest]; exact fun _ hx => hx), hfailed, hcode⟩
  case intent =>
    intro src b part n r takes
    have htakes : ¬ (!recOk s.m b 6 || decide (b.length < 80) || decide (leField b 12 2 ≥ leField b 14 2)) = true ↔ takes := by
      simp [takes, part, ← recOk_iff, and_assoc]
    refine ⟨fun hn => ends_live hs (exec_sealIntentReceive s src b) ?_, fun ht => ends_live hs (exec_sealIntentReceive s src b) ?_⟩
    · rw [sealIntent_eq]
      exact if_pos (not_not.1 fun h => hn (htakes.1 h))
    · rw [sealIntent_eq, if_neg (htakes.2 ht)]
      have hframe : recFrame src (intentAckBody s.m b) ∈ (sendRec (intentStored s.m b) src (intentAckBody s.m b)).fab.units :=
        List.mem_append_right _ (List.mem_singleton_self _)
      obtain ⟨hstep, hrank⟩ := intentHeld_names s.m b
      exact ⟨rfl, recovering_of_frame hframe (intentAckBody_fields s.m b), intentWith s.m b, _, rfl, hstep, hrank, rfl, rfl,
        Sparse.find_put_self .., fun x hx => (List.mem_filter.1 hx).1⟩
  case ack =>
    intro src b n r part takes
    have htakes : ¬ (!recOk s.m b 7 || decide (b.length < 24)) = true ↔ takes := by
      simp [takes, ← recOk_iff]
    refine ⟨fun hn => ends_intentAckReceive hs (if_pos (not_not.1 fun h => hn (htakes.1 h))), fun ht => ends_intentAckReceive hs ?_⟩
    rw [if_neg (htakes.2 ht)]
    refine ⟨rfl, rfl, List.length_map .., fun x hx hn hr => ?_⟩
    obtain ⟨y, -, rfl⟩ := List.mem_map.1 hx
    exact intentAcked_has y hn hr
  case mirror =>
    intro src b part off takes
    have htakes : ¬ (!recOk s.m b 9 || decide (b.length < 24)) = true ↔ takes := by
      simp [takes, ← recOk_iff]
    refine ⟨fun hn => ends_mirrorReceive hs ?_, fun ⟨ht, hpart⟩ => ends_mirrorReceive hs ?_⟩
    · by_cases ht : takes
      · rw [if_neg (htakes.2 ht)]
        have hpart : ¬ leField b 12 1 ≤ 2 := fun h => hn ⟨ht, h⟩
        rw [mirrored, if_neg (by omega), if_neg (by omega), if_neg (by omega)]
      · exact if_pos (not_not.1 fun h => ht (htakes.1 h))
    · rw [if_neg (htakes.2 ht), mirrored_part s.m.grp hpart]
  case still => exact fun h => ends_rebuildDone hs (by simp only [show s.m.grp.rebuilding = false from h, Bool.false_eq_true, if_false])
  case rebuilt =>
    intro h
    refine ends_rebuildDone hs ?_
    rw [if_pos (show s.m.grp.rebuilding = true from h)]
    refine ⟨rfl, ?_, .set Od.REBUILD_LEFT 0 rfl, rfl⟩
    rw [odNat_odSet_self _ Od.REBUILD_LEFT _ _ rfl rfl]
    rfl
  case slack =>
    intro due
    have hdue : ¬ (!jobRuns s.m || !s.m.pav.running || decide (s.m.grp.slackSeen = nowStep s.m)) = true ↔ due := by
      simp [due, g, and_assoc]
    refine ⟨fun hn => ends_recoverySlackEval hs (if_pos (not_not.1 fun h => hn (hdue.1 h))), fun hd => ends_recoverySlackEval hs ?_⟩
    rw [if_neg (hdue.2 hd)]
    exact ⟨rfl, rfl, Sparse.find_put_self .., slackEvaluated_value s.m, slackEvaluated_entries s.m, rfl⟩

end Machine
end Sys2Proof

/-!
PROOFS of the statements of the sample path: what the codec engine's queue, lanes, calls and cache hits leave (R176, R298, R313 to R326).
-/
namespace Sys2Proof
namespace Machine

/-! ### The state of an engine -/

theorem CodecIs.of_set {hub : Nat} {x : CodecHub} {a b : M8} (h : b.hubs.codec = a.hubs.codec.set {} hub x) : CodecIs hub x a b where
  engine := by rw [getCodec, h, Sparse.get_set_self]
  others h' hne := by rw [getCodec, h, Sparse.get_set_other _ _ _ _ _ hne, getCodec]

theorem setCodec_is (s : M8) (hub : Nat) (x : CodecHub) : CodecIs hub x s (setCodec s hub x) := .of_set rfl

theorem cdcSubmit_core {agent : Nat} (h : isCore agent = true) (s : M8) (hub addr : Nat) : cdcSubmit s agent hub addr =
    (let x := getCodec s hub
     let a := addr % 2 ^ 48
     if a % 64 ≠ 0 then setCodec s hub { x with align := true }
     else if 64 ≤ x.jobs.length then setCodec s hub { x with full := true }
     else if a ∈ x.jobs ∨ (x.lanes.any fun l => l.2.names a) = true then setCodec s hub { x with dup := true }
     else setCodec s hub { x with jobs := x.jobs ++ [a] }) := by
  simp only [cdcSubmit, h, Bool.not_true, Bool.false_eq_true, if_false]
  exact if_congr Iff.rfl rfl (if_congr Iff.rfl rfl (if_congr (by simp) rfl rfl))

theorem ends_cdcSubmit {s : State} {agent hub addr : Nat} {P : M8 → Prop} (hs : s.awake) (hhub : hub < 4)
    (hP : P (cdcSubmit s.m agent hub addr)) : Ends (.cdcSubmit agent hub addr) s P :=
  ends_live hs (exec_cdcSubmit s agent hub addr) ((if_pos hhub).symm ▸ hP)

/-! ### A lane takes its work (R298, R319) -/

/-- What a free lane's compression call makes of its work. -/
def compressTakes (s : M8) (hub lane : Nat) : Option LaneWork → M8
  | some (.fw d) =>
    let b := readMemOnes s d 64
    if leField b 0 1 = 2 then s
    else
      let r := if inMem d 64 then fwCompress s d b else (fwEnd b d 0x15 {} 0 0, s)
      modCodec r.2 hub fun x => { x with jobs := x.jobs.drop 1, lanes := x.lanes.put lane r.1 }
  | some (.fill f) => startFill s hub lane f
  | _ => s

/-- What a free lane's decompression call makes of its work. -/
def decompressTakes (s : M8) (hub lane : Nat) : Option LaneWork → M8
  | some (.hit h) => startHit s hub lane h
  | some (.fw d) =>
    let b := readMemOnes s d 64
    if leField b 0 1 ≠ 2 then s
    else
      let r := if inMem d 64 then fwDecompress s d b else (fwEnd b d 0x15 {} 0 0, s)
      modCodec r.2 hub fun x => { x with jobs := x.jobs.drop 1, lanes := x.lanes.put lane r.1 }
  | _ => s

theorem execCodecCompress_eq (hub lane : Nat) (s : State) : execCodecCompress hub lane s =
    live s fun m => if hub < 4 ∧ lane < 16 ∧ (getCodec m hub).lanes.has lane = false then compressTakes m hub lane (nextWork m hub lane) else m := by
  unfold execCodecCompress
  congr 1
  funext m
  refine if_congr (by simp [and_assoc]) ?_ rfl
  cases nextWork m hub lane with
  | none => rfl
  | some w => cases w <;> rfl

theorem execCodecDecompress_eq (hub lane : Nat) (s : State) : execCodecDecompress hub lane s =
    live s fun m => if hub < 4 ∧ lane < 16 ∧ (getCodec m hub).lanes.has lane = false ∧ decompressing (getCodec m hub) < 15 then
      decompressTakes m hub lane (nextWork m hub lane) else m := by
  unfold execCodecDecompress
  congr 1
  funext m
  refine if_congr (by simp [and_assoc]) ?_ rfl
  cases nextWork m hub lane with
  | none => rfl
  | some w => cases w <;> rfl

theorem ends_codecCompress_idle {s : State} {hub lane : Nat} (hs : s.awake)
    (hidle : (getCodec s.m hub).lanes.has lane = true ∨ nextWork s.m hub lane = none) : Ends (.codecCompress hub lane) s fun m => m = s.m := by
  refine ends_live hs (execCodecCompress_eq hub lane s) ?_
  rcases hidle with h | h
  · rw [h, if_neg (by simp)]
  · rw [h]
    exact ite_self _

theorem ends_codecDecompress_idle {s : State} {hub lane : Nat} (hs : s.awake)
    (hidle : (getCodec s.m hub).lanes.has lane = true ∨ nextWork s.m hub lane = none ∨ 15 ≤ decompressing (getCodec s.m hub)) :
    Ends (.codecDecompress hub lane) s fun m => m = s.m := by
  refine ends_live hs (execCodecDecompress_eq hub lane s) ?_
  rcases hidle with h | h | h
  · rw [h, if_neg (by simp)]
  · rw [h]
    exact ite_self _
  · rw [if_neg fun hg => absurd hg.2.2.2 h.not_gt]

theorem ends_codecCompress {s : State} {hub lane : Nat} {w : Option LaneWork} {P : M8 → Prop} (hs : s.awake) (hhub : hub < 4) (hlane : lane < 16)
    (hfree : (getCodec s.m hub).lanes.has lane = false) (hwork : nextWork s.m hub lane = w) (hP : P (compressTakes s.m hub lane w)) :
    Ends (.codecCompress hub lane) s P :=
  ends_live hs (execCodecCompress_eq hub lane s) (by rwa [if_pos ⟨hhub, hlane, hfree⟩, hwork])

theorem ends_codecDecompress {s : State} {hub lane : Nat} {w : Option LaneWork} {P : M8 → Prop} (hs : s.awake) (hhub : hub < 4) (hlane : lane < 16)
    (hfree : (getCodec s.m hub).lanes.has lane = false) (hroom : decompressing (getCodec s.m hub) < 15) (hwork : nextWork s.m hub lane = w)
    (hP : P (decompressTakes s.m hub lane w)) : Ends (.codecDecompress hub lane) s P :=
  ends_live hs (execCodecDecompress_eq hub lane s) (by rwa [if_pos ⟨hhub, hlane, hfree, hroom⟩, hwork])

/-! ### Calls of firmware (R313 to R317) -/

theorem foldl_writeMem_rest (out : Nat) (ws : List (Nat × Bytes)) (s : M8) :
    ws.foldl (fun s w => writeMem s (out + w.1) w.2) s = { s with mem := (ws.foldl (fun s w => writeMem s (out + w.1) w.2) s).mem } := by
  induction ws generalizing s with
  | nil => rfl
  | cons w ws ih =>
    rw [List.foldl_cons, ih]
    rfl

theorem fwCompress_rest (s : M8) (d : Nat) (b : Bytes) : (fwCompress s d b).2 = { s with mem := (fwCompress s d b).2.mem } := by
  unfold fwCompress
  split
  · rfl
  · dsimp only
    split <;> rfl

theorem fwDecompress_rest (s : M8) (d : Nat) (b : Bytes) : (fwDecompress s d b).2 = { s with mem := (fwDecompress s d b).2.mem } := by
  unfold fwDecompress
  split
  · rfl
  · dsimp only
    split
    · exact foldl_writeMem_rest ..
    · rfl

/-- A call that breaks the rules ends without output (R317). -/
theorem fwCompress_bad {b : Bytes} (h : cdcDescOk b = false) (s : M8) (d : Nat) : fwCompress s d b = (fwEnd b d 0x10 (cdcStateOf b) 0 0, s) := by
  simp [fwCompress, h]

/-- The lane holds job j, taken from the head of the queue, and memory is mem. -/
structure LaneTakes (hub lane : Nat) (j : LaneJob) (mem : List Host.Cell) (a b : M8) : Prop where
  engine : CodecIs hub { getCodec a hub with jobs := (getCodec a hub).jobs.drop 1, lanes := (getCodec a hub).lanes.put lane j } a b
  mem : b.mem = mem
  rest : b = { a with hubs := b.hubs, mem := b.mem }

theorem laneTakes_of_rest {a c : M8} (hub lane : Nat) (j : LaneJob) (h : c = { a with mem := c.mem }) :
    LaneTakes hub lane j c.mem a (modCodec c hub fun x => { x with jobs := x.jobs.drop 1, lanes := x.lanes.put lane j }) := by
  rw [h]
  exact ⟨.of_set rfl, rfl, rfl⟩

theorem compressTakes_fw {s : M8} (hub lane : Nat) {d : Nat} (hop : leField (readMemOnes s d 64) 0 1 ≠ 2) {r : LaneJob × M8}
    (hr : (if inMem d 64 then fwCompress s d (readMemOnes s d 64) else (fwEnd (readMemOnes s d 64) d 0x15 {} 0 0, s)) = r) :
    LaneTakes hub lane r.1 r.2.mem s (compressTakes s hub lane (some (.fw d))) := by
  have hrest : r.2 = { s with mem := r.2.mem } := by
    rw [← hr]
    split
    · exact fwCompress_rest ..
    · rfl
  rw [compressTakes, if_neg hop, hr]
  exact laneTakes_of_rest hub lane r.1 hrest

theorem decompressTakes_fw {s : M8} (hub lane : Nat) {d : Nat} (hop : leField (readMemOnes s d 64) 0 1 = 2) {r : LaneJob × M8}
    (hr : (if inMem d 64 then fwDecompress s d (readMemOnes s d 64) else (fwEnd (readMemOnes s d 64) d 0x15 {} 0 0, s)) = r) :
    LaneTakes hub lane r.1 r.2.mem s (decompressTakes s hub lane (some (.fw d))) := by
  have hrest : r.2 = { s with mem := r.2.mem } := by
    rw [← hr]
    split
    · exact fwDecompress_rest ..
    · rfl
  rw [decompressTakes, if_neg (not_not.2 hop), hr]
  exact laneTakes_of_rest hub lane r.1 hrest

/-! ### Fills and hits on a lane (R319, R323, R325) -/

/-- Opening a chunk leaves every engine (R323). -/
theorem laneChunk_rest (s : M8) (lane b : Nat) :
    (laneChunk s lane b).2 = { s with hubs := { s.hubs with cache := (laneChunk s lane b).2.hubs.cache } } := by
  unfold laneChunk
  dsimp only
  split
  · rfl
  · split <;> rfl

theorem startFill_takes (s : M8) (hub lane : Nat) (f : FillJob) : ∃ status out off,
    CodecIs hub { getCodec s hub with
      fills := (getCodec s hub).fills.drop 1, lanes := (getCodec s hub).lanes.put lane (.fill f status out off) } s (startFill s hub lane f) ∧
    startFill s hub lane f = { s with hubs := (startFill s hub lane f).hubs } := by
  have hrest := laneChunk_rest s (hub * 16 + lane) (fillReserve (fillStream s f.stream f.img))
  unfold startFill
  dsimp only
  rw [hrest]
  exact ⟨_, _, _, .of_set rfl, rfl⟩

theorem startHit_takes (s : M8) (hub lane : Nat) (h : HitJob) : ∃ status out,
    CodecIs hub { getCodec s hub with
      hits := (getCodec s hub).hits.filter fun g => !(g.tile == h.tile && g.req == h.req),
      lanes := (getCodec s hub).lanes.put lane (.hit h status out s.clk.hclk) } s (startHit s hub lane h) ∧
    startHit s hub lane h = { s with hubs := (startHit s hub lane h).hubs } :=
  ⟨_, _, .of_set rfl, rfl⟩

/-! ### A lane becomes free (R317, R318, R323, R325) -/

/-- The machine with lane free. -/
def laneFreed (s : M8) (hub lane : Nat) : M8 := modCodec s hub fun x => { x with lanes := x.lanes.drop lane }

/-- A name taken from a holding changes pools alone (R328). -/
theorem dropName_pools (s : M8) (hub pool id owner : Nat) :
    dropName s hub pool id owner = { s with hubs := { s.hubs with pools := (dropName s hub pool id owner).hubs.pools } } := by
  unfold dropName
  dsimp only
  split
  · rfl
  · split <;> rfl

/-- The machine with lane free and the cells of the codec-fill owner given back. -/
def laneReturned (s : M8) (hub lane hold : Nat) : M8 := giveHold (laneFreed s hub lane) hub 0 hold 1

theorem laneReturned_rest (s : M8) (hub lane hold : Nat) :
    laneReturned s hub lane hold = { laneFreed s hub lane with
      hubs := { (laneFreed s hub lane).hubs with pools := (laneReturned s hub lane hold).hubs.pools } } := dropName_pools ..

theorem laneReturned_engine (s : M8) (hub lane hold : Nat) :
    CodecIs hub { getCodec s hub with lanes := (getCodec s hub).lanes.drop lane } s (laneReturned s hub lane hold) :=
  .of_set (by rw [laneReturned_rest]; rfl)

theorem laneReturned_hubs (s : M8) (hub lane hold : Nat) :
    laneReturned s hub lane hold = { s with hubs := (laneReturned s hub lane hold).hubs } := by
  rw [laneReturned_rest]
  rfl

theorem CodecIs.congr {hub : Nat} {x : CodecHub} {a b c : M8} (h : CodecIs hub x a b) (hc : c.hubs.codec = b.hubs.codec) : CodecIs hub x a c where
  engine := by rw [getCodec, hc, ← getCodec, h.engine]
  others k hk := by rw [getCodec, hc, ← getCodec, h.others k hk]

/-- What the end of a call of firmware leaves. -/
def fwEnded (s : M8) (hub lane d status plane row flags consumed produced : Nat) (irq : Bool) : M8 :=
  let m := modCodec s hub fun x => { x with lanes := x.lanes.drop lane, doneBit := x.doneBit || irq }
  let m := writeMem m (d + 6) (natLe 1 status ++ natLe 1 plane)
  let m := writeMem m (d + 36) (natLe 4 consumed)
  writeMem m (d + 52) (natLe 4 produced ++ natLe 2 row ++ natLe 1 flags)

theorem ends_codecJobEnd_fw {s : State} {hub lane d status plane row flags consumed produced : Nat} {irq dec : Bool} {P : M8 → Prop} (hs : s.awake)
    (hlane : (getCodec s.m hub).lanes.find lane = some (.fw d status plane row flags consumed produced irq dec))
    (hP : P (if irq then pulse (fwEnded s.m hub lane d status plane row flags consumed produced irq) (0x140 + hub)
      else fwEnded s.m hub lane d status plane row flags consumed produced irq)) : Ends (.codecJobEnd hub lane) s P := by
  refine ends_live hs (exec_codecJobEnd s hub lane) ?_
  simp only [hlane]
  exact hP

theorem ends_codecJobEnd_fill {s : State} {hub lane status off : Nat} {f : FillJob} {out : Bytes} {P : M8 → Prop} (hs : s.awake)
    (hlane : (getCodec s.m hub).lanes.find lane = some (.fill f status out off))
    (hP : P (endFill (laneFreed s.m hub lane) hub lane f status out off)) : Ends (.codecJobEnd hub lane) s P := by
  refine ends_live hs (exec_codecJobEnd s hub lane) ?_
  simp only [hlane]
  exact hP

/-- Where a fill that is done stands: its data, then its entry, then its slot's state (R323, R324). -/
def fillStored (s : M8) (slot off ulen : Nat) (out tensor : Bytes) : M8 :=
  setSlotState (writeMem (writeMem s (cacheAddr s off) out) (dirSlot s slot + 24)
    (natLe 8 off ++ natLe 4 out.length ++ natLe 4 ulen ++ natLe 8 (crc64xz tensor))) slot 2

theorem cacheAddr_congr {a b : M8} (h : b.dict = a.dict) (off : Nat) : cacheAddr b off = cacheAddr a off := by
  rw [cacheAddr, cacheAddr, partBase_congr h]

theorem dirSlot_congr {a b : M8} (h : b.dict = a.dict) (i : Nat) : dirSlot b i = dirSlot a i := by
  have hlive (k : Nat) : odNat b k = odNat a k := odNat_congr (by rw [h]) k
  rw [dirSlot, dirSlot, cacheAddr_congr h, dirOff, dirOff, hlive]
  simp only [odInForce, h, hlive]

theorem setSlotState_mem_congr {a b : M8} (hmem : b.mem = a.mem) (hdict : b.dict = a.dict) (i st : Nat) :
    (setSlotState b i st).mem = (setSlotState a i st).mem := by
  rw [setSlotState, setSlotState, dirSlot_congr hdict, writeMem, writeMem, hmem]

theorem fillStored_mem_congr {a b : M8} (hmem : b.mem = a.mem) (hdict : b.dict = a.dict) (slot off ulen : Nat) (out tensor : Bytes) :
    (fillStored b slot off ulen out tensor).mem = (fillStored a slot off ulen out tensor).mem := by
  rw [fillStored, fillStored, dirSlot_congr hdict, cacheAddr_congr hdict]
  refine setSlotState_mem_congr ?_ ?_ ..
  · rw [writeMem, writeMem, writeMem, writeMem, hmem]
  · exact hdict

/-- The machine with the chunk of a lane advanced over a fill's data (R323). -/
def chunkAdvanced (s : M8) (lane len : Nat) : M8 :=
  let adv := ceilDiv len 64 * 64
  let c := s.hubs.cache
  { s with hubs := { s.hubs with cache := { c with
      bytes := c.bytes + adv, chunks := c.chunks.modify (0, 0x4000000) lane fun k => (k.1, k.2 + adv) } } }

/-- A fill counts, with its bytes in and out and the bytes of the cache (R178, R323). -/
def fillCounted (s : M8) (ulen clen : Nat) : M8 :=
  setCacheBytes (odAdd (odAdd (odInc s Od.CACHE_FILLS) Od.CODEC_IN_BYTES ulen) Od.CODEC_OUT_BYTES clen)

theorem fillCounted_fills (s : M8) (ulen clen : Nat) : odNat (fillCounted s ulen clen) Od.CACHE_FILLS = (odNat s Od.CACHE_FILLS + 1) % 2 ^ 64 := by
  rw [fillCounted, setCacheBytes, odNat_odSet_other _ _ _ _ (by decide), odAdd, odNat_odSet_other _ _ _ _ (by decide), odAdd,
    odNat_odSet_other _ _ _ _ (by decide)]
  exact (odInc_countsUp s (k := Od.CACHE_FILLS) (w := 64) rfl rfl rfl).counted

theorem readSpans_congr {a b : M8} (h : b.mem = a.mem) (ps : List (Nat × Nat)) (n : Nat) : readSpans b ps n = readSpans a ps n := by
  induction ps generalizing n with
  | nil => rfl
  | cons p ps ih => rw [readSpans, readMemOnes_congr h, ih, readSpans]

theorem heldBytes_laneFreed (s : M8) (hub lane h id n : Nat) : heldBytes (laneFreed s hub lane) h id n = heldBytes s h id n := by
  unfold heldBytes
  rw [show findHold (laneFreed s hub lane) h 0 id = findHold s h 0 id from rfl]
  split
  next c _ =>
    rw [show holdSpans (laneFreed s hub lane) h 0 c = holdSpans s h 0 c from rfl]
    exact readSpans_congr (a := s) (b := laneFreed s hub lane) rfl ..
  · rfl

theorem fillStream_laneFreed (s : M8) (hub lane stream : Nat) (img : Bytes) :
    fillStream (laneFreed s hub lane) stream img = fillStream s stream img := rfl

/-- Only memory, hubs and entries differ. -/
def FillOnly (a b : M8) : Prop := b = { a with hubs := b.hubs, mem := b.mem, dict := b.dict }

theorem FillOnly.trans {a b c : M8} (h : FillOnly a b) (h' : FillOnly b c) : FillOnly a c := by
  unfold FillOnly at *
  rw [h', h]

theorem laneReturned_only (s : M8) (hub lane hold : Nat) : FillOnly s (laneReturned s hub lane hold) := by
  rw [laneReturned_hubs]
  rfl

theorem fillCounted_only (s : M8) (ulen clen : Nat) : FillOnly s (fillCounted s ulen clen) :=
  .trans (b := odInc s Od.CACHE_FILLS) rfl (.trans (b := odAdd (odInc s Od.CACHE_FILLS) Od.CODEC_IN_BYTES ulen) rfl rfl)

theorem fillStored_only (s : M8) (slot off ulen : Nat) (out tensor : Bytes) : FillOnly s (fillStored s slot off ulen out tensor) := rfl

theorem chunkAdvanced_only (s : M8) (lane len : Nat) : FillOnly s (chunkAdvanced s lane len) := rfl

theorem fillAbandoned_only (s : M8) (slot : Nat) : FillOnly s (odInc (setSlotState s slot 3) Od.CACHE_FILL_ABANDONED) := rfl

theorem endFill_eq (s : M8) (hub lane : Nat) (f : FillJob) (status : Nat) (out : Bytes) (off : Nat) :
    endFill (laneFreed s hub lane) hub lane f status out off =
      if status = 0 then
        fillCounted (chunkAdvanced (fillStored (laneReturned s hub lane f.hold) f.slot off (fillStream s f.stream f.img).ulen out
          (heldBytes s hub f.hold (fillStream s f.stream f.img).ulen)) (hub * 16 + lane) out.length) (fillStream s f.stream f.img).ulen out.length
      else odInc (setSlotState (laneReturned s hub lane f.hold) f.slot 3) Od.CACHE_FILL_ABANDONED := by
  simp only [endFill, heldBytes_laneFreed, fillStream_laneFreed]
  rfl

/-- A fill that is done (R323, R324). -/
theorem endFill_done (s : M8) (hub lane : Nat) (f : FillJob) (out : Bytes) (off : Nat) :
    let m := endFill (laneFreed s hub lane) hub lane f 0 out off
    FillOnly s m ∧ m.hubs.codec = (laneReturned s hub lane f.hold).hubs.codec ∧ odNat m Od.CACHE_FILLS = (odNat s Od.CACHE_FILLS + 1) % 2 ^ 64 ∧
      m.mem = (fillStored s f.slot off (fillStream s f.stream f.img).ulen out (heldBytes s hub f.hold (fillStream s f.stream f.img).ulen)).mem := by
  have hrest := laneReturned_hubs s hub lane f.hold
  have hmem : (laneReturned s hub lane f.hold).mem = s.mem := by rw [hrest]
  have hdict : (laneReturned s hub lane f.hold).dict = s.dict := by rw [hrest]
  intro m
  unfold m
  rw [endFill_eq, if_pos rfl]
  refine ⟨.trans (laneReturned_only s hub lane f.hold) (.trans (fillStored_only ..) (.trans (chunkAdvanced_only ..) (fillCounted_only ..))),
    by simp [fillCounted, setCacheBytes, chunkAdvanced, fillStored, setSlotState], ?_, fillStored_mem_congr hmem hdict ..⟩
  rw [fillCounted_fills, odNat_congr (a := s)]
  exact congrArg (·.live) hdict

/-- A fill that is abandoned (R323). -/
theorem endFill_abandoned (s : M8) (hub lane : Nat) (f : FillJob) {status : Nat} (h : status ≠ 0) (out : Bytes) (off : Nat) :
    let m := endFill (laneFreed s hub lane) hub lane f status out off
    FillOnly s m ∧ m.hubs.codec = (laneReturned s hub lane f.hold).hubs.codec ∧
      odNat m Od.CACHE_FILL_ABANDONED = (odNat s Od.CACHE_FILL_ABANDONED + 1) % 2 ^ 64 ∧ m.mem = (setSlotState s f.slot 3).mem := by
  have hrest := laneReturned_hubs s hub lane f.hold
  have hmem : (laneReturned s hub lane f.hold).mem = s.mem := by rw [hrest]
  have hdict : (laneReturned s hub lane f.hold).dict = s.dict := by rw [hrest]
  intro m
  unfold m
  rw [endFill_eq, if_neg h]
  refine ⟨.trans (laneReturned_only s hub lane f.hold) (fillAbandoned_only ..), rfl, ?_, setSlotState_mem_congr hmem hdict ..⟩
  rw [(odInc_countsUp _ (k := Od.CACHE_FILL_ABANDONED) (w := 64) rfl rfl rfl).counted, odNat_congr (a := s)]
  exact congrArg (·.live) hdict

/-! ### Hits (R325, R326) -/

/-- The staged bytes of hit h stand in the cells of c and h is released (R325). -/
def hitStaged (s : M8) (tile req : Nat) (h : HitJob) (c : Holding) : M8 :=
  let m := writeSpans s (holdSpans s (tile / 16) 0 c) (readMemOnes s (cacheAddr s h.off) h.clen)
  modCodec m (tile / 16) fun x => { x with
    hits := x.hits.map fun g => if g.tile == tile && g.req == req then { g with released := some m.clk.hclk } else g }

theorem ends_hitStageRelease {s : State} {tile req : Nat} {h : HitJob} {c : Holding} {P : M8 → Prop} (hs : s.awake)
    (hfind : ((getCodec s.m (tile / 16)).hits.find? fun h => h.tile == tile && h.req == req && h.released.isNone) = some h)
    (hhold : findHold s.m (tile / 16) 0 h.hold = some c) (hdue : h.accepted + tStage h.clen ≤ s.m.clk.hclk)
    (hP : P (hitStaged s.m tile req h c)) : Ends (.hitStageRelease tile req) s P := by
  refine ends_live hs (exec_hitStageRelease s tile req) ?_
  simp only [hfind, hhold, ge_iff_le, hdue, if_true]
  exact hP

theorem ends_hitStageRelease_waits {s : State} {tile req : Nat} {h : HitJob} (hs : s.awake)
    (hfind : ((getCodec s.m (tile / 16)).hits.find? fun h => h.tile == tile && h.req == req && h.released.isNone) = some h)
    (hwaits : findHold s.m (tile / 16) 0 h.hold = none ∨ s.m.clk.hclk < h.accepted + tStage h.clen) :
    Ends (.hitStageRelease tile req) s fun m => m = s.m := by
  refine ends_live hs (exec_hitStageRelease s tile req) ?_
  simp only [hfind]
  rcases hwaits with hnone | hearly
  · rw [hnone]
  · split
    · exact if_neg (Nat.not_le.2 hearly)
    · rfl

theorem hitStaged_stands (s : M8) (tile req : Nat) (h : HitJob) (c : Holding) :
    (hitStaged s tile req h c).mem = (writeSpans s (holdSpans s (tile / 16) 0 c) (readMemOnes s (cacheAddr s h.off) h.clen)).mem ∧
      CodecIs (tile / 16) { getCodec s (tile / 16) with hits := (getCodec s (tile / 16)).hits.map fun g =>
        if g.tile == tile && g.req == req then { g with released := some s.clk.hclk } else g } s (hitStaged s tile req h c) ∧
      hitStaged s tile req h c = { s with hubs := (hitStaged s tile req h c).hubs, mem := (hitStaged s tile req h c).mem } := by
  unfold hitStaged
  rw [writeSpans_rest]
  exact ⟨rfl, .of_set rfl, rfl⟩

/-- A decoded tensor stands at the DEST of its fetch. -/
def hitDelivered (s : M8) (h : HitJob) (r : Request) (out : Bytes) : M8 :=
  completeFetch (odInc (fetchDestWritten s h.tile r out) Od.CACHE_HITS) h.tile r 1 h.ulen

/-- A hit that mismatches is dropped and its fetch goes to flash (R326). -/
def hitDropped (s : M8) (h : HitJob) (r : Request) : M8 :=
  setReq (odInc (odInc (setSlotState s h.slot 3) Od.CODEC_ERRORS) Od.CACHE_MISSES) h.tile { r with phase := .again }

theorem ends_hitDecodeDone_early {s : State} {hub lane status start : Nat} {h : HitJob} {out : Bytes} (hs : s.awake)
    (hlane : (getCodec s.m hub).lanes.find lane = some (.hit h status out start)) (hearly : s.m.clk.hclk < start + tDec h.ulen) :
    Ends (.hitDecodeDone hub lane) s fun m => m = s.m := by
  refine ends_live hs (exec_hitDecodeDone s hub lane) ?_
  simp only [hlane]
  exact if_pos hearly

theorem ends_hitDecodeDone {s : State} {hub lane status start : Nat} {h : HitJob} {out : Bytes} {r : Request} {P : M8 → Prop} (hs : s.awake)
    (hlane : (getCodec s.m hub).lanes.find lane = some (.hit h status out start)) (hdue : start + tDec h.ulen ≤ s.m.clk.hclk)
    (hreq : findReq s.m h.tile h.req = some r) (hbus : status ≠ 0x15)
    (hP : P (if status = 0 ∧ crc64xz out = h.check then hitDelivered (laneReturned s.m hub lane h.hold) h r out
      else hitDropped (laneReturned s.m hub lane h.hold) h r)) : Ends (.hitDecodeDone hub lane) s P := by
  have hreq' : findReq (laneReturned s.m hub lane h.hold) h.tile h.req = some r := by
    rw [findReq_congr (a := s.m) (by rw [laneReturned_rest]; rfl), hreq]
  refine ends_live hs (exec_hitDecodeDone s hub lane) ?_
  simp only [hlane]
  rw [if_neg (Nat.not_lt.2 hdue)]
  unfold laneReturned laneFreed at hreq' hP
  simp only [hreq', hbus, if_false]
  split at hP
  next hgood =>
    rw [if_pos (by simpa using hgood)]
    exact hP
  next hgood =>
    rw [if_neg (by simpa using hgood)]
    exact hP

theorem writeMem_mem_congr {a b : M8} (h : b.mem = a.mem) (p : Nat) (bs : Bytes) : (writeMem b p bs).mem = (writeMem a p bs).mem := by
  rw [writeMem, writeMem, h]

theorem fetchDestWritten_mem_congr {a b : M8} (h : b.mem = a.mem) (t : Nat) (r : Request) (out : Bytes) :
    (fetchDestWritten b t r out).mem = (fetchDestWritten a t r out).mem := by
  unfold fetchDestWritten
  split
  · exact writeMem_mem_congr h ..
  · exact h

theorem fetchDestWritten_rest (s : M8) (t : Nat) (r : Request) (out : Bytes) :
    fetchDestWritten s t r out = { s with mem := (fetchDestWritten s t r out).mem } := by
  unfold fetchDestWritten
  split <;> rfl

/-- A hit whose stream decodes and matches CHECK (R325): its tensor stands at DEST, the fetch is gone, the hit counts. -/
theorem hitDelivered_ends (s : M8) (h : HitJob) (r : Request) (out : Bytes) :
    (hitDelivered s h r out).mem = (writeMem (fetchDestWritten s h.tile r out) (r.addr + 20) (natLe 4 1 ++ natLe 4 h.ulen)).mem ∧
      findReq (hitDelivered s h r out) h.tile r.id = none ∧ odNat (hitDelivered s h r out) Od.CACHE_HITS = (odNat s Od.CACHE_HITS + 1) % 2 ^ 64 ∧
      (hitDelivered s h r out).hubs = s.hubs := by
  have hdest := fetchDestWritten_rest s h.tile r out
  have hplace := completeFetch_place (odInc (fetchDestWritten s h.tile r out) Od.CACHE_HITS) h.tile r 1 h.ulen
  refine ⟨?_, findReq_completeFetch .., ?_, ?_⟩
  · rw [hitDelivered, hplace]
    rfl
  · rw [hitDelivered, odNat_congr (a := odInc (fetchDestWritten s h.tile r out) Od.CACHE_HITS) (by rw [hplace]; rfl),
      (odInc_countsUp _ (k := Od.CACHE_HITS) (w := 64) rfl rfl rfl).counted, odNat_congr (a := s) (by rw [hdest])]
  · rw [hitDelivered, hplace]
    exact congrArg (·.hubs) hdest

/-- Only memory, hubs, tiles and entries differ. -/
def HitOnly (a b : M8) : Prop := b = { a with mem := b.mem, hubs := b.hubs, tiles := b.tiles, dict := b.dict }

theorem HitOnly.trans {a b c : M8} (h : HitOnly a b) (h' : HitOnly b c) : HitOnly a c := by
  unfold HitOnly at *
  rw [h', h]

theorem hitDropped_only (s : M8) (h : HitJob) (r : Request) : HitOnly s (hitDropped s h r) :=
  have hdead : HitOnly s (setSlotState s h.slot 3) := rfl
  have hcounted (m : M8) (k : Nat) : HitOnly m (odInc m k) := rfl
  have hagain (m : M8) : HitOnly m (setReq m h.tile { r with phase := .again }) := rfl
  hdead.trans ((hcounted ..).trans ((hcounted ..).trans (hagain _)))

theorem laneReturned_hitOnly (s : M8) (hub lane hold : Nat) : HitOnly s (laneReturned s hub lane hold) := by
  rw [laneReturned_hubs]
  rfl

/-- A hit that mismatches (R326): its entry is dead, its fetch is at the flash again, the miss counts. -/
theorem hitDropped_ends {s : M8} {h : HitJob} {r : Request} (hreq : findReq s h.tile h.req = some r) :
    (hitDropped s h r).mem = (setSlotState s h.slot 3).mem ∧ findReq (hitDropped s h r) h.tile h.req = some { r with phase := .again } ∧
      odNat (hitDropped s h r) Od.CACHE_MISSES = (odNat s Od.CACHE_MISSES + 1) % 2 ^ 64 := by
  have hid : r.id = h.req := findReq_id hreq
  refine ⟨rfl, ?_, ?_⟩
  · rw [← hid] at hreq ⊢
    exact findReq_setReq (r := r) (x := { r with phase := .again }) hreq
  · rw [odNat_congr (a := odInc (odInc (setSlotState s h.slot 3) Od.CODEC_ERRORS) Od.CACHE_MISSES) (b := hitDropped s h r) rfl,
      (odInc_countsUp _ (k := Od.CACHE_MISSES) (w := 64) rfl rfl rfl).counted, odNat_odInc_other _ _ _ (by decide : Od.CACHE_MISSES ≠ Od.CODEC_ERRORS),
      odNat_congr (a := s) (b := setSlotState s h.slot 3) rfl]

theorem hitDropped_hubs (s : M8) (h : HitJob) (r : Request) : (hitDropped s h r).hubs = s.hubs := rfl

/-- Settles O42: one rule for a submission, one for what a free lane takes, one for each end of a lane's work and of a staging. -/
theorem codecEnginesRunFillsHitsAndJobs : Obligations.CodecEnginesRunFillsHitsAndJobs := by
  unfold Obligations.CodecEnginesRunFillsHitsAndJobs
  intro s hub lane hs hhub x hubsOnly same
  refine ⟨?submit, ?idle, fun hfull => ends_codecDecompress_idle hs (.inr (.inr hfull)),
    fun ⟨hlane, hfree⟩ => ⟨fun d hwork => ?call,
      fun f hwork => ends_codecCompress hs hhub hlane hfree hwork (startFill_takes ..),
      fun h ⟨hwork, hroom⟩ => ends_codecDecompress hs hhub hlane hfree hroom hwork (startHit_takes ..)⟩,
    ?jobEnd, ?fillEnd, ?staged, ?decoded⟩
  case submit =>
    intro agent addr a sets
    refine ⟨fun hagent => ends_cdcSubmit hs hhub ?_, fun hagent => ?_⟩
    · rw [cdcSubmit, hagent]
      exact addressError_errs ..
    · have hsets (x' : CodecHub) (hsub : cdcSubmit s.m agent hub addr = setCodec s.m hub x') : sets x' := by
        refine ends_cdcSubmit hs hhub ?_
        rw [hsub]
        exact ⟨setCodec_is .., rfl⟩
      have hsub := cdcSubmit_core hagent s.m hub addr
      refine ⟨fun halign => hsets _ ?_, fun ⟨halign, hfull⟩ => hsets _ ?_, fun ⟨halign, hroom, htaken⟩ => hsets _ ?_,
        fun ⟨halign, hroom, htaken⟩ => hsets _ ?_⟩
      · exact hsub.trans (if_pos halign)
      · exact hsub.trans ((if_neg (not_not.2 halign)).trans (if_pos hfull))
      · exact hsub.trans ((if_neg (not_not.2 halign)).trans ((if_neg (Nat.not_le.2 hroom)).trans (if_pos htaken)))
      · exact hsub.trans ((if_neg (not_not.2 halign)).trans ((if_neg (Nat.not_le.2 hroom)).trans (if_neg htaken)))
  case call =>
    intro b takes irq st
    have htakes {j : LaneJob} {mem : List Host.Cell} {m : M8} (h : LaneTakes hub lane j mem s.m m) : takes j mem m := ⟨h.engine, h.mem, h.rest⟩
    refine ⟨fun hop => ⟨fun hin => ?_, fun ⟨hin, hbad⟩ => ?_, fun ⟨hin, hok⟩ => ?_⟩, fun ⟨hop, hroom⟩ => ?_⟩
    · have hjob : fwEnd b d 0x15 {} 0 0 = .fw d 0x15 0 0 0 0 0 irq false := by simp [fwEnd, b2n, irq, hop]
      refine ends_codecCompress hs hhub hlane hfree hwork (htakes ?_)
      rw [← hjob]
      exact compressTakes_fw hub lane hop (if_neg (by simp [hin]))
    · have hjob : fwEnd b d 0x10 st 0 0 = .fw d 0x10 st.plane st.row (b2n st.header + 2 * b2n st.last) 0 0 irq false := by simp [fwEnd, irq, hop]
      refine ends_codecCompress hs hhub hlane hfree hwork (htakes ?_)
      rw [← hjob]
      exact compressTakes_fw hub lane hop ((if_pos hin).trans (fwCompress_bad hbad ..))
    · exact ends_codecCompress hs hhub hlane hfree hwork (htakes (compressTakes_fw hub lane hop (if_pos hin)))
    · refine ends_codecDecompress hs hhub hlane hfree hroom hwork ?_
      split
      next hin =>
        have hjob : fwEnd b d 0x15 {} 0 0 = .fw d 0x15 0 0 0 0 0 irq true := by simp [fwEnd, b2n, irq, hop]
        rw [← hjob]
        exact htakes (decompressTakes_fw hub lane hop (if_neg (by simp [hin])))
      next hin => exact htakes (decompressTakes_fw hub lane hop (if_pos (by simpa using hin)))
  case idle =>
    rintro (hbusy | hnone)
    · exact ⟨ends_codecCompress_idle hs (.inl hbusy), ends_codecDecompress_idle hs (.inl hbusy)⟩
    · exact ⟨ends_codecCompress_idle hs (.inr hnone), ends_codecDecompress_idle hs (.inr (.inl hnone))⟩
  case jobEnd =>
    intro d status plane row flags consumed produced irq dec hfind
    refine ends_codecJobEnd_fw hs hfind ?_
    have hsrc : 0x140 + hub ≤ 0x18C := by omega
    cases irq with
    | false => exact ⟨rfl, .of_set rfl, nofun, fun _ => rfl, rfl⟩
    | true =>
      have hint := sourceEdge_int (fwEnded s.m hub lane d status plane row flags consumed produced true) (0x140 + hub)
      refine ⟨?_, .of_set ?_, fun _ => sourceEdge_pending _ _ hsrc, nofun, ?_⟩
      all_goals
        rw [if_pos rfl, pulse, hint]
        rfl
  case fillEnd =>
    intro f status out off hfind freed g entry
    refine ends_codecJobEnd_fill hs hfind ?_
    have hengine := laneReturned_engine s.m hub lane f.hold
    by_cases hdone : status = 0
    · subst hdone
      obtain ⟨honly, hcodec, hfills, hmem⟩ := endFill_done s.m hub lane f out off
      exact ⟨hengine.congr hcodec, honly, fun _ => ⟨hfills, hmem⟩, fun h => absurd rfl h⟩
    · obtain ⟨honly, hcodec, hcount, hmem⟩ := endFill_abandoned s.m hub lane f hdone out off
      exact ⟨hengine.congr hcodec, honly, fun h => absurd h hdone, fun _ => ⟨hcount, hmem⟩⟩
  case staged =>
    rintro tile req h ⟨rfl, hfind⟩
    exact ⟨fun c ⟨hhold, hdue⟩ => ends_hitStageRelease hs hfind hhold hdue (hitStaged_stands ..), fun hwaits => ends_hitStageRelease_waits hs hfind hwaits⟩
  case decoded =>
    intro h status out start hfind
    refine ⟨fun hearly => ends_hitDecodeDone_early hs hfind hearly, fun r ⟨hdue, hreq⟩ => ?_⟩
    have hrest := laneReturned_hubs s.m hub lane h.hold
    have hmem : (laneReturned s.m hub lane h.hold).mem = s.m.mem := congrArg (·.mem) hrest
    have hdict : (laneReturned s.m hub lane h.hold).dict = s.m.dict := congrArg (·.dict) hrest
    have htiles : (laneReturned s.m hub lane h.hold).tiles = s.m.tiles := congrArg (·.tiles) hrest
    have hengine := laneReturned_engine s.m hub lane h.hold
    have hcount (k : Nat) : odNat (laneReturned s.m hub lane h.hold) k = odNat s.m k := odNat_congr (congrArg (·.live) hdict) k
    refine ⟨fun hgood => ends_hitDecodeDone hs hfind hdue hreq (by simp [hgood.1]) ?_, fun ⟨hbus, hbad⟩ => ends_hitDecodeDone hs hfind hdue hreq hbus ?_⟩
    · obtain ⟨hdone, hgone, hhits, hhubs⟩ := hitDelivered_ends (laneReturned s.m hub lane h.hold) h r out
      rw [findReq_id hreq] at hgone
      rw [hcount] at hhits
      rw [if_pos hgood]
      exact ⟨hdone.trans (writeMem_mem_congr (fetchDestWritten_mem_congr hmem ..) ..), hgone, hhits,
        congrArg (·.lanes) (hengine.congr (congrArg (·.codec) hhubs)).engine⟩
    · have hreq' : findReq (laneReturned s.m hub lane h.hold) h.tile h.req = some r := by
        rw [findReq_congr htiles, hreq]
      obtain ⟨hdead, hagain, hmisses⟩ := hitDropped_ends hreq'
      rw [hcount] at hmisses
      rw [if_neg hbad]
      exact ⟨hdead.trans (setSlotState_mem_congr hmem hdict ..), hagain, hmisses,
        congrArg (·.lanes) (hengine.congr (congrArg (·.codec) (hitDropped_hubs ..))).engine,
        (laneReturned_hitOnly ..).trans (hitDropped_only ..)⟩

end Machine
end Sys2Proof

/-!
PROOFS of the statements of the sample path: what loading, stopping, unloading a job and an audit leave (R141 to R146, R217 to R220,
R291 to R294, R347, R428).
-/
namespace Sys2Proof
namespace Machine

/-! ### Job commands (R428) -/

/-- Nothing but the rings and their counts differs. -/
structure RingsOnly (a b : M8) : Prop where
  entries : EntriesBut [Od.RINGS_OPEN, Od.RINGS_FROZEN] a b
  rest : b = { a with rings := b.rings, dict := b.dict }

theorem setRing_rings (s : M8) (k : Nat) (x : Ring) : RingsOnly s (setRing s k x) where
  entries := by
    let m := modRings s fun r => { r with rings := r.rings.set {} k x }
    have hopen : EntriesBut [Od.RINGS_OPEN] s (odSet m Od.RINGS_OPEN (ringsIn m fun st => st == .running || st == .frozen)) := .set _ _ rfl
    have hfrozen := odSet_entriesBut (odSet m Od.RINGS_OPEN (ringsIn m fun st => st == .running || st == .frozen)) Od.RINGS_FROZEN
      (ringsIn m (· == .frozen))
    exact (hopen.mono (by simp)).trans (hfrozen.mono (by simp))
  rest := rfl

theorem takes_rings {s : State} {cmd : Option (Nat × Nat)} {opc : Nat} {audit : Bool} {d : M8} (h : Takes s cmd opc audit d) : RingsOnly s.m d := by
  obtain ⟨-, ⟨-, rfl⟩ | ⟨k, seq, c, -, -, -, rfl⟩⟩ := h
  · exact ⟨.of_dict rfl, rfl⟩
  · exact setRing_rings ..

theorem jobCommand_takes {s : State} {cmd : Option (Nat × Nat)} {opc : Nat} {audit allowed : Bool} {d : M8} (h : Takes s cmd opc audit d)
    (hallowed : allowed = true) (f : M8 → M8) : jobCommand s.m cmd opc audit none allowed f = f d := by
  obtain ⟨-, ⟨rfl, rfl⟩ | ⟨k, seq, c, rfl, ⟨-, hfind, hstarted, hworked, hopc⟩, haudit, rfl⟩⟩ := h
  · exact if_pos hallowed
  · have hkind : (decide (opc = 0x20) && decide (c.audit ≠ audit)) = false := by
      simpa using haudit
    simp only [jobCommand, workOn, hfind, hstarted, hworked, hopc, hkind, hallowed, Bool.not_true, Bool.not_false, Bool.and_self, decide_true,
      Bool.false_eq_true, if_true, if_false]

/-! ### The state of the job (R144) -/

theorem enterJobState_rest (s : M8) (st : Nat) :
    enterJobState s st = { s with dict := (enterJobState s st).dict, dbg := { s.dbg with rings := (enterJobState s st).dbg.rings } } := by
  unfold enterJobState
  dsimp only
  split
  · rfl
  · rw [record_rest]
    rfl

theorem enterJobState_keeps (s : M8) (st : Nat) :
    (enterJobState s st).tiles = s.tiles ∧ (enterJobState s st).job = s.job ∧ (enterJobState s st).pav = s.pav := by
  rw [enterJobState_rest]
  exact ⟨rfl, rfl, rfl⟩

theorem enterJobState_enters (s : M8) {st : Nat} (h : st < 256) : jobState (enterJobState s st) = st := by
  unfold enterJobState
  dsimp only
  split
  next hold => exact hold
  next =>
    rw [jobState, odNat_congr (a := odSet s Od.JOB_STATE st) (by rw [record_rest]), odNat_odSet_self _ Od.JOB_STATE _ _ rfl rfl]
    exact Nat.mod_eq_of_lt h

/-- The codes a refused load leaves (R141, R219). -/
theorem refuseLoad_refuses (s : M8) (code : Nat) (f : Option LoadFail) : jobState (refuseLoad s code f) = 6 ∧
    odNat (refuseLoad s code f) Od.JOB_FAIL = code % 2 ^ 16 ∧
    refuseLoad s code f = { s with dict := (refuseLoad s code f).dict, dbg := { s.dbg with rings := (refuseLoad s code f).dbg.rings } } := by
  have hstate := enterJobState_enters s (st := 6) (by decide)
  have hcode := odNat_odSet_self (enterJobState s 6) Od.JOB_FAIL code _ rfl rfl
  have hrest := enterJobState_rest s 6
  rw [jobState] at hstate
  unfold refuseLoad jobState
  cases f with
  | none =>
    refine ⟨by rw [odNat_odSet_other _ _ _ _ (by decide), hstate], hcode, ?_⟩
    dsimp only
    rw [hrest]
    rfl
  | some f =>
    refine ⟨?_, ?_, ?_⟩
    · simp (disch := decide) only [odNat_odSet_other, hstate]
    · simp (disch := decide) only [odNat_odSet_other]
      exact hcode
    · dsimp only
      rw [hrest]
      rfl

/-! ### A tile at a time -/

/-- An operation on one tile at a time, over tiles named once each, leaves each as it does alone and the others as they are. -/
theorem foldl_eachTile {f : M8 → Nat → M8} {P : Nat → Tile → Tile → Prop} (hself : ∀ s t, P t (getTile s t) (getTile (f s t) t))
    (hother : ∀ s t u, u ≠ t → getTile (f s t) u = getTile s u) {l : List Nat} (hl : l.Nodup) (s : M8) :
    (∀ t ∈ l, P t (getTile s t) (getTile (l.foldl f s) t)) ∧ ∀ t, t ∉ l → getTile (l.foldl f s) t = getTile s t := by
  induction l generalizing s with
  | nil => exact ⟨nofun, fun _ _ => rfl⟩
  | cons u l ih =>
    rw [List.nodup_cons] at hl
    obtain ⟨hin, hout⟩ := ih hl.2 (f s u)
    refine ⟨fun t ht => ?_, fun t ht => ?_⟩
    · rw [List.foldl_cons]
      obtain rfl | hne := eq_or_ne t u
      · rw [hout t hl.1]
        exact hself s t
      · have hrest := hin t ((List.mem_cons.1 ht).resolve_left hne)
        rwa [hother s u t hne] at hrest
    · rw [List.mem_cons, not_or] at ht
      rw [List.foldl_cons, hout t ht.2, hother s u t ht.1]

theorem maskTiles_nodup (mask : Nat) : (maskTiles mask).Nodup := List.nodup_range.filter _

theorem getTile_enterTileSt (s : M8) (t : Nat) (st : TileSt) : getTile (enterTileSt s t st) t = { getTile s t with st := st } := by
  rw [(enterTileSt_trapView s t st).getTile, getTile_modTile]

theorem getTile_enterTileSt_other (s : M8) {t u : Nat} (st : TileSt) (h : u ≠ t) : getTile (enterTileSt s t st) u = getTile s u := by
  rw [(enterTileSt_trapView s t st).getTile, getTile_modTile_other _ _ _ _ h]

/-! ### A tile is loaded, started, emptied (R217, R220) -/

/-- What a load of a tile leaves alone. -/
def setupView (s : M8) : Job × Group × Pavane × Clock := (s.job, s.grp, s.pav, s.clk)

theorem TileOnly.setup {a b : M8} (h : TileOnly a b) : Keeps setupView a b := by
  unfold TileOnly at h
  unfold Keeps
  rw [h]
  rfl

theorem enterTileSt_entries (s : M8) (t : Nat) (st : TileSt) : EntriesBut [Od.INT_OVERRUNS] s (enterTileSt s t st) :=
  .trans (b := if (getTile s t).st = st then modTile s t fun x => { x with st := st }
      else record (modTile s t fun x => { x with st := st }) t 0 0 (st.code + (getTile s t).st.code * 256))
    (.ite (.of_dict rfl) (.of_dict (record_dict ..))) (setLine_entries ..)

/-- The machine with the memory and sync objects of a tile as its image has them (R217, R220). -/
def placeImage (s : M8) (b : Bytes) (t : Nat) : M8 :=
  (List.range 4032).foldl (fun s k => match (syncTable b t)[k]? with
    | some o => setSync s (t * 4096 + k) o
    | none => if s.sync.has (t * 4096 + k) then setSync s (t * 4096 + k) {} else s)
    (writeMem (clearMem s (0x020000000000 + t * 0x1000000) 0xFC0000) (0x020000000000 + t * 0x1000000) (oneSec b 3 t))

/-- A tile as its image has it, not yet loaded. -/
def imageTile (b : Bytes) (t : Nat) (x : Tile) : Tile := { emptyTile x with
  istore := (List.range (codeWords b t).length).foldl (fun m k => m.set 0 k ((codeWords b t).getD k 0)) [], ilen := (codeWords b t).length,
  initThreads := threadTable b t, prog := (codeWords b t).length * 8 }

theorem loadTile_eq (s : M8) (b : Bytes) (t : Nat) : loadTile s b t = enterTileSt (modTile (placeImage s b t) t (imageTile b t)) t .loaded := rfl

theorem placeImage_keeps {α : Type} {view : M8 → α} (hmem : ∀ s m, view { s with mem := m } = view s)
    (hsync : ∀ s o, view { s with sync := o } = view s) (s : M8) (b : Bytes) (t : Nat) : Keeps view s (placeImage s b t) := by
  refine .trans (b := writeMem (clearMem s (0x020000000000 + t * 0x1000000) 0xFC0000) (0x020000000000 + t * 0x1000000) (oneSec b 3 t))
    (hmem s _) (.foldl (fun m k => ?_) _ _)
  split
  · exact hsync m _
  · exact .ite (hsync m _) (.refl m)

theorem getTile_placeImage (s : M8) (b : Bytes) (t u : Nat) : getTile (placeImage s b t) u = getTile s u :=
  congrArg (·.get {} u) (placeImage_keeps (view := M8.tiles) (fun _ _ => rfl) (fun _ _ => rfl) s b t)

theorem getTile_loadTile (s : M8) (b : Bytes) (t : Nat) :
    getTile (loadTile s b t) t = { imageTile b t (getTile s t) with st := .loaded } := by
  rw [loadTile_eq, getTile_enterTileSt, getTile_modTile, getTile_placeImage]

theorem getTile_loadTile_other (s : M8) (b : Bytes) {t u : Nat} (h : u ≠ t) : getTile (loadTile s b t) u = getTile s u := by
  rw [loadTile_eq, getTile_enterTileSt_other _ _ h, getTile_modTile_other _ _ _ _ h, getTile_placeImage]

theorem modTile_setup (s : M8) (t : Nat) (f : Tile → Tile) : Keeps setupView s (modTile s t f) := rfl

theorem loadTile_setup (s : M8) (b : Bytes) (t : Nat) : Keeps setupView s (loadTile s b t) := by
  have hplace : Keeps setupView s (placeImage s b t) := placeImage_keeps (fun _ _ => rfl) (fun _ _ => rfl) s b t
  rw [loadTile_eq]
  exact hplace.trans ((modTile_setup ..).trans (enterTileSt_tile ..).setup)

theorem loadTile_entries (s : M8) (b : Bytes) (t : Nat) : EntriesBut [Od.INT_OVERRUNS] s (loadTile s b t) := by
  have hplace : Keeps M8.dict s (placeImage s b t) := placeImage_keeps (fun _ _ => rfl) (fun _ _ => rfl) s b t
  rw [loadTile_eq]
  exact .trans (.of_dict hplace) (.trans (.of_dict (modTile_dict ..)) (enterTileSt_entries ..))

/-- A tile of a started job, its state not yet entered. -/
def startingTile (x : Tile) : Tile := { x with
  cycle := 0, quarters := 0, canaryAt := 0, nextFence := 1, rfences := [], dispQ := [], cells := [], reqQ := [], placesOut := [],
  lastIssue := 7, threads := (List.range x.initThreads.length).map fun i => (i, threadStart (x.initThreads.getD i [])) }

/-- The machine with a tile's threads at their start. -/
def tileStarting (s : M8) (t : Nat) : M8 :=
  let m := modTile s t startingTile
  progressed { m with safe := { m.safe with hubStart := m.clk.hclk, hubRuns := [] } } t

theorem startTile_eq (s : M8) (t : Nat) : startTile s t = enterTileSt (tileStarting s t) t .running := rfl

theorem getTile_startTile (s : M8) (t : Nat) : (getTile (startTile s t) t).st = .running := by rw [startTile_eq, getTile_enterTileSt]

theorem getTile_startTile_other (s : M8) {t u : Nat} (h : u ≠ t) : getTile (startTile s t) u = getTile s u := by
  rw [startTile_eq, getTile_enterTileSt_other _ _ h]
  exact getTile_modTile_other _ _ _ _ h

theorem startTile_setup (s : M8) (t : Nat) : Keeps setupView s (startTile s t) :=
  .trans (b := tileStarting s t) rfl (enterTileSt_tile ..).setup

theorem startTile_entries (s : M8) (t : Nat) : EntriesBut [Od.INT_OVERRUNS] s (startTile s t) :=
  .trans (b := tileStarting s t) (.of_dict rfl) (enterTileSt_entries ..)

theorem EntriesBut.foldl {β : Type} {ks : List Nat} {f : M8 → β → M8} (hf : ∀ s x, EntriesBut ks s (f s x)) (l : List β) (s : M8) :
    EntriesBut ks s (l.foldl f s) := by
  induction l generalizing s with
  | nil => exact .of_dict rfl
  | cons x l ih => exact (hf s x).trans (ih _)

/-! ### An image is installed (R142, R220, R290, R337) -/

/-- The entries a load sets beside JOB_ID, JOB_FAIL and the states. -/
def loadKeys : List Nat :=
  [Od.STEPS_PER_EPOCH, Od.LAST_STEP, Od.JOB_LEAD, Od.JOB_MIN_PERIOD_NS, Od.LOAD_LIMIT, Od.LOAD_TILE, Od.LOAD_OFFSET, Od.SHARE_NS_EC,
    Od.SHARE_NS_OWN, Od.LEAD_MARGIN_PU, Od.REFRESH_WAIT_NS, Od.LINK_REPLAYS, Od.RDMA_RETRANSMITS, Od.MEDIA_RETRIES, Od.QDR_PASSES, Od.AUDIT_OUT,
    Od.INT_OVERRUNS, Od.SAFETY_STATE, Od.CREDIT_AREA, Od.OFFSET_MASTER_NS, Od.OFFSET_SRC_ADDR, Od.OFFSET_SRC_NS, Od.OFFSET_RTT_NS]

theorem setOwners_keeps {α : Type} {view : M8 → α} (hhubs : ∀ s h, view { s with hubs := h } = view s) (s : M8) (img : Image) :
    Keeps view s (setOwners s img) :=
  .foldl (fun s _ => .foldl (fun s _ => .foldl (fun s _ => hhubs s _) _ s) _ s) _ s

/-- The job of an image and its record (R142). -/
def installedJob (s : M8) (b rec_ : Bytes) : Job :=
  { img := imageTables b, jr := jobRecOf rec_, loaded := true, layoutHash := layoutHash rec_,
    sampleCount := Config.datasetCount (imageTables b).datasetLink, members := jobMembers s, nextId := s.job.nextId,
    quarLog := s.job.quarLog, imgBytes := b }

/-- The least width of a window of KIND 3, in a job's image (R142). -/
def leadMargin (img : Image) : Option Nat :=
  (img.windows.filter fun w => w.valid && w.kind == 3).foldl (fun (n : Option Nat) w =>
    let d := (closePoint w 0 - openPoint w 0).toNat
    some (match n with
      | some m => min m d
      | none => d)) none

/-- Numbers put in entries, one after the other. -/
def odSets (s : M8) (l : List (Nat × Nat)) : M8 := l.foldl (fun s p => odSet s p.1 p.2) s

theorem odSet_setup (s : M8) (k n : Nat) : Keeps setupView s (odSet s k n) := rfl

theorem odSets_setup (s : M8) (l : List (Nat × Nat)) : Keeps setupView s (odSets s l) := .foldl (f := fun s p => odSet s p.1 p.2) (fun s p => odSet_setup s p.1 p.2) l s

theorem odSets_tiles (s : M8) (l : List (Nat × Nat)) : Keeps M8.tiles s (odSets s l) :=
  .foldl (view := M8.tiles) (f := fun s (p : Nat × Nat) => odSet s p.1 p.2) (fun _ _ => rfl) l s

theorem odSets_entries (s : M8) (l : List (Nat × Nat)) : EntriesBut (l.map Prod.fst) s (odSets s l) := by
  induction l generalizing s with
  | nil => exact .of_dict rfl
  | cons p l ih =>
    exact ((odSet_entriesBut s p.1 p.2).mono (by simp)).trans ((ih (odSet s p.1 p.2)).mono (by simp))

/-- The entries of a job beside its identity, before JOB_FAIL (R142). -/
def jobEntries (img : Image) (r : JobRec) : List (Nat × Nat) :=
  let spe := stepsPerEpoch (Config.datasetCount img.datasetLink) r.batch
  [(Od.STEPS_PER_EPOCH, spe), (Od.LAST_STEP, r.firstStep + r.epochs * spe - 1), (Od.JOB_LEAD, img.lead),
    (Od.JOB_MIN_PERIOD_NS, img.minPeriod)]

/-- The entries that start anew with a job (R290). -/
def freshEntries (img : Image) : List (Nat × Nat) :=
  [(Od.LOAD_LIMIT, 0), (Od.LOAD_TILE, 0), (Od.LOAD_OFFSET, 0), (Od.SHARE_NS_EC, (Config.proofShares img.proof).1),
    (Od.SHARE_NS_OWN, (Config.proofShares img.proof).2), (Od.LEAD_MARGIN_PU, (leadMargin img).getD 0), (Od.REFRESH_WAIT_NS, 0),
    (Od.LINK_REPLAYS, 0), (Od.RDMA_RETRANSMITS, 0), (Od.MEDIA_RETRIES, 0), (Od.QDR_PASSES, 0)]

/-- The machine with a job and its identity. -/
def jobIdentified (s : M8) (b rec_ : Bytes) : M8 := odSet { s with job := installedJob s b rec_ } Od.JOB_ID (jobIdOf rec_)

/-- The machine with a job and its entries, JOB_FAIL cleared (R142). -/
def jobEntered (s : M8) (b rec_ : Bytes) : M8 :=
  odSet (odSets (jobIdentified s b rec_) (jobEntries (imageTables b) (jobRecOf rec_))) Od.JOB_FAIL 0

/-- The machine with the counters that start with the job cleared (R290). -/
def countersFresh (s : M8) (img : Image) : M8 := odPut (odSets s (freshEntries img)) Od.AUDIT_OUT (.bytes [])

theorem installImage_eq (s : M8) (b rec_ : Bytes) : installImage s b rec_ =
    (maskTiles (imageTables b).tileMask).foldl (fun s t => loadTile s b t)
      (setOwners (countersFresh (jobEntered s b rec_) (imageTables b)) (imageTables b)) := rfl

theorem jobEntered_setup (s : M8) (b rec_ : Bytes) : Keeps setupView { s with job := installedJob s b rec_ } (jobEntered s b rec_) :=
  (odSet_setup ..).trans ((odSets_setup ..).trans (odSet_setup ..))

theorem odPut_setup (s : M8) (k : Nat) (v : OdVal) : Keeps setupView s (odPut s k v) := rfl

theorem countersFresh_setup (s : M8) (img : Image) : Keeps setupView s (countersFresh s img) := (odSets_setup ..).trans (odPut_setup ..)

theorem jobEntered_tiles (s : M8) (b rec_ : Bytes) : Keeps M8.tiles s (jobEntered s b rec_) :=
  .trans (b := jobIdentified s b rec_) rfl ((odSets_tiles ..).trans (odSet_tiles ..))

theorem countersFresh_tiles (s : M8) (img : Image) : Keeps M8.tiles s (countersFresh s img) := (odSets_tiles ..).trans (odPut_tiles ..)

theorem installImage_setup (s : M8) (b rec_ : Bytes) : Keeps setupView { s with job := installedJob s b rec_ } (installImage s b rec_) := by
  rw [installImage_eq]
  exact (jobEntered_setup ..).trans ((countersFresh_setup ..).trans ((setOwners_keeps (fun _ _ => rfl) ..).trans
    (.foldl (fun s t => loadTile_setup s b t) _ _)))

theorem odPut_entriesBut (s : M8) (k : Nat) (v : OdVal) : EntriesBut [k] s (odPut s k v) :=
  ⟨rfl, fun j hj => odGet_odPut_other s k j v (by simpa using hj)⟩

theorem countersFresh_entries (s : M8) (img : Image) : EntriesBut loadKeys s (countersFresh s img) :=
  ((odSets_entries s (freshEntries img)).mono (by simp [freshEntries, loadKeys])).trans ((odPut_entriesBut ..).mono (by simp [loadKeys]))

/-- The identity and the code of a loaded job. -/
theorem jobEntered_entries (s : M8) (b rec_ : Bytes) : EntriesBut (Od.JOB_ID :: Od.JOB_FAIL :: loadKeys) s (jobEntered s b rec_) ∧
    odNat (jobEntered s b rec_) Od.JOB_ID = jobIdOf rec_ % 2 ^ 64 ∧ odNat (jobEntered s b rec_) Od.JOB_FAIL = 0 := by
  have hid : EntriesBut [Od.JOB_ID] s (jobIdentified s b rec_) := .set _ _ rfl
  have hjob := odSets_entries (jobIdentified s b rec_) (jobEntries (imageTables b) (jobRecOf rec_))
  have hfail := odSet_entriesBut (odSets (jobIdentified s b rec_) (jobEntries (imageTables b) (jobRecOf rec_))) Od.JOB_FAIL 0
  have hkey : Od.JOB_ID ∉ (jobEntries (imageTables b) (jobRecOf rec_)).map Prod.fst := by
    simp only [jobEntries, List.map]
    decide
  refine ⟨(hid.mono (by simp)).trans ((hjob.mono (by simp [jobEntries, loadKeys])).trans (hfail.mono (by simp))), ?_, ?_⟩
  · rw [jobEntered, hfail.odNat_eq (by decide), hjob.odNat_eq hkey, jobIdentified, odNat_odSet_self _ Od.JOB_ID _ _ rfl rfl]
    rfl
  · rw [jobEntered, odNat_odSet_self _ Od.JOB_FAIL _ _ rfl rfl]
    exact Nat.zero_mod _

theorem installImage_rest (s : M8) (b rec_ : Bytes) : EntriesBut loadKeys (jobEntered s b rec_) (installImage s b rec_) := by
  rw [installImage_eq]
  exact (countersFresh_entries ..).trans ((EntriesBut.of_dict (setOwners_keeps (view := M8.dict) (fun _ _ => rfl) ..)).trans
    (.foldl (fun s t => (loadTile_entries s b t).mono (by simp [loadKeys])) _ _))

/-- What an installed image leaves: its job, the job's identity and code, and each tile of its mask loaded. -/
structure Installed (b rec_ : Bytes) (s m : M8) : Prop where
  setup : Keeps setupView { s with job := installedJob s b rec_ } m
  entries : EntriesBut (Od.JOB_ID :: Od.JOB_FAIL :: loadKeys) s m
  id : odNat m Od.JOB_ID = jobIdOf rec_ % 2 ^ 64
  fail : odNat m Od.JOB_FAIL = 0
  tiles : ∀ t ∈ maskTiles (imageTables b).tileMask, getTile m t = { imageTile b t (getTile s t) with st := .loaded }
  others : ∀ t, t ∉ maskTiles (imageTables b).tileMask → getTile m t = getTile s t

theorem installImage_installs (s : M8) (b rec_ : Bytes) : Installed b rec_ s (installImage s b rec_) := by
  obtain ⟨hentries, hid, hfail⟩ := jobEntered_entries s b rec_
  have hrest := installImage_rest s b rec_
  have htiles := foldl_eachTile (f := fun s t => loadTile s b t) (P := fun t x y => y = { imageTile b t x with st := .loaded })
    (fun s t => getTile_loadTile s b t) (fun s t u h => getTile_loadTile_other s b h) (maskTiles_nodup (imageTables b).tileMask)
    (setOwners (countersFresh (jobEntered s b rec_) (imageTables b)) (imageTables b))
  have htile (t : Nat) : getTile (setOwners (countersFresh (jobEntered s b rec_) (imageTables b)) (imageTables b)) t = getTile s t :=
    congrArg (·.get {} t) ((jobEntered_tiles s b rec_).trans ((countersFresh_tiles ..).trans (setOwners_keeps (fun _ _ => rfl) ..)))
  rw [← installImage_eq] at htiles
  exact {
    setup := installImage_setup ..
    entries := hentries.trans (hrest.mono (by simp))
    id := (hrest.odNat_eq (by decide)).trans hid
    fail := (hrest.odNat_eq (by decide)).trans hfail
    tiles := fun t ht => by rw [htiles.1 t ht, htile]
    others := fun t ht => by rw [htiles.2 t ht, htile] }

/-! ### A load arms the job (R126, R144, R162, R487, R501) -/

/-- The tiles, the job, its group and the clock of Pavane. -/
def armView (s : M8) : Sparse Tile × Job × Group × Pavane := (s.tiles, s.job, s.grp, s.pav)

theorem odSet_arm (s : M8) (k n : Nat) : Keeps armView s (odSet s k n) := rfl

theorem enterJobState_arm (s : M8) (st : Nat) : Keeps armView s (enterJobState s st) := by
  rw [enterJobState_rest]
  rfl

theorem offsetDone_arm (s : M8) (o : OffsetMeas) : Keeps armView s (offsetDone s o) := by
  unfold offsetDone
  split
  · rfl
  · have hmaster (c : Prop) [Decidable c] (n : Nat) : Keeps armView s (if c then odSet s Od.OFFSET_MASTER_NS n else s) := .ite (odSet_arm ..) (.refl s)
    exact .ite ((hmaster _ _).trans ((odSet_arm ..).trans ((odSet_arm ..).trans (odSet_arm ..)))) (hmaster _ _)

theorem offsetDone_entries (s : M8) (o : OffsetMeas) : EntriesBut loadKeys s (offsetDone s o) := by
  have hset (s : M8) (k n : Nat) (hk : k ∈ loadKeys) : EntriesBut loadKeys s (odSet s k n) := (odSet_entriesBut s k n).mono (by simpa using hk)
  unfold offsetDone
  split
  · exact .of_dict rfl
  · have hmaster (c : Prop) [Decidable c] (n : Nat) : EntriesBut loadKeys s (if c then odSet s Od.OFFSET_MASTER_NS n else s) :=
      .ite (hset _ _ _ (by simp [loadKeys])) (.of_dict rfl)
    exact .ite ((hmaster _ _).trans ((hset _ _ _ (by simp [loadKeys])).trans ((hset _ _ _ (by simp [loadKeys])).trans
      (hset _ _ _ (by simp [loadKeys]))))) (hmaster _ _)

/-- The machine with measurement o for the one that stands of a peer. -/
def offsetMarked (s : M8) (peer : Nat) (o : OffsetMeas) : M8 :=
  { s with fab := { s.fab with offsets := s.fab.offsets.map fun x => if x.peer = peer then o else x } }

theorem beginOffset_arm (s : M8) (peer : Nat) (src : Bool) : Keeps armView s (beginOffset s peer src) := by
  unfold beginOffset
  split
  · rfl
  · exact .ite (.trans (b := offsetMarked s peer _) rfl (offsetDone_arm ..)) rfl

theorem beginOffset_entries (s : M8) (peer : Nat) (src : Bool) : EntriesBut loadKeys s (beginOffset s peer src) := by
  unfold beginOffset
  split
  · exact .of_dict rfl
  · exact .ite (.trans (b := offsetMarked s peer _) (.of_dict rfl) (offsetDone_entries ..)) (.of_dict rfl)

/-- Where the credit area of a job begins (R417, R501). -/
def creditBase (s : M8) : Nat :=
  if s.job.jr.ranks.any fun k => k.kind == 1 then partBase s 1 + creditOff s s.job.jr else Config.creditAreaAt

/-- The machine with its credit area and key, Pavane listening (R162, R501). -/
def creditPlaced (s : M8) : M8 :=
  let m := modRem (odSet (modJob s fun j => { j with creditArea := creditBase s }) Od.CREDIT_AREA (creditBase s)) fun r =>
    { r with creditGen := (r.creditGen + 1) % 256, bufTx := [], recTx := [] }
  { m with pav := { m.pav with armedAt := m.clk.now } }

/-- The machine with the measurements of its offsets begun (R487). -/
def offsetsBegun (s : M8) : M8 :=
  let src := odNat s Od.PKT_SOURCE
  let m := if src = 0xFFFF then s else beginOffset s src true
  if m.grp.master = 0xFFFF || m.grp.master = ownAddr m then m else beginOffset m m.grp.master false

theorem armJob_eq (s : M8) : armJob s = enterJobState (offsetsBegun (creditPlaced s)) 2 := rfl

theorem offsetsBegun_arm (s : M8) : Keeps armView s (offsetsBegun s) := by
  have hsrc : Keeps armView s (if odNat s Od.PKT_SOURCE = 0xFFFF then s else beginOffset s (odNat s Od.PKT_SOURCE) true) :=
    .ite (.refl s) (beginOffset_arm ..)
  exact .ite hsrc (hsrc.trans (beginOffset_arm ..))

theorem offsetsBegun_entries (s : M8) : EntriesBut loadKeys s (offsetsBegun s) := by
  have hsrc : EntriesBut loadKeys s (if odNat s Od.PKT_SOURCE = 0xFFFF then s else beginOffset s (odNat s Od.PKT_SOURCE) true) :=
    .ite (.of_dict rfl) (beginOffset_entries ..)
  exact .ite hsrc (hsrc.trans (beginOffset_entries ..))

theorem creditPlaced_entries (s : M8) : EntriesBut loadKeys s (creditPlaced s) :=
  ((odSet_entriesBut s Od.CREDIT_AREA (creditBase s)).mono (by simp [loadKeys])).trans (.of_dict rfl)

/-- An armed job (R144): its tiles, tables and group stand, and Pavane listens from now. -/
structure Arms (s m : M8) : Prop where
  state : jobState m = 2
  tiles : m.tiles = s.tiles
  loaded : m.job.loaded = s.job.loaded
  jr : m.job.jr = s.job.jr
  img : m.job.img = s.job.img
  group : m.grp = s.grp
  armed : m.pav.armedAt = s.clk.now
  entries : EntriesBut (Od.JOB_STATE :: loadKeys) s m

theorem armJob_arms (s : M8) : Arms s (armJob s) := by
  have hview : Keeps armView (creditPlaced s) (armJob s) := by
    rw [armJob_eq]
    exact (offsetsBegun_arm _).trans (enterJobState_arm ..)
  have hjob : (armJob s).job = (creditPlaced s).job := congrArg (·.2.1) hview
  exact {
    state := enterJobState_enters _ (by decide)
    tiles := (congrArg (·.1) hview).trans rfl
    loaded := (congrArg (·.loaded) hjob).trans rfl
    jr := (congrArg (·.jr) hjob).trans rfl
    img := (congrArg (·.img) hjob).trans rfl
    group := (congrArg (·.2.2.1) hview).trans rfl
    armed := (congrArg (·.2.2.2.armedAt) hview).trans rfl
    entries := (((creditPlaced_entries s).trans (offsetsBegun_entries _)).mono (by simp)).trans ((enterJobState_entries ..).mono (by simp)) }

/-- The machine with its group's fencing, intents and replay anew (R518, R552, R553). -/
def groupFresh (s : M8) : M8 :=
  { s with grp := { s.grp with
    rbId := 0, fenced := false, loadAt := some s.clk.now, awaits := [], intents := [], acks := [], rollback := false, marks := [], pastFaults := [],
    lowSteps := [], hb := s.grp.hb.map fun p => (p.1, s.clk.now) } }

theorem freshGroup_group (s : M8) : EntriesBut loadKeys s (freshGroup s) ∧ freshGroup s = { s with grp := (groupFresh s).grp, dict := (freshGroup s).dict } := by
  have hfresh : freshGroup s = if (groupFresh s).safe.faultN then groupFresh s
      else odSet (groupFresh s) Od.SAFETY_STATE (if (groupFresh s).safe.reacting then 1 else 0) := rfl
  rw [hfresh]
  split
  · exact ⟨.of_dict rfl, rfl⟩
  · exact ⟨((odSet_entriesBut s Od.SAFETY_STATE _).mono (by simp [loadKeys])).trans (.of_dict rfl), rfl⟩

/-! ### A job is loaded or refused (R141, R144, R219, R220, R428) -/

theorem loadAllowed_iff (s : M8) : loadAllowed s = true ↔
    jobState s = 0 ∧ odNat s Od.AUDIT_STATE ≠ 1 ∧ odNat s Od.AUDIT_STATE ≠ 2 ∧ s.job.loaded = false ∧ odNat s Od.FW_STATE ≠ 7 := by
  simp [loadAllowed, and_assoc]

theorem jobLoad_accepted {s : M8} {image rec_ : Bytes} {f : Option LoadFail} (hidle : jobState s = 0)
    (hcode : jobCode (enterJobState s 1) image rec_ = (0, f)) :
    jobLoad s image rec_ = armJob (freshGroup (installImage (enterJobState s 1) image rec_)) := by
  simp [jobLoad, hidle, hcode]

theorem jobLoad_refused {s : M8} {image rec_ : Bytes} {c : Nat} {f : Option LoadFail} (hidle : jobState s = 0)
    (hcode : jobCode (enterJobState s 1) image rec_ = (c + 1, f)) : jobLoad s image rec_ = refuseLoad (enterJobState s 1) (c + 1) f := by
  simp [jobLoad, hidle, hcode]

/-- An accepted load on a machine in Idle (R142, R144, R217, R220). -/
theorem jobLoad_loads {s d : M8} {image rec_ : Bytes} {f : Option LoadFail} (hd : RingsOnly s d) (hidle : jobState d = 0)
    (hcode : jobCode (enterJobState d 1) image rec_ = (0, f)) :
    let m := jobLoad d image rec_
    jobState m = 2 ∧ m.job.loaded = true ∧ m.job.jr = jobRecOf rec_ ∧ m.job.img = imageTables image ∧
      odNat m Od.JOB_ID = jobIdOf rec_ % 2 ^ 64 ∧ odNat m Od.JOB_FAIL = 0 ∧ m.grp.fenced = false ∧ m.pav.armedAt = s.clk.now ∧
      (∀ t ∈ maskTiles (imageTables image).tileMask, (getTile m t).st = .loaded ∧ (getTile m t).ilen = (codeWords image t).length ∧
        (getTile m t).initThreads = threadTable image t ∧ (getTile m t).retired = (getTile s t).retired) ∧
      ∀ t, t ∉ maskTiles (imageTables image).tileMask → getTile m t = getTile s t := by
  intro m
  have hm : m = armJob (freshGroup (installImage (enterJobState d 1) image rec_)) := jobLoad_accepted hidle hcode
  clear_value m
  have hinst := installImage_installs (enterJobState d 1) image rec_
  obtain ⟨hkept, hfresh⟩ := freshGroup_group (installImage (enterJobState d 1) image rec_)
  have harm := armJob_arms (freshGroup (installImage (enterJobState d 1) image rec_))
  rw [← hm] at harm
  have hjob : (installImage (enterJobState d 1) image rec_).job = installedJob (enterJobState d 1) image rec_ := congrArg (·.1) hinst.setup
  have hclk : (installImage (enterJobState d 1) image rec_).clk = (enterJobState d 1).clk := congrArg (·.2.2.2) hinst.setup
  have hgroup : (freshGroup (installImage (enterJobState d 1) image rec_)).job = installedJob (enterJobState d 1) image rec_ := by
    rw [hfresh]
    exact hjob
  have hentries := (hkept.mono (ks' := Od.JOB_STATE :: loadKeys) (by simp)).trans harm.entries
  have hstart (t : Nat) : getTile (enterJobState d 1) t = getTile s t := by
    rw [enterJobState_rest, hd.rest]
    rfl
  have htile (t : Nat) : getTile m t = getTile (installImage (enterJobState d 1) image rec_) t := by
    rw [getTile, harm.tiles, hfresh]
    rfl
  refine ⟨harm.state, ?_, ?_, ?_, ?_, ?_, ?_, ?_, fun t ht => ?_, fun t ht => ?_⟩
  · rw [harm.loaded, hgroup]
    rfl
  · rw [harm.jr, hgroup]
    rfl
  · rw [harm.img, hgroup]
    rfl
  · exact (hentries.odNat_eq (by decide)).trans hinst.id
  · exact (hentries.odNat_eq (by decide)).trans hinst.fail
  · rw [harm.group, hfresh]
    rfl
  · rw [harm.armed, hfresh]
    show (installImage (enterJobState d 1) image rec_).clk.now = _
    rw [hclk, enterJobState_rest, hd.rest]
  · rw [htile, hinst.tiles t ht, hstart]
    exact ⟨rfl, rfl, rfl, rfl⟩
  · rw [htile, hinst.others t ht, hstart]

/-- A refused load (R141, R219). -/
theorem jobLoad_refuses {s d : M8} {image rec_ : Bytes} {c : Nat} {f : Option LoadFail} (hd : RingsOnly s d) (hidle : jobState d = 0)
    (hcode : jobCode (enterJobState d 1) image rec_ = (c + 1, f)) :
    let m := jobLoad d image rec_
    jobState m = 6 ∧ odNat m Od.JOB_FAIL = (c + 1) % 2 ^ 16 ∧ m.job = s.job ∧ m.tiles = s.tiles ∧ m.mem = s.mem ∧ m.sync = s.sync := by
  intro m
  have hm : m = refuseLoad (enterJobState d 1) (c + 1) f := jobLoad_refused hidle hcode
  clear_value m
  obtain ⟨hstate, hfail, hrest⟩ := refuseLoad_refuses (enterJobState d 1) (c + 1) f
  have hstart := enterJobState_rest d 1
  rw [← hm] at hstate hfail hrest
  refine ⟨hstate, hfail, ?_⟩
  rw [hrest, hstart, hd.rest]
  exact ⟨rfl, rfl, rfl, rfl⟩

/-! ### An audit is loaded or refused (R291, R292) -/

/-- The end of an audit sets its state and its result and counts, and nothing else (R294). -/
theorem auditEnd_ends (s : M8) (status reason value : Nat) (data : Bytes) : odNat (auditEnd s status reason value data) Od.AUDIT_STATE = 3 ∧
    odBytes (auditEnd s status reason value data) Od.AUDIT_OUT = auditResult s status reason value data ∧
    odNat (auditEnd s status reason value data) Od.AUDITS = (odNat s Od.AUDITS + 1) % 2 ^ 32 ∧
    EntriesBut [Od.AUDIT_STATE, Od.AUDIT_OUT, Od.AUDITS] s (auditEnd s status reason value data) ∧
    auditEnd s status reason value data = { s with dict := (auditEnd s status reason value data).dict } := by
  have hout := odPut_entriesBut s Od.AUDIT_OUT (.bytes (auditResult s status reason value data))
  have hstate := odSet_entriesBut (odPut s Od.AUDIT_OUT (.bytes (auditResult s status reason value data))) Od.AUDIT_STATE 3
  have hcount := odInc_countsUp (odSet (odPut s Od.AUDIT_OUT (.bytes (auditResult s status reason value data))) Od.AUDIT_STATE 3)
    (k := Od.AUDITS) (w := 32) rfl rfl rfl
  have hbytes : odBytes (odPut s Od.AUDIT_OUT (.bytes (auditResult s status reason value data))) Od.AUDIT_OUT =
      auditResult s status reason value data := by
    rw [odBytes, odGet_odPut_self]
    rfl
  unfold auditEnd
  refine ⟨?_, ?_, ?_, ?_, rfl⟩
  · rw [odNat_odInc_other _ _ _ (by decide), odNat_odSet_self _ Od.AUDIT_STATE _ _ rfl rfl]
    rfl
  · rw [(odInc_entries _ _).odBytes_eq (by decide), odBytes_odSet_other _ _ _ _ (by decide), hbytes]
  · rw [hcount.counted, odNat_odSet_other _ _ _ _ (by decide), hout.odNat_eq (by decide)]
  · exact (hout.mono (by simp)).trans ((hstate.mono (by simp)).trans (hcount.entries.mono (by simp)))

/-- A refused audit (R291): beside its codes no state is kept. -/
theorem auditLoad_refuses {s d : M8} {image rec_ : Bytes} {c : Nat} {f : Option LoadFail} (hd : RingsOnly s d)
    (hallowed : jobState d = 0 ∧ odNat d Od.AUDIT_STATE ≠ 1 ∧ odNat d Od.AUDIT_STATE ≠ 2)
    (hcode : auditCode (odSet d Od.AUDIT_STATE 1) image rec_ = (c + 1, f)) :
    let m := auditLoad d image rec_
    odNat m Od.AUDIT_STATE = 0 ∧ odNat m Od.JOB_FAIL = (c + 1) % 2 ^ 16 ∧ m.tiles = s.tiles ∧ m.mem = s.mem ∧ m.sync = s.sync := by
  intro m
  have hm : m = odSet (refuseLoad (odSet d Od.AUDIT_STATE 1) (c + 1) f) Od.AUDIT_STATE 0 := by
    simp [m, auditLoad, hallowed, hcode]
  clear_value m
  obtain ⟨-, hfail, hrest⟩ := refuseLoad_refuses (odSet d Od.AUDIT_STATE 1) (c + 1) f
  rw [hm]
  refine ⟨?_, ?_, ?_⟩
  · rw [odNat_odSet_self _ Od.AUDIT_STATE _ _ rfl rfl]
    exact Nat.zero_mod _
  · rw [odNat_odSet_other _ _ _ _ (by decide), hfail]
  · rw [hrest, hd.rest]
    exact ⟨rfl, rfl, rfl⟩

/-- The tap an audit asks for: its tile, address and length (R292). -/
def tapAsked (image h : Bytes) : Option (Nat × Nat × Nat) :=
  if bit (leField h 1 1) 0 then
    let t := leField h 26 1
    some (t, 0x020000000000 + t * 0x1000000 + leField (oneSec image 9 t) (4 * leField h 28 4) 4, leField h 48 4)
  else none

/-- The machine with the image and the job of an audit (R291). -/
def auditInstalled (d : M8) (image rec_ : Bytes) : M8 :=
  modJob (installImage (odSet d Od.AUDIT_STATE 1) image (rec_.drop 64)) fun j =>
    { j with audit := true, auditRec := rec_.take 64, tap := tapAsked image (rec_.take 64) }

/-- The machine with the tiles of its job's mask started. -/
def auditStarted (s : M8) : M8 := (maskTiles s.job.img.tileMask).foldl (fun s t => startTile s t) (odSet s Od.AUDIT_STATE 2)

theorem auditLoad_accepted {d : M8} {image rec_ : Bytes} {f : Option LoadFail}
    (hallowed : jobState d = 0 ∧ odNat d Od.AUDIT_STATE ≠ 1 ∧ odNat d Od.AUDIT_STATE ≠ 2)
    (hcode : auditCode (odSet d Od.AUDIT_STATE 1) image rec_ = (0, f)) :
    (∃ status, auditLoad d image rec_ = auditEnd (auditInstalled d image rec_) status 0 0 []) ∨
      auditLoad d image rec_ = auditStarted (auditInstalled d image rec_) := by
  have hload : auditLoad d image rec_ =
      if bit (leField (rec_.take 64) 1 1) 2 && odNat (auditInstalled d image rec_) Od.JOB_ID ≠ leField (rec_.take 64) 40 8 then
        auditEnd (auditInstalled d image rec_) 6 0 0 []
      else match auditSlotsOf (auditInstalled d image rec_) with
        | none => auditEnd (auditInstalled d image rec_) 5 0 0 []
        | some _ => auditStarted (auditInstalled d image rec_) := by
    obtain ⟨hidle, hfirst, hsecond⟩ := hallowed
    have hguard : (decide (jobState d ≠ 0) || decide (odNat d Od.AUDIT_STATE = 1) || decide (odNat d Od.AUDIT_STATE = 2)) = false := by
      simp [hidle, hfirst, hsecond]
    unfold auditLoad
    rw [if_neg (by rw [hguard]; decide)]
    simp only [hcode, ne_eq, not_true_eq_false, if_false]
    rfl
  rw [hload]
  split
  · exact .inl ⟨6, rfl⟩
  · split
    · exact .inl ⟨5, rfl⟩
    · exact .inr rfl

theorem auditStarted_starts (s : M8) : (auditStarted s).job = s.job ∧
    EntriesBut [Od.AUDIT_STATE, Od.INT_OVERRUNS] s (auditStarted s) ∧ odNat (auditStarted s) Od.AUDIT_STATE = 2 ∧
    ∀ t ∈ maskTiles s.job.img.tileMask, (getTile (auditStarted s) t).st = .running := by
  have hstart : EntriesBut [Od.INT_OVERRUNS] (odSet s Od.AUDIT_STATE 2) (auditStarted s) := .foldl (fun s t => startTile_entries s t) _ _
  have hsetup : Keeps setupView (odSet s Od.AUDIT_STATE 2) (auditStarted s) := .foldl (fun s t => startTile_setup s t) _ _
  have htiles := foldl_eachTile (f := fun s t => startTile s t) (P := fun _ _ y => y.st = .running) (fun s t => getTile_startTile s t)
    (fun s _ _ h => getTile_startTile_other s h) (maskTiles_nodup s.job.img.tileMask) (odSet s Od.AUDIT_STATE 2)
  refine ⟨congrArg (·.1) hsetup, ((odSet_entriesBut s Od.AUDIT_STATE 2).mono (by simp)).trans (hstart.mono (by simp)), ?_, htiles.1⟩
  rw [hstart.odNat_eq (by decide), odNat_odSet_self _ Od.AUDIT_STATE _ _ rfl rfl]
  rfl

/-- An accepted audit runs, or ends at once (R291, R292, R294). -/
theorem auditLoad_loads {s d : M8} {image rec_ : Bytes} {f : Option LoadFail} (hd : RingsOnly s d)
    (hallowed : jobState d = 0 ∧ odNat d Od.AUDIT_STATE ≠ 1 ∧ odNat d Od.AUDIT_STATE ≠ 2)
    (hcode : auditCode (odSet d Od.AUDIT_STATE 1) image rec_ = (0, f)) :
    let m := auditLoad d image rec_
    jobState m = 0 ∧ m.job.loaded = true ∧ m.job.audit = true ∧ m.job.auditRec = rec_.take 64 ∧
      (odNat m Od.AUDIT_STATE = 2 ∧ (∀ t ∈ maskTiles (imageTables image).tileMask, (getTile m t).st = .running) ∨
        odNat m Od.AUDIT_STATE = 3 ∧ odNat m Od.AUDITS = (odNat s Od.AUDITS + 1) % 2 ^ 32) := by
  intro m
  have hm := auditLoad_accepted hallowed hcode
  have hinst := installImage_installs (odSet d Od.AUDIT_STATE 1) image (rec_.drop 64)
  have hinstalled : EntriesBut (Od.AUDIT_STATE :: Od.JOB_ID :: Od.JOB_FAIL :: loadKeys) d (auditInstalled d image rec_) :=
    ((odSet_entriesBut d Od.AUDIT_STATE 1).mono (by simp)).trans ((hinst.entries.mono (by simp)).trans (.of_dict rfl))
  have hjob : (auditInstalled d image rec_).job = { installedJob (odSet d Od.AUDIT_STATE 1) image (rec_.drop 64) with
      audit := true, auditRec := rec_.take 64, tap := tapAsked image (rec_.take 64) } :=
    congrArg (fun v => { v.1 with audit := true, auditRec := rec_.take 64, tap := tapAsked image (rec_.take 64) }) hinst.setup
  have hidle : jobState (auditInstalled d image rec_) = 0 := (hinstalled.odNat_eq (by decide)).trans hallowed.1
  have hcount : odNat (auditInstalled d image rec_) Od.AUDITS = odNat s Od.AUDITS :=
    (hinstalled.odNat_eq (by decide)).trans (hd.entries.odNat_eq (by decide))
  rcases hm with ⟨status, hm⟩ | hm
  · obtain ⟨hstate, -, haudits, hentries, hrest⟩ := auditEnd_ends (auditInstalled d image rec_) status 0 0 []
    rw [← hm] at hstate haudits hentries hrest
    have hmjob : m.job = (auditInstalled d image rec_).job := congrArg (·.job) hrest
    rw [hcount] at haudits
    rw [hmjob, hjob]
    exact ⟨(hentries.odNat_eq (by decide)).trans hidle, rfl, rfl, rfl, .inr ⟨hstate, haudits⟩⟩
  · obtain ⟨hmjob, hentries, hstate, htiles⟩ := auditStarted_starts (auditInstalled d image rec_)
    rw [← hm] at hmjob hentries hstate htiles
    have hmask : (auditInstalled d image rec_).job.img = imageTables image := by rw [hjob]; rfl
    rw [hmask] at htiles
    have hmjob' : m.job = (auditInstalled d image rec_).job := hmjob
    rw [hmjob', hjob]
    exact ⟨(hentries.odNat_eq (by decide)).trans hidle, rfl, rfl, rfl, .inl ⟨hstate, htiles⟩⟩

/-! ### Tiles are unloaded and the job is gone (R144, R215, R347, R428, R645) -/

/-- What an unload makes of one tile. -/
def unloadTile (s : M8) (t : Nat) : M8 :=
  if (getTile s t).st = .quarantined || (getTile s t).st = .empty then s else
  let s := modTile s t fun x => { x with reqQ := [], rfences := [], placesOut := [] }
  let x := getTile s t
  if !workInFlight x && x.rfences.isEmpty then enterTileSt (setTile s t (emptyTile x)) t .empty
  else modTile s t fun x => { x with
    busy := some .unload, dispQ := x.dispQ.filter fun d => x.cells.any fun c => c.2.disp == d.id }

theorem unloadTiles_eq (s : M8) : unloadTiles s = (maskTiles s.job.img.tileMask).foldl unloadTile s := rfl

/-- A tile with nothing running. -/
def IdleTile (x : Tile) : Prop := x.st = .quarantined ∨ x.st = .empty ∨ x.dispQ = [] ∧ x.cells = []

/-- An idle tile is empty at once, or quarantined as it was. -/
theorem unloadTile_idle (s : M8) (t : Nat) (h : IdleTile (getTile s t)) :
    (getTile (unloadTile s t) t).st = .empty ∨ (getTile (unloadTile s t) t).st = .quarantined := by
  unfold unloadTile
  split
  next hgone =>
    rw [Bool.or_eq_true, decide_eq_true_eq, decide_eq_true_eq] at hgone
    exact hgone.symm
  next hgone =>
    rw [Bool.or_eq_true, decide_eq_true_eq, decide_eq_true_eq, not_or] at hgone
    obtain ⟨hdisp, hcells⟩ := (h.resolve_left hgone.1).resolve_left hgone.2
    dsimp only
    rw [getTile_modTile, if_pos (by simp [workInFlight, hdisp, hcells]), getTile_enterTileSt]
    exact .inl rfl

theorem unloadTile_other (s : M8) {t u : Nat} (h : u ≠ t) : getTile (unloadTile s t) u = getTile s u := by
  have hrequests : getTile (modTile s t fun x => { x with reqQ := [], rfences := [], placesOut := [] }) u = getTile s u :=
    getTile_modTile_other _ _ _ _ h
  unfold unloadTile
  split
  · rfl
  · dsimp only
    split
    · rw [getTile_enterTileSt_other _ _ h, getTile_setTile_other _ _ _ _ h, hrequests]
    · rw [getTile_modTile_other _ _ _ _ h, hrequests]

theorem unloadTile_setup (s : M8) (t : Nat) : Keeps setupView s (unloadTile s t) := by
  unfold unloadTile
  refine .ite (.refl s) ?_
  dsimp only
  exact .ite (.trans (b := setTile (modTile s t fun x => { x with reqQ := [], rfences := [], placesOut := [] }) t (emptyTile (getTile
    (modTile s t fun x => { x with reqQ := [], rfences := [], placesOut := [] }) t))) rfl (enterTileSt_tile ..).setup) rfl

theorem unloadTiles_empties (s : M8) (h : ∀ t ∈ maskTiles s.job.img.tileMask, IdleTile (getTile s t)) :
    (∀ t ∈ maskTiles s.job.img.tileMask, (getTile (unloadTiles s) t).st = .empty ∨ (getTile (unloadTiles s) t).st = .quarantined) ∧
      tilesEmpty (unloadTiles s) = true := by
  have htiles := (foldl_eachTile (f := unloadTile) (P := fun _ x y => IdleTile x → y.st = .empty ∨ y.st = .quarantined) unloadTile_idle
    (fun s _ _ h => unloadTile_other s h) (maskTiles_nodup s.job.img.tileMask) s).1
  have hsetup : Keeps setupView s (unloadTiles s) := .foldl (fun s t => unloadTile_setup s t) _ _
  have hjob : (unloadTiles s).job = s.job := congrArg (·.1) hsetup
  rw [← unloadTiles_eq] at htiles
  have hgone (t : Nat) (ht : t ∈ maskTiles s.job.img.tileMask) := htiles t ht (h t ht)
  refine ⟨hgone, ?_⟩
  rw [tilesEmpty, hjob, List.all_eq_true]
  intro t ht
  simpa using hgone t ht

/-- The tiles, and whether Pavane runs. -/
def endView (s : M8) : Sparse Tile × Bool := (s.tiles, s.pav.running)

theorem odSet_end (s : M8) (k n : Nat) : Keeps endView s (odSet s k n) := rfl

theorem returnLeaks_tiles (s : M8) : Keeps M8.tiles s (returnLeaks s) := by
  refine .foldl (fun s k => ?_) _ s
  exact odAdd_tiles (setPool s (k / 2) (k % 2) _) Od.POOL_LEAKED _

theorem setCacheBytes_end (s : M8) : Keeps endView s (setCacheBytes s) := odSet_end ..

/-- The machine with an empty directory and no chunk open (R177). -/
def cacheForgotten (s : M8) : M8 :=
  let m := clearMem s (dirSlot s 0) (64 * odNat s Od.DIR_SLOTS)
  { m with hubs := { m.hubs with cache := {} } }

theorem emptyCache_eq (s : M8) : emptyCache s = setCacheBytes (cacheForgotten s) := rfl

theorem emptyCache_end (s : M8) : Keeps endView s (emptyCache s) := by
  have hforgotten : Keeps endView s (cacheForgotten s) := rfl
  rw [emptyCache_eq]
  exact hforgotten.trans (setCacheBytes_end _)

theorem modCodec_end (s : M8) (hub : Nat) (f : CodecHub → CodecHub) : Keeps endView s (modCodec s hub f) := rfl

theorem pavStop_end (s : M8) : endView (pavStop (returnLeaks s)) = (s.tiles, false) := congrArg (fun v => (v, false)) (returnLeaks_tiles s)

/-- Beside the credit line, the end of a job leaves the tiles, Pavane stopped and no job (R347, R487, R645). -/
theorem clearJob_past (s : M8) :
    ∃ m, clearJob s = creditLine (odSet m Od.CREDIT_AREA 0) ∧ m.job.loaded = false ∧ endView m = (s.tiles, false) := by
  suffices h : ∀ c, c = clearJob s → ∃ m, c = creditLine (odSet m Od.CREDIT_AREA 0) ∧ m.job.loaded = false ∧ endView m = (s.tiles, false) from
    h _ rfl
  intro c hc
  unfold clearJob at hc
  extract_lets stopped cached hubs fabric msgs paths safety forgotten group last at hc
  have hstopped : endView stopped = (s.tiles, false) := pavStop_end s
  have hcached : Keeps endView stopped cached := .ite (emptyCache_end _) (.refl _)
  have hhubs : Keeps endView cached hubs := .foldl (fun m h => modCodec_end m h _) _ _
  clear_value hubs
  have hfabric : Keeps endView hubs fabric := rfl
  have hmsgs : Keeps endView fabric msgs := rfl
  have hpaths : Keeps endView msgs paths := rfl
  have hforgotten : Keeps endView paths forgotten := rfl
  have hlast : Keeps endView forgotten last := rfl
  have hkept := hcached.trans (hhubs.trans (hfabric.trans (hmsgs.trans (hpaths.trans (hforgotten.trans hlast)))))
  exact ⟨last, hc, rfl, Eq.trans hkept hstopped⟩

/-- A cleared job (R347): no job, Pavane stopped, the tiles as they were. -/
theorem clearJob_clears (s : M8) : (clearJob s).job.loaded = false ∧ (clearJob s).pav.running = false ∧ (clearJob s).tiles = s.tiles := by
  obtain ⟨m, hm, hjob, hend⟩ := clearJob_past s
  rw [hm, creditLine_int]
  exact ⟨hjob, congrArg (·.2) hend, congrArg (·.1) hend⟩

/-- Unloaded tiles, and the job gone once they are empty (R144, R428). -/
def jobUnloaded (s : M8) : M8 := if tilesEmpty (unloadTiles s) then enterJobState (clearJob (unloadTiles s)) 0 else unloadTiles s

/-- An unload of a job with nothing running on its tiles (R144, R428). -/
theorem jobUnloaded_gone (s : M8) (h : ∀ t ∈ maskTiles s.job.img.tileMask, IdleTile (getTile s t)) :
    jobState (jobUnloaded s) = 0 ∧ (jobUnloaded s).job.loaded = false ∧ (jobUnloaded s).pav.running = false ∧
      ∀ t ∈ maskTiles s.job.img.tileMask, (getTile (jobUnloaded s) t).st = .empty ∨ (getTile (jobUnloaded s) t).st = .quarantined := by
  obtain ⟨htiles, hempty⟩ := unloadTiles_empties s h
  obtain ⟨hjob, hpav, hkept⟩ := clearJob_clears (unloadTiles s)
  have hgone : jobUnloaded s = enterJobState (clearJob (unloadTiles s)) 0 := if_pos hempty
  obtain ⟨hentered, hloaded, hstopped⟩ := enterJobState_keeps (clearJob (unloadTiles s)) 0
  have hstate := enterJobState_enters (clearJob (unloadTiles s)) (st := 0) (by decide)
  rw [← hgone] at hentered hloaded hstopped hstate
  have htile (t : Nat) : getTile (jobUnloaded s) t = getTile (unloadTiles s) t := by
    rw [getTile, hentered, hkept, getTile]
  refine ⟨hstate, ?_, ?_, fun t ht => ?_⟩
  · rw [hloaded, hjob]
  · rw [hstopped, hpav]
  · rw [htile]
    exact htiles t ht

/-! ### An audit ends (R294) -/

theorem ends_auditComplete_trapped {s : State} {cause : Nat} {P : M8 → Prop} (hs : s.awake) (hrun : odNat s.m Od.AUDIT_STATE = 2)
    (htrap : auditTrap s.m = some cause) (hP : P (auditEnd s.m 7 cause 0 [])) : Ends .auditComplete s P := by
  refine ends_live hs (exec_auditComplete s) ?_
  simp only [hrun, htrap, ne_eq, not_true_eq_false, if_false]
  exact hP

/-- The STATUS of a slot that was packed (R294). -/
def slotStatus (s : M8) (reason : Nat) (vary : Bool) (term : Nat) : Nat :=
  if reason ≠ 0 then 3 else if vary then 4 else if (leField s.job.auditRec 1 1).testBit 1 = false then 2
  else if term = leField s.job.auditRec 32 8 then 0 else 1

theorem ends_auditComplete_packed {s : State} {n r k reason term : Nat} {vary : Bool} {data : Bytes} {P : M8 → Prop} (hs : s.awake)
    (hrun : odNat s.m Od.AUDIT_STATE = 2) (htrap : auditTrap s.m = none) (hmode : auditMode s.m ≠ 2) (hslots : auditSlotsOf s.m = some [(n, r, k)])
    (hslot : auditSlot s.m k = some (reason, vary, term, data)) (hterm : term < 2 ^ 64)
    (hP : P (auditEnd s.m (slotStatus s.m reason vary term) reason term data)) : Ends .auditComplete s P := by
  have hvalue : (0 + term) % 2 ^ 64 = term := by omega
  have hreason : (([(reason, vary, term, data)].find? fun e => e.1 != 0).elim 0 Prod.fst) = reason := by
    by_cases h : reason = 0 <;> simp [h]
  refine ends_live hs (exec_auditComplete s) ?_
  simp only [hrun, htrap, hslots, hslot, hmode, ne_eq, not_true_eq_false, if_false, List.map_cons, List.map_nil]
  simp only [List.any_cons, List.any_nil, Option.isNone_some, Bool.or_self, Bool.false_eq_true, if_false, List.filterMap_cons,
    List.filterMap_nil, id, hreason, List.foldl_cons, List.foldl_nil, hvalue, Bool.or_false, List.headD_cons]
  have hstatus : (if reason ≠ 0 then 3 else if vary = true then 4 else if (!bit (leField s.m.job.auditRec 1 1) 1) = true then 2
      else if term = leField s.m.job.auditRec 32 8 then 0 else 1) = slotStatus s.m reason vary term := by
    simp [slotStatus, bit]
  rw [hstatus]
  exact hP

/-- Settles O32: a load and an audit are accepted or refused, a stop, a drain and an unload end as R144 says, an audit ends with the status of
R294. -/
theorem jobsLoadDrainAndUnload : Obligations.JobsLoadDrainAndUnload := by
  unfold Obligations.JobsLoadDrainAndUnload
  intro s image rec_ cmd d tiles idle gone
  refine ⟨fun ⟨htakes, hallowed⟩ => ?load, fun ⟨htakes, hallowed⟩ => ?audit, fun ⟨htakes, hrun⟩ => ?stop,
    fun ⟨htakes, hallowed, hidle⟩ => ?unload, fun ⟨hs, hd, hstate, hdrained, hidle⟩ => ?drain, fun ⟨hs, hrun⟩ => ⟨fun cause htrap => ?trapped,
      fun n r k reason vary term data ⟨htrap, hmode, hslots, hslot, hterm⟩ => ?packed⟩⟩
  case load =>
    have hd := takes_rings htakes
    have hidle : jobState d = 0 := (hd.entries.odNat_eq (by decide)).trans ((loadAllowed_iff s.m).1 hallowed).1
    refine ends_live htakes.1 (exec_jobLoad s cmd image rec_ none) ?_
    rw [jobCommand_takes htakes hallowed]
    rcases hcode : jobCode (enterJobState d 1) image rec_ with ⟨_ | c, f⟩
    · exact jobLoad_loads hd hidle hcode
    · exact jobLoad_refuses hd hidle hcode
  case audit =>
    have hd := takes_rings htakes
    obtain ⟨hstate, hfirst, hsecond, -⟩ := (loadAllowed_iff s.m).1 hallowed
    have hkept (k : Nat) (hk : k ∉ [Od.RINGS_OPEN, Od.RINGS_FROZEN]) := hd.entries.odNat_eq hk
    have hfree : jobState d = 0 ∧ odNat d Od.AUDIT_STATE ≠ 1 ∧ odNat d Od.AUDIT_STATE ≠ 2 := by
      rw [jobState, hkept Od.JOB_STATE (by decide), hkept Od.AUDIT_STATE (by decide)]
      exact ⟨hstate, hfirst, hsecond⟩
    refine ends_live htakes.1 (exec_auditLoad s cmd image rec_ none) ?_
    rw [jobCommand_takes htakes hallowed]
    rcases hcode : auditCode (odSet d Od.AUDIT_STATE 1) image rec_ with ⟨_ | c, f⟩
    · exact auditLoad_loads hd hfree hcode
    · exact auditLoad_refuses hd hfree hcode
  case stop =>
    have hd := takes_rings htakes
    have hjob : jobState d = 3 := (hd.entries.odNat_eq (by decide)).trans hrun
    refine ends_live htakes.1 (exec_jobStop s cmd) ?_
    rw [jobCommand_takes htakes (by simp [hrun]), jobStop, if_pos hjob]
    exact ⟨enterJobState_enters _ (by decide), enterJobState_entries .., enterJobState_rest ..⟩
  case unload =>
    have hd := takes_rings htakes
    have hallowed' : unloadAllowed d = true := by
      rw [← hallowed, unloadAllowed, jobState, hd.entries.odNat_eq (by decide), hd.entries.odNat_eq (k := Od.AUDIT_STATE) (by decide), hd.rest]
      rfl
    refine ends_live htakes.1 (exec_jobUnload s cmd) ?_
    rw [jobCommand_takes htakes hallowed, jobUnload, hallowed']
    refine jobUnloaded_gone d ?_
    rw [hd.rest]
    exact hidle
  case drain =>
    subst hd
    refine ends_live hs (exec_drainComplete s) ?_
    simp only [hstate, hdrained, decide_true, Bool.and_self, if_true]
    exact jobUnloaded_gone s.m hidle
  case trapped => exact ends_auditComplete_trapped hs hrun htrap (auditEnd_ends ..)
  case packed => exact ends_auditComplete_packed hs hrun htrap hmode hslots hslot hterm (auditEnd_ends ..)

end Machine
end Sys2Proof
